-- ==== Sys2Proof/Word.lean ====
section
/-! DEFINITION. The byte of both buses and the 16-bit wire quantity, spec/00_scope.md section 5.5. -/

namespace Sys2Proof

/-- A byte of the cabinet bus or of the bay loop. -/
abbrev Byte := BitVec 8

/-- A two-byte wire quantity as received (a temperature or a fuel level of a snapshot). -/
abbrev Half := BitVec 16

end Sys2Proof
end

