-- ==== Sys2Proof/Syntax.lean ====
section
/-! DEFINITION. The commands of the DST-Y40: one constructor of `Instr` per row of spec/opcode_table.json, with operands
chosen as notes/assumptions/2.md says (the table gives none). -/

namespace Sys2Proof

/-- The four station cards, in slot order 1 to 4 (spec/00_scope.md section 2). -/
inductive Station where
  | office
  | feeder
  | gate
  | service
deriving DecidableEq, Repr

/-- A parking bay; bay number n is the element n - 1 (R1). -/
abbrev Bay := Fin 40

/-- One character received on LRX: its eight data bits, and whether its stop bit was there. A character whose stop bit is
missing is a corrupted byte (R38). -/
structure RxChar where
  byte : Byte
  stopOk : Bool
deriving DecidableEq, Repr

/-- The commands. Events of the part's timers and of the bay loop come first, then the requests of the stations. A
station request carries the speaking station and its argument bytes as received (R163, R172), of any number. -/
inductive Instr where
  /-- RESET: assertion and release of RESET; `addrHigh` is the level of the ADDR strap at the release (R22, R162). -/
  | reset (addrHigh : Bool)
  /-- SECONDS_TICK (R27). -/
  | secondsTick
  /-- MINUTE_TICK (R28). -/
  | minuteTick
  /-- DOOR_LIMIT_REACHED for a bay (R104). -/
  | doorLimitReached (b : Bay)
  /-- PERMIT_END for a bay (R106). -/
  | permitEnd (b : Bay)
  /-- HOLDOFF_END for a bay (R132). -/
  | holdoffEnd (b : Bay)
  /-- TIMEOUT of a bay's episode (R132). -/
  | timeout (b : Bay)
  /-- SILENCE_RELEASE of a station's service stack (R160). -/
  | silenceRelease (st : Station)
  /-- ROUND_START (R41). -/
  | roundStart
  /-- IDLE_GAP_END (R52). -/
  | idleGapEnd
  /-- REPLY_WINDOW_OPEN: the end of the stop bit of the request's last byte (R37). -/
  | replyWindowOpen
  /-- REPLY_FRAME_COMPLETE with the characters received since the reply window opened (R38, R39). -/
  | replyFrameComplete (chars : List RxChar)
  /-- WRONG_KIND_BYTE with the kind byte received (R38). -/
  | wrongKindByte (kind : Byte)
  /-- REPLY_WINDOW_CLOSE (R38). -/
  | replyWindowClose
  /-- HALTED_ENTRY (R25). -/
  | haltedEntry
  | readBay (st : Station) (args : List Byte)
  | readFeeder (st : Station) (args : List Byte)
  | readQueue (st : Station) (args : List Byte)
  | readActive (st : Station) (args : List Byte)
  | readYard (st : Station) (args : List Byte)
  | readSetting (st : Station) (args : List Byte)
  | arrive (st : Station) (args : List Byte)
  | depart (st : Station) (args : List Byte)
  | setDeparture (st : Station) (args : List Byte)
  | setBayData (st : Station) (args : List Byte)
  | closeBay (st : Station) (args : List Byte)
  | openBay (st : Station) (args : List Byte)
  /-- MARK with operation byte 0; also every MARK write whose operation byte is missing or unknown. -/
  | markSet (st : Station) (args : List Byte)
  /-- MARK with operation byte 2. -/
  | markTestSet (st : Station) (args : List Byte)
  /-- MARK with operation byte 1. -/
  | markClear (st : Station) (args : List Byte)
  /-- MARK with operation byte 3. -/
  | markTestClear (st : Station) (args : List Byte)
  | defrostNow (st : Station) (args : List Byte)
  | withdraw (st : Station) (args : List Byte)
  | feederBudgetSingle (st : Station) (args : List Byte)
  | feederBudgetAll (st : Station) (args : List Byte)
  | forceRelease (st : Station) (args : List Byte)
  | doorPermit (st : Station) (args : List Byte)
  | clearFlagsBay (st : Station) (args : List Byte)
  | clearFlagsFeeder (st : Station) (args : List Byte)
  | takeAlert (st : Station) (args : List Byte)
  | releaseAlert (st : Station) (args : List Byte)
  | alertMask (st : Station) (args : List Byte)
  | beginRounds (st : Station) (args : List Byte)
  | haltRounds (st : Station) (args : List Byte)
  | setSetting (st : Station) (args : List Byte)
  /-- UNKNOWN_KIND: a station write whose kind byte is of no known request (R168). -/
  | unknownKind (st : Station) (kind : Byte) (args : List Byte)
  /-- OVERLONG: a station write of more than 32 bytes (R164). -/
  | overlong (st : Station) (bytes : List Byte)
  /-- GENERAL_CALL_WRITE with the bytes written (R170). -/
  | generalCallWrite (bytes : List Byte)
deriving DecidableEq, Repr

end Sys2Proof
end

