-- ==== Sys2Proof/Config.lean ====
section
/-! DEFINITION. The free values: what the manual leaves open and the part still goes on with. Each is opaque: no proof can
see a value of it. -/

namespace Sys2Proof

/-- FREE VALUE (notes/assumptions/7.md). The manual does not say whose STOP is placed first when one change stops several
bays (R24, R35, R132). The n-th such occasion places them in the rising order of this rank of the bay's number. -/
opaque Config.orderRank : Nat → Nat → Nat

/-- FREE VALUE (notes/assumptions/10.md). R66: after a divide that saturates 'the remainder half holds no part of the
result'; what it holds is not stated. Dividend and divisor give it. -/
opaque Config.saturatedRemainder : Nat → Nat → Nat

end Sys2Proof
end

