-- ==== Sys2Proof/Machine/State.lean ====
section
/-! DEFINITION. The state of the DST-Y40, block by block (spec/00_scope.md section 3), and its value after reset. -/

namespace Sys2Proof.Machine

/-- A feeder; feeder number n is the element n - 1. -/
abbrev FeederIx := Fin 4

/-- An element of a pending set: 0 is YARD, n is bay number n (R150, R173). -/
abbrev Element := Fin 41

/-! ## Names of states, reasons, outcomes and codes -/

/-- Run states (R22 to R25). -/
inductive RunState where
  | setup | running | halting | halted
deriving DecidableEq, Repr

/-- Whether the minute tick of R28 is still to be taken. `issued`: its seconds tick has been taken and it has not.
`early`: it has been taken ahead of the seconds tick it comes with (R28 allows either order). -/
inductive MinutePhase where
  | none | issued | early
deriving DecidableEq, Repr

/-- The moments that a count of a tick can reach for a bay (R104, R106, R132). -/
inductive Moment where
  | doorLimit (b : Bay)
  | permitEnd (b : Bay)
  | holdoffEnd (b : Bay)
  | timeout (b : Bay)
deriving DecidableEq, Repr

/-- Nesting mode, setting 14 (R154). -/
inductive Nesting where
  | nested | flat
deriving DecidableEq, Repr

/-- Occupancy of a bay (section 1.2). -/
inductive Occupancy where
  | vacant | arriving | parked | departing | outOfService
deriving DecidableEq, Repr

/-- Link of a bay (section 3.4). -/
inductive Link where
  | new | ok | lost
deriving DecidableEq, Repr

/-- Last exchange outcome of a bay (R39, R40). -/
inductive ExchangeOutcome where
  | none | answered | noReply | badCheck | wrongReply
deriving DecidableEq, Repr

/-- Mode a reefer unit reports (R174). -/
inductive Mode where
  | off | cool | heat | defrost | fault
deriving DecidableEq, Repr

/-- Run source a reefer unit reports (R174). -/
inductive Source where
  | shore | diesel
deriving DecidableEq, Repr

/-- Door report of a reefer unit (R174). -/
inductive DoorReport where
  | closed | opened | nar
deriving DecidableEq, Repr

/-- A door position that can be pending (R99). -/
inductive DoorPos where
  | closed | opened
deriving DecidableEq, Repr

/-- Confirmed door state (R99). -/
inductive DoorState where
  | unknown | closed | opened
deriving DecidableEq, Repr

/-- Defrost state of a bay (R128). -/
inductive DefrostState where
  | idle | queued | starting | active | stopping | shed | hung
deriving DecidableEq, Repr

/-- Stop reasons (R128). -/
inductive StopReason where
  | shed | overflow | door | depart | hold | timeout | withdraw | halt | link | unconfirmed
deriving DecidableEq, Repr

/-- What a defrost is charged to (R128). -/
inductive Charge where
  | none | self | feeder (f : FeederIx)
deriving DecidableEq, Repr

/-- Origin of a demand (R116). -/
inductive Origin where
  | estimate | manual
deriving DecidableEq, Repr

/-- The thirteen outcomes of an episode (R131). -/
inductive DefrostOutcome where
  | complete | timedOut | failed | notNeeded | abortedDoor | abortedDepart | abortedHold | abortedLink
  | abortedOverflow | withdrawn | halted | forced | unconfirmed
deriving DecidableEq, Repr

/-- The six alert categories, highest priority first (R150). -/
inductive Category where
  | power | door | frost | fuel | link | check
deriving DecidableEq, Repr

/-- Result codes of a reply (R168). -/
inductive ResultCode where
  | done | clamped | refusedRole | refusedState | refusedOwner | badArgument | badLength | unknownKind | overlong
  | noRequest
deriving DecidableEq, Repr

/-! ## Run controller -/

/-- A set of check conditions (section 4.5). -/
structure Conds where
  invalid : Bool
  range : Bool
  saturate : Bool
  norate : Bool
deriving DecidableEq, Repr

/-- The settings store, settings 1 to 15 in order (section 2.3). -/
structure Settings where
  pollPeriod : Nat
  lossLimit : Nat
  alpha : Nat
  deadBand : Nat
  frostGain : Nat
  doorGain : Nat
  meltGain : Nat
  demandThreshold : Nat
  tmax : Nat
  holdoff : Nat
  doorLimit : Nat
  fuelMargin : Nat
  lowFuel : Nat
  nesting : Nesting
  enables : Conds
deriving DecidableEq, Repr

/-- The run controller (chapter 2). -/
structure RunControl where
  state : RunState
  second : Nat
  minutePhase : MinutePhase
  yardMinute : Nat
  settings : Settings
deriving DecidableEq, Repr

/-! ## Bay records -/

/-- The latest telemetry values of a bay, as received (R45). -/
structure Snapshot where
  mode : Mode
  source : Source
  door : DoorReport
  tc : Half
  tr : Half
  p : Half
deriving DecidableEq, Repr

/-- The frost record (R72). -/
structure Frost where
  s : Option Int
  b : Option Int
  k : Nat
  f : Nat
deriving DecidableEq, Repr

/-- The fuel record (R86). -/
structure Fuel where
  v : Option Nat
  vref : Option Nat
  w : Nat
  r : Nat
  e : Nat
  low : Bool
  short : Bool
  refuels : Nat
deriving DecidableEq, Repr

/-- The door record (R99). `pending` none is 'none with count 0'; a position is that report with agree count 1. -/
structure Door where
  confirmed : DoorState
  pending : Option DoorPos
  openSeconds : Nat
  lastOpen : Nat
  openings : Nat
  totalOpen : Nat
  alertGiven : Bool
deriving DecidableEq, Repr

/-- The defrost record (R128). -/
structure Defrost where
  state : DefrostState
  reason : Option StopReason
  charge : Charge
  draw : Nat
  shedPending : Bool
  elapsed : Nat
  holdoff : Nat
  origin : Option Origin
  outcome : Option DefrostOutcome
  count : Nat
deriving DecidableEq, Repr

/-- A bay record (R1). `hold` holds the owner station while HOLD is set; `capacity` 0 and `feeder` none are unset. -/
structure BayRecord where
  occupancy : Occupancy
  ident : Option (List Byte)
  arrival : Option Nat
  capacity : Nat
  feeder : Option FeederIx
  draw : Nat
  departure : Option Nat
  permit : Nat
  hold : Option Station
  fuelOrdered : Bool
  noDiesel : Bool
  link : Link
  missCount : Nat
  lastExchange : ExchangeOutcome
  roundsSince : Nat
  snapshot : Option Snapshot
  frost : Frost
  fuel : Fuel
  door : Door
  causes : Conds
  sticky : Conds
  defrost : Defrost
deriving DecidableEq, Repr

/-! ## Loop controller -/

/-- An order's kind; a START carries its resume flag (section 3.5). -/
inductive OrderKind where
  | start (resume : Bool)
  | stop
deriving DecidableEq, Repr

/-- An entry of the order queue (section 3.5). -/
structure Order where
  bay : Bay
  kind : OrderKind
deriving DecidableEq, Repr

/-- The two kinds of exchange (section 3.2). -/
inductive ExchangeKind where
  | poll
  | order (kind : OrderKind)
deriving DecidableEq, Repr

/-- The phase of an exchange; a gap carries its length in milliseconds (R37). -/
inductive Phase where
  | sending
  | awaiting
  | gap (ms : Nat)
deriving DecidableEq, Repr

/-- An exchange in flight (chapter 3). -/
structure Exchange where
  bay : Bay
  kind : ExchangeKind
  phase : Phase
  voided : Bool
deriving DecidableEq, Repr

/-- The loop controller with its pins (chapter 3). `round` is the position of the round in progress; `lde` is true while
LDE is asserted; `ltx` is the frame being sent, empty at the idle level. -/
structure LoopControl where
  exchange : Option Exchange
  orders : List Order
  orderRun : Nat
  round : Option Nat
  nextRound : Option Nat
  overruns : Nat
  lde : Bool
  ltx : List Byte
deriving DecidableEq, Repr

/-! ## Defrost arbiter -/

/-- An entry of a shed stack: the bay, and the end recorded on it (R143). Whether it is SHED or STOPPING is the bay's
own defrost state. -/
structure ShedEntry where
  bay : Bay
  ended : Option StopReason
deriving DecidableEq, Repr

/-- A feeder record (R109); the head of `stack` is its top. The committed current is the sum of R110 (`committed`). -/
structure Feeder where
  budget : Nat
  stack : List ShedEntry
  nearFull : Bool
  overflow : Bool
deriving DecidableEq, Repr

/-- An entry of the demand queue (R116). -/
structure QueueEntry where
  bay : Bay
  origin : Origin
  joined : Nat
  passOver : Nat
deriving DecidableEq, Repr

/-- The defrost arbiter's feeder records, demand queue (oldest first) and active list (oldest first). -/
structure Arbiter where
  feeders : Vector Feeder 4
  queue : List QueueEntry
  active : List Bay
deriving DecidableEq, Repr

/-! ## Alert unit -/

/-- A category's latch and pending set; the set is a strictly rising list (R150). -/
structure CategoryRecord where
  latch : Bool
  pending : List Element
deriving DecidableEq, Repr

/-- An entry of a service stack (R150). -/
structure ServiceEntry where
  category : Category
  set : List Element
deriving DecidableEq, Repr

/-- A station in the alert unit (R150); the head of `stack` is its top; `line` is true while its ALERT line is asserted. -/
structure AlertStation where
  mask : List Category
  stack : List ServiceEntry
  silence : Nat
  line : Bool
deriving DecidableEq, Repr

/-- The alert unit: categories in order of priority, stations in slot order. -/
structure AlertUnit where
  cats : Vector CategoryRecord 6
  stations : Vector AlertStation 4
deriving DecidableEq, Repr

/-! ## Cabinet port -/

/-- A reply: its result code and its reply data; the length n is that of the data (R166). -/
structure Reply where
  code : ResultCode
  data : List Byte
deriving DecidableEq, Repr

/-- A station's slot at the cabinet port (R165, R166). -/
structure Slot where
  inProgress : Bool
  reply : Reply
deriving DecidableEq, Repr

/-- The request assembly: the 7-bit address of the write in progress, the bytes received, and whether the write ran on
past 32 bytes (R163, R164). -/
structure Assembly where
  address : Nat
  bytes : List Byte
  overlong : Bool
deriving DecidableEq, Repr

/-- The cabinet port (chapter 11). `addrHigh` chooses the base address 0x4C over 0x44 (R162). -/
structure CabinetPort where
  addrHigh : Bool
  assembly : Option Assembly
  slots : Vector Slot 4
deriving DecidableEq, Repr

/-! ## The whole state -/

/-- The state of the part. `passDue`, `moments` and `freeDraws` are the model's own (notes/assumptions/6.md, 5.md and 7.md):
whether a grant pass is owed, and which moments a count has reached, in the change under way. `pending` is the queue of
waiting commands, first in first out. -/
structure State where
  run : RunControl
  bays : Vector BayRecord 40
  loop : LoopControl
  arb : Arbiter
  alert : AlertUnit
  port : CabinetPort
  passDue : Bool
  moments : List Moment
  freeDraws : Nat
  pending : List Instr
deriving DecidableEq, Repr

/-- The faults a step can end in. There is none: every command of the part ends in a next state (a request that cannot be
carried out is answered with a result code, R168), so this type has no constructor. Nothing raises it: safe. -/
inductive Fault where
deriving DecidableEq, Repr

/-- The refusals a step can end in. -/
inductive Refusal where
  /-- The command has no meaning in the model yet. Raised by no arm of `exec`: safe. -/
  | notModelled (mnemonic : String)
deriving DecidableEq, Repr

/-! ## After reset -/

/-- No condition (R2). -/
def Conds.empty : Conds := ⟨false, false, false, false⟩

/-- The defaults of section 2.3, written by reset (R31). -/
def Settings.defaults : Settings :=
  { pollPeriod := 30, lossLimit := 4, alpha := 64, deadBand := 5, frostGain := 96, doorGain := 40, meltGain := 32,
    demandThreshold := 45000, tmax := 45, holdoff := 60, doorLimit := 300, fuelMargin := 120, lowFuel := 200,
    nesting := .nested, enables := ⟨true, true, false, false⟩ }

/-- The reset values of R2 and R128 in the defrost group. -/
def Defrost.empty : Defrost :=
  { state := .idle, reason := none, charge := .none, draw := 0, shedPending := false, elapsed := 0, holdoff := 0,
    origin := none, outcome := none, count := 0 }

/-- The reset values of R2 in every group. -/
def BayRecord.empty : BayRecord :=
  { occupancy := .vacant, ident := none, arrival := none, capacity := 0, feeder := none, draw := 16,
    departure := none, permit := 0, hold := none, fuelOrdered := false, noDiesel := false,
    link := .new, missCount := 0, lastExchange := .none, roundsSince := 0, snapshot := none,
    frost := ⟨none, none, 0, 0⟩,
    fuel := ⟨none, none, 0, 0, 65535, false, false, 0⟩,
    door := ⟨.unknown, none, 0, 0, 0, 0, false⟩,
    causes := Conds.empty, sticky := Conds.empty, defrost := Defrost.empty }

/-- The part right after reset (R2, R22, R36, R109, R116, R129, R150, R167), with the ADDR strap low
(DESIGN CHOICE, notes/assumptions/3.md: the RESET command carries the strap's level). -/
def State.reset : State :=
  { run := { state := .setup, second := 0, minutePhase := .none, yardMinute := 0, settings := Settings.defaults },
    bays := Vector.replicate 40 BayRecord.empty,
    loop := { exchange := none, orders := [], orderRun := 0, round := none, nextRound := none, overruns := 0,
              lde := false, ltx := [] },
    arb := { feeders := Vector.replicate 4 ⟨0, [], false, false⟩, queue := [], active := [] },
    alert := { cats := Vector.replicate 6 ⟨false, []⟩, stations := Vector.replicate 4 ⟨[], [], 0, false⟩ },
    port := { addrHigh := false, assembly := none, slots := Vector.replicate 4 ⟨false, ⟨.noRequest, []⟩⟩ },
    passDue := false, moments := [], freeDraws := 0, pending := [] }

end Sys2Proof.Machine
end

