-- ==== Sys2Proof/Machine/Operands.lean ====
section
/-! DEFINITION. Reading the argument bytes of requests and writing quantities and codes into replies and frames:
spec/11_cabinet_port_requests_and_wire_formats.md section 11.5 and spec/00_scope.md section 5.5. -/

namespace Sys2Proof.Machine

/-! ## Quantities -/

/-- Bay number 1 to 40 of a bay (R1). -/
def bayNumber (b : Bay) : Nat := b.val + 1

/-- Feeder number 1 to 4. -/
def feederNumber (f : FeederIx) : Nat := f.val + 1

/-- Slot number 1 to 4 of a station (spec/00_scope.md section 2). -/
def slotNumber : Station → Nat
  | .office => 1
  | .feeder => 2
  | .gate => 3
  | .service => 4

/-- Place of a station in the tables kept per station. -/
def stationIx : Station → Fin 4
  | .office => 0
  | .feeder => 1
  | .gate => 2
  | .service => 3

/-- The four stations in slot order. -/
def allStations : List Station := [.office, .feeder, .gate, .service]

/-- The byte that holds a number (its low eight bits). -/
def byteOf (n : Nat) : Byte := BitVec.ofNat 8 n

/-- A two-byte quantity, most significant byte first (section 5.5). -/
def be16 (n : Nat) : List Byte := [byteOf (n / 256), byteOf n]

/-- A four-byte quantity, most significant byte first. -/
def be32 (n : Nat) : List Byte := [byteOf (n / 16777216), byteOf (n / 65536), byteOf (n / 256), byteOf n]

/-- A signed two-byte quantity in two's complement. -/
def be16Signed (i : Int) : List Byte := be16 (BitVec.ofInt 16 i).toNat

/-- A received two-byte field as sent on. -/
def be16Half (h : Half) : List Byte := be16 h.toNat

/-- The number two received bytes stand for. -/
def word16 (hi lo : Byte) : Nat := hi.toNat * 256 + lo.toNat

/-- The half two received bytes stand for. -/
def half16 (hi lo : Byte) : Half := BitVec.ofNat 16 (word16 hi lo)

/-- A one-bit value as a byte: a mark's previous value (R173), the resume flag in bit 0 of an ORDER's flags (R174). -/
def byteOfBool (x : Bool) : Byte := if x then 1 else 0

/-- The byte of a flag that R173 lays out as one byte without giving codes, shed-pending or door-alert-given: 0 for clear, 1
for set. DESIGN CHOICE, notes/assumptions/15.md. -/
def flagByte (x : Bool) : Byte := byteOfBool x

/-- A set of up to four members as a byte, bit i standing for member i (section 11.5). The bits that stand for no member are 0:
DESIGN CHOICE, notes/assumptions/15.md. -/
def setByte (b0 b1 b2 b3 : Bool) : Byte :=
  byteOf (b0.toNat + 2 * b1.toNat + 4 * b2.toNat + 8 * b3.toNat)

/-! ## Arguments of requests -/

/-- The bay a bay-number byte names, none outside 1..40. -/
def bayOfByte (x : Byte) : Option Bay :=
  if h : 1 ≤ x.toNat ∧ x.toNat ≤ 40 then some ⟨x.toNat - 1, by omega⟩ else none

/-- The feeder a feeder-number byte names, none outside 1..4. -/
def feederOfByte (x : Byte) : Option FeederIx :=
  if h : 1 ≤ x.toNat ∧ x.toNat ≤ 4 then some ⟨x.toNat - 1, by omega⟩ else none

/-- The feeder field of SET BAY DATA: 0 is unset, none outside 0..4 (R11). -/
def feederFieldOfByte (x : Byte) : Option (Option FeederIx) :=
  if x.toNat = 0 then some none else (feederOfByte x).map some

/-- The not-given marker of an optional 16-bit request value (R171). -/
def notGiven : Nat := 65535

/-- An optional 16-bit request value (R171). -/
def optional16 (hi lo : Byte) : Option Nat :=
  if word16 hi lo = notGiven then none else some (word16 hi lo)

/-- The four views of READ BAY (R20, R172). -/
inductive View where
  | ident | telemetry | checks | defrost
deriving DecidableEq, Repr

/-- The view a view byte names (R172). -/
def viewOfByte (x : Byte) : Option View :=
  match x.toNat with
  | 0 => some .ident
  | 1 => some .telemetry
  | 2 => some .checks
  | 3 => some .defrost
  | _ => none

/-- The code of a view. -/
def viewCode : View → Nat
  | .ident => 0
  | .telemetry => 1
  | .checks => 2
  | .defrost => 3

/-- The three marks (section 1.5). -/
inductive Mark where
  | hold | fuelOrdered | noDiesel
deriving DecidableEq, Repr

/-- The mark a mark byte names (R172). -/
def markOfByte (x : Byte) : Option Mark :=
  match x.toNat with
  | 0 => some .hold
  | 1 => some .fuelOrdered
  | 2 => some .noDiesel
  | _ => none

/-- The four operations of MARK (R15). -/
inductive MarkOp where
  | set | clear | testSet | testClear
deriving DecidableEq, Repr

/-- The operation an operation byte names (R172). -/
def markOpOfByte (x : Byte) : Option MarkOp :=
  match x.toNat with
  | 0 => some .set
  | 1 => some .clear
  | 2 => some .testSet
  | 3 => some .testClear
  | _ => none

/-- A trailer ident is 8 characters, each A to Z, 0 to 9 or space, and not 8 spaces (R5, R171). -/
def identCharOk (c : Byte) : Bool :=
  (0x41 ≤ c.toNat && c.toNat ≤ 0x5A) || (0x30 ≤ c.toNat && c.toNat ≤ 0x39) || c.toNat == 0x20

/-- The form of R5. -/
def identOk (i : List Byte) : Bool :=
  i.length == 8 && i.all identCharOk && !i.all (fun c => c.toNat == 0x20)

/-- The category a category byte names, none for 0 (NONE) and above 6 (R156, R172). -/
def categoryOfByte (x : Byte) : Option Category :=
  match x.toNat with
  | 1 => some .power
  | 2 => some .door
  | 3 => some .frost
  | 4 => some .fuel
  | 5 => some .link
  | 6 => some .check
  | _ => none

/-! ## Codes of replies (R168, R172, R173) -/

/-- Byte value of a result code (R168). -/
def resultByte : ResultCode → Byte
  | .done => 0x00
  | .clamped => 0x01
  | .refusedRole => 0x10
  | .refusedState => 0x11
  | .refusedOwner => 0x12
  | .badArgument => 0x20
  | .badLength => 0x21
  | .unknownKind => 0x22
  | .overlong => 0x23
  | .noRequest => 0xFE

/-- Number of a category, 1 to 6, which is also its priority (R150, R172). -/
def categoryNumber : Category → Nat
  | .power => 1
  | .door => 2
  | .frost => 3
  | .fuel => 4
  | .link => 5
  | .check => 6

/-- Code of an occupancy (R173). -/
def occupancyCode : Occupancy → Nat
  | .vacant => 0
  | .arriving => 1
  | .parked => 2
  | .departing => 3
  | .outOfService => 4

/-- Code of a link (R173). -/
def linkCode : Link → Nat
  | .new => 0
  | .ok => 1
  | .lost => 2

/-- Code of an exchange outcome (R173). -/
def exchangeOutcomeCode : ExchangeOutcome → Nat
  | .none => 0
  | .answered => 1
  | .noReply => 2
  | .badCheck => 3
  | .wrongReply => 4

/-- Code of a mode (R174). -/
def modeCode : Mode → Nat
  | .off => 0
  | .cool => 1
  | .heat => 2
  | .defrost => 3
  | .fault => 4

/-- Code of a run source (R174). -/
def sourceCode : Source → Nat
  | .shore => 0
  | .diesel => 1

/-- Code of a door report (R174). -/
def doorReportCode : DoorReport → Nat
  | .closed => 0
  | .opened => 1
  | .nar => 3

/-- Code of a confirmed door state (R173). -/
def doorStateCode : DoorState → Nat
  | .unknown => 0
  | .closed => 1
  | .opened => 2

/-- Code of a pending report (R173). -/
def pendingCode : Option DoorPos → Nat
  | none => 0
  | some .closed => 1
  | some .opened => 2

/-- Code of a defrost state (R173). -/
def defrostStateCode : DefrostState → Nat
  | .idle => 0
  | .queued => 1
  | .starting => 2
  | .active => 3
  | .stopping => 4
  | .shed => 5
  | .hung => 6

/-- Code of a stop reason (R173). -/
def stopReasonCode : Option StopReason → Nat
  | none => 0
  | some .shed => 1
  | some .overflow => 2
  | some .door => 3
  | some .depart => 4
  | some .hold => 5
  | some .timeout => 6
  | some .withdraw => 7
  | some .halt => 8
  | some .link => 9
  | some .unconfirmed => 10

/-- Code of a charge (R173). -/
def chargeCode : Charge → Nat
  | .none => 0
  | .feeder f => feederNumber f
  | .self => 5

/-- Code of an origin (R173). -/
def originCode : Option Origin → Nat
  | none => 0
  | some .estimate => 1
  | some .manual => 2

/-- Code of a last outcome (R173). -/
def outcomeCode : Option DefrostOutcome → Nat
  | none => 0
  | some .complete => 1
  | some .timedOut => 2
  | some .failed => 3
  | some .notNeeded => 4
  | some .abortedDoor => 5
  | some .abortedDepart => 6
  | some .abortedHold => 7
  | some .abortedLink => 8
  | some .abortedOverflow => 9
  | some .withdrawn => 10
  | some .halted => 11
  | some .forced => 12
  | some .unconfirmed => 13

/-- Code of a run state (R173). -/
def runStateCode : RunState → Nat
  | .setup => 0
  | .running => 1
  | .halting => 2
  | .halted => 3

/-- A set of conditions as a byte (R173). -/
def condsByte (c : Conds) : Byte := setByte c.invalid c.range c.saturate c.norate

end Sys2Proof.Machine
end

