-- ==== Sys2Proof/Machine/Flags.lean ====
section
/-! DEFINITION. The sets the part keeps as flags and how they are computed: check conditions (section 4.5), pending sets
and latches, eligibility and the ALERT lines (chapter 10). -/

namespace Sys2Proof.Machine

/-! ## Check conditions -/

/-- Union of two condition sets (R68, R69). -/
def condsUnion (a b : Conds) : Conds :=
  ⟨a.invalid || b.invalid, a.range || b.range, a.saturate || b.saturate, a.norate || b.norate⟩

/-- Whether two condition sets share a member (R70). -/
def condsMeet (a b : Conds) : Bool :=
  (a.invalid && b.invalid) || (a.range && b.range) || (a.saturate && b.saturate) || (a.norate && b.norate)

/-- The set holding INVALID alone, if the flag is true. -/
def condInvalid (x : Bool) : Conds := ⟨x, false, false, false⟩

/-- The set holding RANGE alone, if the flag is true. -/
def condRange (x : Bool) : Conds := ⟨false, x, false, false⟩

/-- The set holding SATURATE alone, if the flag is true. -/
def condSaturate (x : Bool) : Conds := ⟨false, false, x, false⟩

/-- The set holding NORATE alone, if the flag is true. -/
def condNorate (x : Bool) : Conds := ⟨false, false, false, x⟩

/-! ## Pending sets -/

/-- The element that stands for the yard (R150). -/
def yard : Element := 0

/-- The element that stands for a bay. -/
def bayElement (b : Bay) : Element := b.succ

/-- Add an element to a strictly rising list, holding it once (R151). -/
def insertElement (e : Element) : List Element → List Element
  | [] => [e]
  | x :: xs => if e < x then e :: x :: xs else if e = x then x :: xs else x :: insertElement e xs

/-- Union of two sets, each element held once (R160). -/
def unionElements (a b : List Element) : List Element := a.foldr insertElement b

/-! ## Categories and stations of the alert unit -/

/-- The six categories in order of priority (R150). -/
def allCategories : List Category := [.power, .door, .frost, .fuel, .link, .check]

/-- Place of a category in the alert unit's table. -/
def categoryIx : Category → Fin 6
  | .power => 0
  | .door => 1
  | .frost => 2
  | .fuel => 3
  | .link => 4
  | .check => 5

/-- A category's record. -/
def catAt (u : AlertUnit) (c : Category) : CategoryRecord := u.cats[(categoryIx c).val]

/-- Replace a category's record. -/
def setCat (c : Category) (r : CategoryRecord) (u : AlertUnit) : AlertUnit :=
  { u with cats := u.cats.set (categoryIx c).val r }

/-- A station's record in the alert unit. -/
def alertAt (u : AlertUnit) (st : Station) : AlertStation := u.stations[(stationIx st).val]

/-- Replace a station's record in the alert unit. -/
def setAlertAt (st : Station) (r : AlertStation) (u : AlertUnit) : AlertUnit :=
  { u with stations := u.stations.set (stationIx st).val r }

/-- A category is in service at a station when the station's service stack holds an entry of it (R150). -/
def inServiceAt (u : AlertUnit) (st : Station) (c : Category) : Bool :=
  (alertAt u st).stack.any fun e => e.category == c

/-- A category is in service when it is so at some station. -/
def inService (u : AlertUnit) (c : Category) : Bool := allStations.any fun st => inServiceAt u st c

/-- The nesting test of R154. -/
def nestingTest (mode : Nesting) (stack : List ServiceEntry) (c : Category) : Bool :=
  match stack with
  | [] => true
  | top :: _ =>
    match mode with
    | .nested => decide (categoryNumber c < categoryNumber top.category)
    | .flat => false

/-- The four conditions of R153 under which a category is eligible for a station. -/
def eligible (mode : Nesting) (u : AlertUnit) (st : Station) (c : Category) : Bool :=
  (catAt u c).latch && !(alertAt u st).mask.contains c && !inService u c && nestingTest mode (alertAt u st).stack c

/-- The categories eligible for a station, highest priority first. -/
def eligibleFor (mode : Nesting) (u : AlertUnit) (st : Station) : List Category :=
  allCategories.filter fun c => eligible mode u st c

/-- Evaluate one station's ALERT line (R153). -/
def evalLine (mode : Nesting) (st : Station) (u : AlertUnit) : AlertUnit :=
  setAlertAt st { alertAt u st with line := allCategories.any fun c => eligible mode u st c } u

/-- Evaluate every station's ALERT line (R153). -/
def evalLines (mode : Nesting) (u : AlertUnit) : AlertUnit := allStations.foldl (fun u st => evalLine mode st u) u

/-- A raise: the element joins the category's pending set, the latch is set, the lines are evaluated (R151). -/
def raiseIn (mode : Nesting) (c : Category) (e : Element) (u : AlertUnit) : AlertUnit :=
  evalLines mode (setCat c { latch := true, pending := insertElement e (catAt u c).pending } u)

/-- A take by a station (R155): the highest eligible category, if any, goes onto its service stack with the whole pending
set, latch and set are emptied, the lines are evaluated. Answers the category and the set taken. -/
def takeIn (mode : Nesting) (st : Station) (u : AlertUnit) : Option ServiceEntry × AlertUnit :=
  match eligibleFor mode u st with
  | [] => (none, u)
  | c :: _ =>
    let entry : ServiceEntry := ⟨c, (catAt u c).pending⟩
    let a := alertAt u st
    let u1 := setAlertAt st { a with stack := entry :: a.stack } u
    (some entry, evalLines mode (setCat c ⟨false, []⟩ u1))

/-- A release by a station (R156): none when the top entry is not of the category named. -/
def releaseIn (mode : Nesting) (st : Station) (c : Category) (u : AlertUnit) : Option AlertUnit :=
  match (alertAt u st).stack with
  | [] => none
  | top :: rest =>
    if top.category = c then some (evalLines mode (setAlertAt st { alertAt u st with stack := rest } u)) else none

/-- A station's mask is replaced and every line evaluated again (R152, R153). -/
def maskIn (mode : Nesting) (st : Station) (mask : List Category) (u : AlertUnit) : AlertUnit :=
  evalLines mode (setAlertAt st { alertAt u st with mask := mask } u)

/-- A station's silence count becomes 0 (R159). -/
def hearStation (st : Station) (u : AlertUnit) : AlertUnit :=
  setAlertAt st { alertAt u st with silence := 0 } u

/-- The merge-back of one entry: its set joins the category's pending set and the latch is set (R160, R161). -/
def mergeEntry (e : ServiceEntry) (u : AlertUnit) : AlertUnit :=
  setCat e.category { latch := true, pending := unionElements e.set (catAt u e.category).pending } u

/-- The silence release of a station whose count is 10 and whose stack is not empty (R160); any other is left as it is. -/
def silenceReleaseIn (mode : Nesting) (st : Station) (u : AlertUnit) : AlertUnit :=
  let a := alertAt u st
  if a.silence = 10 ∧ a.stack ≠ [] then
    evalLines mode (setAlertAt st { a with stack := [] } (a.stack.foldr mergeEntry u))
  else u

/-- The increase of a station's silence count at a minute tick, staying at 10 (R159). -/
def countSilence (st : Station) (u : AlertUnit) : AlertUnit :=
  setAlertAt st { alertAt u st with silence := min ((alertAt u st).silence + 1) 10 } u

/-- The alert unit's minute tick: the increase of every count (R159), then the silence releases (R160). -/
def alertMinute (mode : Nesting) (u : AlertUnit) : AlertUnit :=
  allStations.foldl (fun u st => silenceReleaseIn mode st u) (allStations.foldl (fun u st => countSilence st u) u)

end Sys2Proof.Machine
end

