-- ==== Sys2Proof/Machine/Datapath.lean ====
section
/-! DEFINITION. The check engine's datapath: spec/04_check_arithmetic_and_conditions.md sections 4.3 and 4.4. Magnitudes are
natural numbers; a signed quantity, held in sign and magnitude with zero positive (R64), is an integer. -/

namespace Sys2Proof.Machine

/-- The 32-bit accumulator in its two 16-bit halves (section 4.4). -/
structure Acc where
  hi : Nat
  lo : Nat
deriving DecidableEq, Repr

/-- The number an accumulator holds. -/
def accValue (a : Acc) : Nat := a.hi * 65536 + a.lo

/-- Multiply: the product of two magnitudes, its upper 16 bits in the high half and its lower 16 in the low half (R65). -/
def multiply (a b : Nat) : Acc := ⟨a * b / 65536, a * b % 65536⟩

/-- What a divide leaves: quotient in the low half, remainder in the high half, and whether SATURATE was set (R66). -/
structure Quotient where
  acc : Acc
  saturated : Bool
deriving DecidableEq, Repr

/-- Divide (R66). The quotient saturates exactly when the high half of the dividend is at or above the divisor; what the
remainder half then holds is a free value (notes/assumptions/10.md). -/
def divide (a : Acc) (d : Nat) : Quotient :=
  if d ≤ a.hi then ⟨⟨Config.saturatedRemainder (accValue a) d, 65535⟩, true⟩
  else ⟨⟨accValue a % d, accValue a / d⟩, false⟩

/-- The quotient of a product by a divisor, with its SATURATE flag: the shape of every formula of the check. -/
def mulDiv (a b d : Nat) : Nat × Bool :=
  let q := divide (multiply a b) d
  (q.acc.lo, q.saturated)

/-- The quotient magnitude with the sign of the dividend; a zero quotient is positive (R66). -/
def withSign (negative : Bool) (m : Nat) : Int := if negative then -(m : Int) else (m : Int)

end Sys2Proof.Machine
end

