-- ==== Sys2Proof/Machine/DoorStage.lean ====
section
/-! DEFINITION. The door watch of one bay, as functions of the door record: spec/07_door_watch.md. -/

namespace Sys2Proof.Machine

/-- What the door stage sends to the arbiter (R101, R102). -/
inductive DoorNotice where
  | none | opened | closed
deriving DecidableEq, Repr

/-- What the door stage leaves: the record, INVALID, and the notice. -/
structure DoorResult where
  door : Door
  invalid : Bool
  notice : DoorNotice
deriving DecidableEq, Repr

/-- An opening begins (R101). -/
def openingBegins (d : Door) : Door :=
  { d with confirmed := .opened, pending := none, openings := min (d.openings + 1) 255, openSeconds := 0,
           alertGiven := false }

/-- The door stage (R100 to R102). -/
def doorStage (report : DoorReport) (d : Door) : DoorResult :=
  match d.confirmed, report with
  | _, .nar => ⟨{ d with pending := none }, true, .none⟩
  | .unknown, .closed => ⟨{ d with confirmed := .closed, pending := none }, false, .closed⟩
  | .unknown, .opened => ⟨openingBegins d, false, .opened⟩
  | .closed, .closed => ⟨{ d with pending := none }, false, .none⟩
  | .closed, .opened =>
    if d.pending = some .opened then ⟨openingBegins d, false, .opened⟩
    else ⟨{ d with pending := some .opened }, false, .none⟩
  | .opened, .opened => ⟨{ d with pending := none }, false, .none⟩
  | .opened, .closed =>
    if d.pending = some .closed then
      ⟨{ d with confirmed := .closed, pending := none, lastOpen := d.openSeconds }, false, .closed⟩
    else ⟨{ d with pending := some .closed }, false, .none⟩

/-- The seconds tick of an opening (R103). -/
def countOpen (d : Door) : Door :=
  { d with openSeconds := min (d.openSeconds + 1) 65535, totalOpen := min (d.totalOpen + 1) 4294967295 }

/-- Loss of door knowledge (R107). -/
def loseDoor (d : Door) : Door :=
  { d with confirmed := .unknown, pending := none,
           lastOpen := if d.confirmed = .opened then d.openSeconds else d.lastOpen }

end Sys2Proof.Machine
end

