-- ==== Sys2Proof/Machine/FrostStage.lean ====
section
/-! DEFINITION. The frost stage of a check, as a function of the frost record: spec/05_frost_estimation.md. -/

namespace Sys2Proof.Machine

/-- What the frost stage reads (R72, R73, R78): the snapshot mode, the working temperatures (none is NAR), whether the
door stage left the door confirmed OPEN, and settings 3 to 7. -/
structure FrostInput where
  mode : Mode
  tc : Option Int
  tr : Option Int
  doorOpen : Bool
  alpha : Nat
  deadBand : Nat
  frostGain : Nat
  doorGain : Nat
  meltGain : Nat
deriving DecidableEq, Repr

/-- What the frost stage leaves: the record and the conditions it met. -/
structure FrostResult where
  frost : Frost
  causes : Conds
deriving DecidableEq, Repr

/-- The step of the filter from S toward d: the magnitude of d - S times alpha over 256, with the sign of d - S (R74). -/
def filterStep (alpha : Nat) (s d : Int) : Int :=
  withSign (decide (d - s < 0)) (mulDiv (d - s).natAbs alpha 256).1

/-- The filtered split after a split d (R74): the first sample is taken whole. -/
def filterSplit (alpha : Nat) (s : Option Int) (d : Int) : Int :=
  match s with
  | none => d
  | some s0 => s0 + filterStep alpha s0 d

/-- The excess of a raw excess, with its SATURATE flag (R76). -/
def excess (deadBand : Nat) (raw : Int) : Nat × Bool :=
  if raw ≤ 0 ∨ raw < (deadBand : Int) then (0, false)
  else if raw ≤ 1000 then (raw.toNat, false)
  else (1000, true)

/-- A coil is cold at or below +20 (R75). -/
def coldCoil (tc : Int) : Bool := decide (tc ≤ 20)

/-- The filter part of the stage with the excess it forms (R73 to R76): the new S, B and k, the excess with its SATURATE
flag, and INVALID. -/
def filterPart (i : FrostInput) (f : Frost) : Frost × (Nat × Bool) × Bool :=
  match i.mode with
  | .cool =>
    match i.tc, i.tr with
    | some tc, some tr =>
      let s := filterSplit i.alpha f.s (tr - tc)
      match f.b with
      | none =>
        if coldCoil tc then
          let k := min (f.k + 1) 3
          ({ f with s := some s, k := k, b := if k = 3 then some s else none }, (0, false), false)
        else ({ f with s := some s }, (0, false), false)
      | some b =>
        ({ f with s := some s }, if coldCoil tc then excess i.deadBand (s - b) else (0, false), false)
    | _, _ =>
      match f.s, f.b with
      | some s, some b => (f, excess i.deadBand (s - b), true)
      | _, _ => (f, (0, false), true)
  | _ => (f, (0, false), false)

/-- Growth, e times Kg over 16 (R77). -/
def growth (frostGain e : Nat) : Nat × Bool := mulDiv e frostGain 16

/-- The door term (R78). -/
def doorTerm (i : FrostInput) : Nat :=
  match i.mode with
  | .defrost => 0
  | _ => if i.doorOpen then accValue (multiply i.doorGain 8) else 0

/-- The frost index after growth and door term, capped at 60000 with SATURATE (R79). -/
def grow (f g h : Nat) : Nat × Bool := if f + g + h ≤ 60000 then (f + g + h, false) else (60000, true)

/-- The frost index after a melt, floored at 0 (R80). -/
def melt (f meltGain : Nat) : Nat := f - accValue (multiply meltGain 64)

/-- The frost stage (R72 to R80). -/
def frostStage (i : FrostInput) (f : Frost) : FrostResult :=
  let (f1, (e, limited), invalid) := filterPart i f
  match i.mode with
  | .defrost => ⟨{ f1 with f := melt f1.f i.meltGain }, condInvalid invalid⟩
  | _ =>
    let (g, divided) := growth i.frostGain e
    let (n, capped) := grow f1.f g (doorTerm i)
    ⟨{ f1 with f := n }, condsUnion (condInvalid invalid) (condSaturate (limited || divided || capped))⟩

/-- FROST is raised when a check brings F from below 60000 to 60000 (R81). -/
def frostRaised (before after : Frost) : Bool := decide (before.f < 60000) && decide (after.f = 60000)

/-- The frost reset at the outcomes COMPLETE and NOT-NEEDED: F 0, B absent, k 0, S kept (R83). -/
def frostReset (f : Frost) : Frost := { f with f := 0, b := none, k := 0 }

end Sys2Proof.Machine
end

