-- ==== Sys2Proof/Machine/FuelStage.lean ====
section
/-! DEFINITION. The fuel stage of a check, as a function of the fuel record: spec/06_fuel_endurance.md. -/

namespace Sys2Proof.Machine

/-- What the fuel stage reads (R86): the working fuel level (none is NAR), the tank capacity (0 unset), the snapshot run
source, the departure countdown, and settings 12 and 13. -/
structure FuelInput where
  level : Option Nat
  capacity : Nat
  source : Source
  departure : Option Nat
  margin : Nat
  lowFuel : Nat
deriving DecidableEq, Repr

/-- What the fuel stage leaves: the record, the conditions it met, and whether a refuel was taken. -/
structure FuelResult where
  fuel : Fuel
  causes : Conds
  refuelled : Bool
deriving DecidableEq, Repr

/-- The volume in decilitres, P times C over 100 (R88). -/
def fuelVolume (p c : Nat) : Nat × Bool := mulDiv p c 100

/-- Capture (R89), refuel (R90) or rate (R91), whichever the volume v calls for, with the SATURATE flag of the rate divide
and whether a refuel was taken. -/
def fuelWindow (v : Nat) (f : Fuel) : Fuel × Bool × Bool :=
  match f.vref with
  | none => ({ f with v := some v, vref := some v, w := 0 }, false, false)
  | some vref =>
    if vref + 50 ≤ v then
      ({ f with v := some v, vref := some v, w := 0, refuels := min (f.refuels + 1) 255 }, false, true)
    else if v + 20 ≤ vref ∧ 10 ≤ f.w then
      let (q, saturated) := mulDiv (vref - v) 60 f.w
      ({ f with v := some v, vref := some v, w := 0, r := if q = 0 then 1 else q }, saturated, false)
    else ({ f with v := some v }, false, false)

/-- Endurance with the conditions it sets (R93). -/
def endurance (v r : Nat) : Nat × Conds :=
  if r = 0 then (65535, condNorate true)
  else
    let (q, saturated) := mulDiv v 60 r
    (q, condSaturate saturated)

/-- The short test (R95). -/
def shortTest (i : FuelInput) (e : Nat) : Bool :=
  match i.source with
  | .diesel => decide (e < i.departure.getD 0 + i.margin)
  | .shore => false

/-- The fuel stage (R87 to R95): held with INVALID when the level is NAR or the capacity unset. -/
def fuelStage (i : FuelInput) (f : Fuel) : FuelResult :=
  match i.level with
  | none => ⟨f, condInvalid true, false⟩
  | some p =>
    if i.capacity = 0 then ⟨f, condInvalid true, false⟩
    else
      let (v, overVolume) := fuelVolume p i.capacity
      let (f1, overRate, refuelled) := fuelWindow v f
      let (e, c) := endurance v f1.r
      ⟨{ f1 with e := e, low := decide (v < i.lowFuel), short := shortTest i e },
        condsUnion (condSaturate (overVolume || overRate)) c, refuelled⟩

/-- Whether low or short has become true from false (R96). -/
def fuelTurned (before after : Fuel) : Bool := (after.low && !before.low) || (after.short && !before.short)

end Sys2Proof.Machine
end

