-- ==== Sys2Proof/Machine/Wire.lean ====
section
/-! DEFINITION. Bay-loop frames: the check byte, the request frames sent, the assembly of a reply frame from the
characters received, and its judging. Rules R38, R39, R174, R175. -/

namespace Sys2Proof.Machine

/-- The sync byte (R174). -/
def syncByte : Byte := 0xC3

/-- One shift of the check register (R175). -/
def crcShift (r : Byte) : Byte := if r.msb then (r <<< 1) ^^^ 0x2F else r <<< 1

/-- One byte into the check register (R175): exclusive-or, then eight shifts. -/
def crcByte (r x : Byte) : Byte := (List.range 8).foldl (fun r _ => crcShift r) (r ^^^ x)

/-- The check byte over the bytes from the node to the last data byte (R175). -/
def checkByte (bytes : List Byte) : Byte := bytes.foldl crcByte 0xFF

/-- A frame: sync, the covered bytes, check byte (R174). -/
def frameOf (covered : List Byte) : List Byte := syncByte :: covered ++ [checkByte covered]

/-- Kind byte of a request frame (R174). -/
def requestKindByte : ExchangeKind → Byte
  | .poll => 0x01
  | .order (.start _) => 0x02
  | .order .stop => 0x03

/-- The request frame of an exchange: POLL of 4 bytes or ORDER of 5 (R174). -/
def requestFrame (b : Bay) (k : ExchangeKind) : List Byte :=
  match k with
  | .poll => frameOf [byteOf (bayNumber b), requestKindByte k]
  | .order (.start resume) => frameOf [byteOf (bayNumber b), requestKindByte k, byteOfBool resume]
  | .order .stop => frameOf [byteOf (bayNumber b), requestKindByte k, 0]

/-- The two reply kinds (R174). -/
inductive ReplyKind where
  | telemetry | orderAck
deriving DecidableEq, Repr

/-- The reply kind a kind byte names (R38, R174). -/
def replyKindOf (x : Byte) : Option ReplyKind :=
  if x = 0x81 then some .telemetry else if x = 0x82 then some .orderAck else none

/-- Length of a reply frame, from the sync byte to the check byte (R38). -/
def replyLength : ReplyKind → Nat
  | .telemetry => 13
  | .orderAck => 5

/-- What the characters received in a reply window have come to (R38). -/
inductive Assembled where
  /-- No frame is complete yet. -/
  | incomplete
  /-- A kind byte of neither reply kind was received. -/
  | wrongKind
  /-- A frame of the length its kind fixes. -/
  | complete (kind : ReplyKind) (frame : List RxChar)
deriving DecidableEq, Repr

/-- Drop characters until a sync byte; a character without its stop bit is discarded like any other (R38). -/
def seekSync : List RxChar → List RxChar
  | [] => []
  | c :: cs => if c.byte = syncByte ∧ c.stopOk = true then c :: cs else seekSync cs

/-- The assembly of a reply frame (R38). Characters after a complete frame are left out. -/
def assembleReply (chars : List RxChar) : Assembled :=
  match seekSync chars with
  | s :: n :: k :: rest =>
    match replyKindOf k.byte with
    | none => .wrongKind
    | some kind =>
      if replyLength kind ≤ (s :: n :: k :: rest).length then
        .complete kind ((s :: n :: k :: rest).take (replyLength kind))
      else .incomplete
  | _ => .incomplete

/-- Result of an ORDER-ACK (R174). -/
inductive AckResult where
  | taken | refusedWarm | refusedDoor | refusedFault | stopped
deriving DecidableEq, Repr

/-- Result byte of an ORDER-ACK, none outside its domain (R174). -/
def ackOfByte (x : Byte) : Option AckResult :=
  match x.toNat with
  | 0 => some .taken
  | 1 => some .refusedWarm
  | 2 => some .refusedDoor
  | 3 => some .refusedFault
  | 4 => some .stopped
  | _ => none

/-- Whether a result is allowed for the order sent (R39). -/
def ackAllowed : OrderKind → AckResult → Bool
  | .start _, .stopped => false
  | .start _, _ => true
  | .stop, .stopped => true
  | .stop, _ => false

/-- Mode byte, none outside its domain (R174). -/
def modeOfByte (x : Byte) : Option Mode :=
  match x.toNat with
  | 0 => some .off
  | 1 => some .cool
  | 2 => some .heat
  | 3 => some .defrost
  | 4 => some .fault
  | _ => none

/-- Run-source byte, none outside its domain (R174). -/
def sourceOfByte (x : Byte) : Option Source :=
  match x.toNat with
  | 0 => some .shore
  | 1 => some .diesel
  | _ => none

/-- Door-report byte, none outside its domain (R174). -/
def doorReportOfByte (x : Byte) : Option DoorReport :=
  match x.toNat with
  | 0 => some .closed
  | 1 => some .opened
  | 3 => some .nar
  | _ => none

/-- The outcome of an exchange with what an ANSWERED one brings (R39). -/
inductive Judged where
  | telemetry (snap : Snapshot)
  | ack (result : AckResult)
  | failed (outcome : ExchangeOutcome)
deriving DecidableEq, Repr

/-- The six fields of a TELEMETRY reply, none when a coded field is outside its domain (R39, R174). -/
def telemetryOf (data : List Byte) : Option Snapshot :=
  match data with
  | [m, r, d, tc1, tc0, tr1, tr0, p1, p0] =>
    match modeOfByte m, sourceOfByte r, doorReportOfByte d with
    | some mode, some source, some door => some ⟨mode, source, door, half16 tc1 tc0, half16 tr1 tr0, half16 p1 p0⟩
    | _, _, _ => none
  | _ => none

/-- Test 1 of R39: no corrupted byte, and the check byte is that of the covered bytes. -/
def frameCheckOk (frame : List RxChar) : Bool :=
  let bytes := frame.map (·.byte)
  frame.all (·.stopOk) && decide (bytes.getLast? = some (checkByte (bytes.tail.dropLast)))

/-- The judging of a complete reply frame against the exchange it answers (R39). -/
def judge (x : Exchange) (kind : ReplyKind) (frame : List RxChar) : Judged :=
  if frameCheckOk frame = false then .failed .badCheck
  else
    let covered := (frame.map (·.byte)).tail.dropLast
    let node := covered.headD 0
    let data := covered.drop 2
    if node ≠ byteOf (bayNumber x.bay) then .failed .wrongReply
    else
      match x.kind, kind with
      | .poll, .telemetry =>
        match telemetryOf data with
        | some snap => .telemetry snap
        | none => .failed .wrongReply
      | .order o, .orderAck =>
        match ackOfByte (data.headD 0) with
        | some r => if ackAllowed o r then .ack r else .failed .wrongReply
        | none => .failed .wrongReply
      | _, _ => .failed .wrongReply

/-- The exchange outcome of a judged reply (R39, R40). -/
def judgedOutcome : Judged → ExchangeOutcome
  | .telemetry _ => .answered
  | .ack _ => .answered
  | .failed o => o

/-- The idle gap after an exchange, in milliseconds (R37). -/
def gapAfter (o : ExchangeOutcome) : Nat :=
  match o with
  | .answered => 2
  | _ => 20

end Sys2Proof.Machine
end

