-- ==== Sys2Proof/Machine/Ops.lean ====
section
/-! DEFINITION. The operations the commands share: reading and writing records, raising alerts, the order queue and the
loop arbiter (chapter 3), the emptying of a record (chapter 1), the course of an episode, shedding and the grant pass
(chapters 8 and 9), and the end of a change. -/

namespace Sys2Proof.Machine

/-! ## Records -/

/-- The forty bays in ascending order. -/
def allBays : List Bay := List.finRange 40

/-- The record of a bay (R1). -/
def bayAt (s : State) (b : Bay) : BayRecord := s.bays[b.val]

/-- Replace the record of a bay. -/
def setBay (b : Bay) (r : BayRecord) (s : State) : State := { s with bays := s.bays.set b.val r }

/-- Change the record of a bay. -/
def modBay (b : Bay) (g : BayRecord → BayRecord) (s : State) : State := setBay b (g (bayAt s b)) s

/-- Change the defrost record of a bay. -/
def modDefrost (b : Bay) (g : Defrost → Defrost) (s : State) : State :=
  modBay b (fun r => { r with defrost := g r.defrost }) s

/-- Change every bay record in one change. -/
def mapBays (g : BayRecord → BayRecord) (s : State) : State := { s with bays := Vector.ofFn fun i => g (bayAt s i) }

/-- Take every bay in turn. -/
def forBays (g : Bay → State → State) (s : State) : State := allBays.foldl (fun s b => g b s) s

/-- How many bays have a property. -/
def countBays (p : BayRecord → Bool) (s : State) : Nat := (allBays.filter fun b => p (bayAt s b)).length

/-- The record of a feeder (R109). -/
def feederAt (s : State) (f : FeederIx) : Feeder := s.arb.feeders[f.val]

/-- Replace the record of a feeder. -/
def setFeeder (f : FeederIx) (r : Feeder) (s : State) : State :=
  { s with arb := { s.arb with feeders := s.arb.feeders.set f.val r } }

/-- The four feeders in order. -/
def allFeeders : List FeederIx := List.finRange 4

/-- Whether rounds are running (R23). -/
def isRunning (s : State) : Bool := decide (s.run.state = .running)

/-- The alert unit is handed a raise (R151). -/
def raiseAlert (c : Category) (e : Element) (s : State) : State :=
  { s with alert := raiseIn s.run.settings.nesting c e s.alert }

/-- A trigger of R120 has been met in the change under way (notes/assumptions/6.md). -/
def owePass (s : State) : State := { s with passDue := true }

/-- A trigger of R120, if the condition holds. -/
def owePassIf (x : Bool) (s : State) : State := if x then owePass s else s

/-! ## Occupancy and the polled set -/

/-- The occupancies that are polled (R7). -/
def polled (o : Occupancy) : Bool :=
  match o with
  | .arriving => true
  | .parked => true
  | .departing => true
  | .vacant => false
  | .outOfService => false

/-- An exchange that has not ended: its gap is not part of it (R37). -/
def inFlight (x : Exchange) : Bool :=
  match x.phase with
  | .sending => true
  | .awaiting => true
  | .gap _ => false

/-- The emptying of a record: the reset values of R2 in every group but bay data (R3). -/
def emptied (r : BayRecord) : BayRecord :=
  { BayRecord.empty with capacity := r.capacity, feeder := r.feeder, draw := r.draw }

/-- The voided flag of an exchange in flight with a bay's node is set (R3). -/
def voidExchange (b : Bay) (x : Exchange) : Exchange :=
  if x.bay = b ∧ inFlight x = true then { x with voided := true } else x

/-- A record is emptied and an exchange in flight with the bay's node is voided: all of the change of R3 but the notice that a
set mark gives as it is cleared. -/
def emptyRecord (b : Bay) (s : State) : State :=
  let s1 := modBay b emptied s
  { s1 with loop := { s1.loop with exchange := s1.loop.exchange.map (voidExchange b) } }

/-- A bay becomes VACANT (R3). The marks are cleared with the record (R15), so a NO-DIESEL-DEFROST that was set changes from
set to clear: a trigger of a grant pass (R18, R120; DEDUCED, notes/assumptions/13.md). -/
def becomeVacant (b : Bay) (s : State) : State := owePassIf (bayAt s b).noDiesel (emptyRecord b s)

/-! ## The order queue (section 3.5) -/

/-- Whether an order is a START for a bay. -/
def isStartFor (b : Bay) (o : Order) : Bool :=
  decide (o.bay = b) && (match o.kind with
    | .start _ => true
    | .stop => false)

/-- Whether an order is a STOP for a bay. -/
def isStopFor (b : Bay) (o : Order) : Bool := decide (o = ⟨b, .stop⟩)

/-- A START is unsent while it is in the queue (R49). -/
def startUnsent (s : State) (b : Bay) : Bool := s.loop.orders.any (isStartFor b)

/-- The order queue is replaced. -/
def setOrders (q : List Order) (s : State) : State := { s with loop := { s.loop with orders := q } }

/-- A START is placed at the tail (R49). -/
def placeStart (b : Bay) (resume : Bool) (s : State) : State := setOrders (s.loop.orders ++ [⟨b, .start resume⟩]) s

/-- A STOP is placed (R49): it removes an unsent START of the bay and is then not placed itself (R50); it leaves a queued
STOP as it stands; otherwise it joins at the tail. -/
def placeStop (b : Bay) (s : State) : State :=
  if startUnsent s b then setOrders (s.loop.orders.filter fun o => !isStartFor b o) s
  else if s.loop.orders.any (isStopFor b) then s
  else setOrders (s.loop.orders ++ [⟨b, .stop⟩]) s

/-- Insertion of an order by the free rank of its bay. -/
def insertByRank (n : Nat) (o : Order) : List Order → List Order
  | [] => [o]
  | x :: xs =>
    if Config.orderRank n (bayNumber o.bay) ≤ Config.orderRank n (bayNumber x.bay) then o :: x :: xs
    else x :: insertByRank n o xs

/-- The orders one change has placed for several bays, in the order the manual leaves open (notes/assumptions/7.md). -/
def freeOrder (n : Nat) (q : List Order) : List Order := q.foldr (insertByRank n) []

/-- A change that may place STOPs for several bays: those it placed stand at the tail in a free order. -/
def withFreeOrder (g : State → State) (s : State) : State :=
  let t := g s
  let kept := t.loop.orders.filter fun o => s.loop.orders.contains o
  let placed := t.loop.orders.filter fun o => !s.loop.orders.contains o
  if placed.length ≤ 1 then t
  else { setOrders (kept ++ freeOrder t.freeDraws placed) t with freeDraws := t.freeDraws + 1 }

/-! ## The feeder sums (R110) -/

/-- The states counted in the committed current. -/
def counted (st : DefrostState) : Bool :=
  match st with
  | .starting => true
  | .active => true
  | .stopping => true
  | .hung => true
  | .idle => false
  | .queued => false
  | .shed => false

/-- What a defrost record counts in a feeder's committed current. -/
def committedDraw (f : FeederIx) (d : Defrost) : Nat :=
  if d.charge = .feeder f ∧ counted d.state = true then d.draw else 0

/-- A bay the arbiter means to keep on its feeder: ACTIVE, or STARTING without shed-pending. -/
def admittedState (d : Defrost) : Bool :=
  match d.state with
  | .active => true
  | .starting => !d.shedPending
  | _ => false

/-- What a defrost record counts in a feeder's admitted current. -/
def admittedDraw (f : FeederIx) (d : Defrost) : Nat :=
  if d.charge = .feeder f ∧ admittedState d = true then d.draw else 0

/-- A feeder's committed current (R110). -/
def committed (s : State) (f : FeederIx) : Nat := (allBays.map fun b => committedDraw f (bayAt s b).defrost).sum

/-- A feeder's admitted current (R110). -/
def admitted (s : State) (f : FeederIx) : Nat := (allBays.map fun b => admittedDraw f (bayAt s b).defrost).sum

/-- Whether a defrost record is charged to a feeder and counted: its leaving lowers a committed current. -/
def countedOnFeeder (d : Defrost) : Bool :=
  (match d.charge with
    | .feeder _ => true
    | _ => false) && counted d.state

/-! ## Collections (R129) -/

/-- The bay leaves the active list. -/
def leaveActive (b : Bay) (s : State) : State :=
  { s with arb := { s.arb with active := s.arb.active.filter fun x => decide (x ≠ b) } }

/-- The bay is appended to the active list as its newest entry. -/
def joinActive (b : Bay) (s : State) : State := { s with arb := { s.arb with active := s.arb.active ++ [b] } }

/-- The bay's entry leaves the demand queue; the others keep their order and fields (R116). -/
def leaveQueue (b : Bay) (s : State) : State :=
  { s with arb := { s.arb with queue := s.arb.queue.filter fun q => decide (q.bay ≠ b) } }

/-- A shed stack without a bay's entry; the others keep their order (R143). -/
def stackWithout (b : Bay) (stack : List ShedEntry) : List ShedEntry := stack.filter fun e => decide (e.bay ≠ b)

/-- The bay's entry leaves the shed stack that holds it (R143). -/
def leaveStacks (b : Bay) (s : State) : State :=
  { s with arb := { s.arb with
      feeders := s.arb.feeders.map fun r => { r with stack := stackWithout b r.stack } } }

/-- The bay's entry on a shed stack, if any. -/
def stackEntry (s : State) (b : Bay) : Option ShedEntry :=
  (allFeeders.flatMap fun f => (feederAt s f).stack).find? fun e => decide (e.bay = b)

/-- Whether the bay stands on a shed stack. -/
def onStack (s : State) (b : Bay) : Bool := (stackEntry s b).isSome

/-- Whether the bay's entry in the demand queue has pass-over count 4 (R116). -/
def atBarrier (s : State) (b : Bay) : Bool :=
  s.arb.queue.any fun q => decide (q.bay = b) && decide (q.passOver = 4)

/-! ## Outcomes (R131) -/

/-- The outcome of each stop reason (R137). SHED has none of its own; like an unanswered STOP with no end recorded it
counts as UNCONFIRMED (R138), which only a state no run reaches can ask for. -/
def outcomeOf : StopReason → DefrostOutcome
  | .shed => .unconfirmed
  | .overflow => .abortedOverflow
  | .door => .abortedDoor
  | .depart => .abortedDepart
  | .hold => .abortedHold
  | .timeout => .timedOut
  | .withdraw => .withdrawn
  | .halt => .halted
  | .link => .abortedLink
  | .unconfirmed => .unconfirmed

/-- The outcomes that start a holdoff (R131). -/
def startsHoldoff : DefrostOutcome → Bool
  | .complete => true
  | .notNeeded => true
  | .timedOut => true
  | .withdrawn => true
  | _ => false

/-- The outcomes told to the check engine as a frost reset (R83, R131). -/
def resetsFrost : DefrostOutcome → Bool
  | .complete => true
  | .notNeeded => true
  | _ => false

/-- The outcomes that raise FROST (R131). -/
def raisesFrost : DefrostOutcome → Bool
  | .timedOut => true
  | .failed => true
  | _ => false

/-- The defrost record after an outcome (R131). -/
def endedDefrost (holdoff : Nat) (o : DefrostOutcome) (d : Defrost) : Defrost :=
  { d with state := .idle, reason := none, shedPending := false, outcome := some o,
           holdoff := if startsHoldoff o then holdoff else d.holdoff,
           count := if o = .complete then min (d.count + 1) 255 else d.count }

/-- The bay record after an outcome: the defrost record of R131 and, where told, the frost reset of R83. -/
def endedRecord (holdoff : Nat) (o : DefrostOutcome) (r : BayRecord) : BayRecord :=
  { r with defrost := endedDefrost holdoff o r.defrost,
           frost := if resetsFrost o then frostReset r.frost else r.frost }

/-- The bay leaves whatever collection held it (R131). -/
def leaveCollections (b : Bay) (s : State) : State := leaveStacks b (leaveQueue b (leaveActive b s))

/-- Whether ending the bay's business brings a trigger of R120: its draw leaves a committed current, its entry leaves a
shed stack (R143), or its entry with pass-over count 4 leaves the demand queue (R116). -/
def endTriggers (s : State) (b : Bay) : Bool :=
  countedOnFeeder (bayAt s b).defrost || onStack s b || atBarrier s b

/-- An episode or demand ends with an outcome (R131); a DEPARTING bay becomes VACANT (R9). -/
def endEpisode (b : Bay) (o : DefrostOutcome) (s : State) : State :=
  let trigger := endTriggers s b
  let s1 := leaveCollections b s
  let s2 := modBay b (endedRecord s.run.settings.holdoff o) s1
  let s3 := if raisesFrost o then raiseAlert .frost (bayElement b) s2 else s2
  let s4 := owePassIf trigger s3
  if (bayAt s4 b).occupancy = .departing then becomeVacant b s4 else s4

/-- The bay leaves the active list, becomes STOPPING with a reason, and a STOP is placed (R134, R135, R136). Shed-pending
is cleared as the bay leaves STARTING (R128). -/
def stopEpisode (b : Bay) (r : StopReason) (s : State) : State :=
  placeStop b (modDefrost b (fun d => { d with state := .stopping, reason := some r, shedPending := false })
    (leaveActive b s))

/-- A reason is recorded on the bay's shed-stack entry (R143). -/
def recordEnd (b : Bay) (r : StopReason) (s : State) : State :=
  { s with arb := { s.arb with
      feeders := s.arb.feeders.map fun x =>
        { x with stack := x.stack.map fun e => if e.bay = b then { e with ended := some r } else e } } }

/-- An event ends the bay's defrost business with a reason: the table of R145, also WITHDRAW's (R147). -/
def endBusiness (b : Bay) (r : StopReason) (s : State) : State :=
  match (bayAt s b).defrost.state with
  | .idle => s
  | .queued => endEpisode b (outcomeOf r) s
  | .starting =>
    if startUnsent s b then endEpisode b (outcomeOf r) (placeStop b s)
    else modDefrost b (fun d => { d with reason := some r }) s
  | .active => stopEpisode b r s
  | .stopping =>
    if onStack s b then recordEnd b r s
    else modDefrost b (fun d => { d with reason := some r }) s
  | .shed => endEpisode b (outcomeOf r) s
  | .hung => s

/-! ## Shedding (section 9.6) -/

/-- A push onto a feeder's shed stack, which has room; the seventh entry sets near-full and raises POWER (R142). -/
def pushShed (f : FeederIx) (b : Bay) (s : State) : State :=
  let r := feederAt s f
  let stack := ⟨b, none⟩ :: r.stack
  if stack.length = 7 then
    raiseAlert .power (bayElement b) (setFeeder f { r with stack := stack, nearFull := true } s)
  else setFeeder f { r with stack := stack } s

/-- A push that finds the stack full is not made: overflow is set and POWER raised (R142). -/
def refusePush (f : FeederIx) (b : Bay) (s : State) : State :=
  raiseAlert .power (bayElement b) (setFeeder f { feederAt s f with overflow := true } s)

/-- Whether a feeder's shed stack has room for a push (R142). -/
def stackHasRoom (s : State) (f : FeederIx) : Bool := decide ((feederAt s f).stack.length < 8)

/-- A shed of an ACTIVE bay, or of one whose TAKEN has just come (R134, R141). -/
def shedRunning (f : FeederIx) (b : Bay) (s : State) : State :=
  if stackHasRoom s f then stopEpisode b .shed (pushShed f b s)
  else stopEpisode b .overflow (refusePush f b s)

/-- A shed of a STARTING bay whose START is unsent (R135, R141). -/
def shedUnsent (f : FeederIx) (b : Bay) (s : State) : State :=
  if stackHasRoom s f then
    owePass (modDefrost b (fun d => { d with state := .shed, reason := none, shedPending := false })
      (pushShed f b (leaveActive b (placeStop b s))))
  else endEpisode b .abortedOverflow (refusePush f b (placeStop b s))

/-- A shed of a bay charged to a feeder (R141). -/
def shed (f : FeederIx) (b : Bay) (s : State) : State :=
  match (bayAt s b).defrost.state with
  | .starting =>
    if startUnsent s b then shedUnsent f b s
    else modDefrost b (fun d => { d with shedPending := true }) s
  | .active => shedRunning f b s
  | _ => s

/-- One step of the shedding walk (R112): nothing once the admitted current is within the budget. -/
def walkStep (f : FeederIx) (s : State) (b : Bay) : State :=
  let d := (bayAt s b).defrost
  if admitted s f ≤ (feederAt s f).budget then s
  else if d.charge = .feeder f ∧ admittedState d = true then shed f b s else s

/-- The shedding walk of a feeder, newest bay first (R112). -/
def shedWalk (f : FeederIx) (s : State) : State := s.arb.active.reverse.foldl (walkStep f) s

/-! ## The grant pass (section 8.4) -/

/-- A resume of the top entry of a feeder's stack, whose entries below it are `rest` (R121, R144). -/
def resumeTop (f : FeederIx) (b : Bay) (rest : List ShedEntry) (s : State) : State :=
  placeStart b true (joinActive b
    (modDefrost b (fun d => { d with state := .starting, reason := none, shedPending := false })
      (setFeeder f { feederAt s f with stack := rest } s)))

/-- The first step of the pass for one feeder: resume the top while it is SHED and fits (R121). -/
def resumeFeeder (f : FeederIx) : Nat → State → State
  | 0, s => s
  | n + 1, s =>
    match (feederAt s f).stack with
    | [] => s
    | top :: rest =>
      let d := (bayAt s top.bay).defrost
      if d.state = .shed ∧ committed s f + d.draw ≤ (feederAt s f).budget then
        resumeFeeder f n (resumeTop f top.bay rest s)
      else s

/-- The first step of the pass, feeders 1 to 4 in turn (R121). -/
def resumeAll (s : State) : State := allFeeders.foldl (fun s f => resumeFeeder f (feederAt s f).stack.length s) s

/-- The charge of a queue entry for this pass (R122); `none` waits. -/
def passCharge (r : BayRecord) : Charge :=
  match r.snapshot with
  | none => .none
  | some snap =>
    match snap.source with
    | .diesel => .self
    | .shore =>
      match r.feeder with
      | some f => .feeder f
      | none => .none

/-- A grant with the charge decided for it (R124). -/
def grant (b : Bay) (c : Charge) (s : State) : State :=
  let draw := (bayAt s b).draw
  placeStart b false (joinActive b
    (modDefrost b (fun d => { d with state := .starting, reason := none, charge := c, draw := draw,
                                     shedPending := false, elapsed := 0 }) s))

/-- Where the walk of the queue stands: the state, the entries kept so far, and the feeders with a barrier among them. -/
structure QueueWalk where
  state : State
  kept : List QueueEntry
  barriers : List FeederIx

/-- The entry waits with its fields as they are. -/
def keepEntry (w : QueueWalk) (q : QueueEntry) : QueueWalk := { w with kept := w.kept ++ [q] }

/-- The entry does not fit: its pass-over count rises, staying at 4, and at 4 it is a barrier for its feeder (R123). -/
def passOverEntry (w : QueueWalk) (f : FeederIx) (q : QueueEntry) : QueueWalk :=
  let n := min (q.passOver + 1) 4
  { w with kept := w.kept ++ [{ q with passOver := n }],
           barriers := if n = 4 then f :: w.barriers else w.barriers }

/-- One entry of the second step of the pass: the tests of R123 in order. -/
def walkEntry (w : QueueWalk) (q : QueueEntry) : QueueWalk :=
  let r := bayAt w.state q.bay
  match passCharge r with
  | .none => keepEntry w q
  | .self => if r.noDiesel then keepEntry w q else { w with state := grant q.bay .self w.state }
  | .feeder f =>
    if (feederAt w.state f).stack ≠ [] then keepEntry w q
    else if w.barriers.contains f then keepEntry w q
    else if committed w.state f + r.draw ≤ (feederAt w.state f).budget then
      { w with state := grant q.bay (.feeder f) w.state }
    else passOverEntry w f q

/-- The second step of the pass: the demand queue from the oldest entry to the newest (R122 to R124). -/
def grantQueue (s : State) : State :=
  let w := s.arb.queue.foldl walkEntry ⟨s, [], []⟩
  { w.state with arb := { w.state.arb with queue := w.kept } }

/-- The grant pass (R120). -/
def grantPass (s : State) : State := grantQueue (resumeAll s)

/-- The pass owed by the change, made in RUNNING only; a trigger elsewhere is not kept (R120). -/
def runPass (s : State) : State :=
  if s.passDue then
    let s1 : State := { s with passDue := false }
    if isRunning s1 then grantPass s1 else s1
  else s

/-! ## Rounds and the loop arbiter (sections 3.3 and 3.6) -/

/-- The lowest-numbered polled bay whose number is above a position (R42). -/
def nextPoll (s : State) (position : Nat) : Option Bay :=
  allBays.find? fun b => decide (position < bayNumber b) && polled (bayAt s b).occupancy

/-- The poll a round has left, if a round is in progress and has one (R52). -/
def pollLeft (s : State) : Option Bay :=
  match s.loop.round with
  | none => none
  | some p => nextPoll s p

/-- A poll of the round is in flight: the position is set to the bay of each poll as it begins (R42, R43). -/
def roundPollInFlight (s : State) (position : Nat) : Bool :=
  match s.loop.exchange with
  | none => false
  | some x => decide (x.kind = .poll) && inFlight x && decide (bayNumber x.bay = position)

/-- A round ends once no polled bay is above its position and none of its polls is in flight (R43). -/
def endRound (s : State) : State :=
  match s.loop.round with
  | none => s
  | some p =>
    if (nextPoll s p).isNone ∧ roundPollInFlight s p = false then { s with loop := { s.loop with round := none } }
    else s

/-- An exchange begins: LDE is asserted and the request frame is sent on LTX (R37). -/
def beginExchange (b : Bay) (k : ExchangeKind) (s : State) : State :=
  { s with loop := { s.loop with exchange := some ⟨b, k, .sending, false⟩, lde := true, ltx := requestFrame b k } }

/-- The head order is taken for the loop (R52). -/
def takeOrder (s : State) : State :=
  match s.loop.orders with
  | [] => s
  | o :: rest =>
    beginExchange o.bay (.order o.kind)
      { s with loop := { s.loop with orders := rest, orderRun := min (s.loop.orderRun + 1) 4 } }

/-- The next poll of the round is taken for the loop (R42, R52). -/
def takePoll (b : Bay) (s : State) : State :=
  beginExchange b .poll { s with loop := { s.loop with round := some (bayNumber b), orderRun := 0 } }

/-- The loop arbiter's choice when the loop is free (R52). -/
def serveLoop (s : State) : State :=
  match s.loop.exchange with
  | some _ => s
  | none =>
    match s.run.state with
    | .running =>
      match pollLeft s with
      | some b => if s.loop.orders ≠ [] ∧ s.loop.orderRun < 4 then takeOrder s else takePoll b s
      | none => takeOrder s
    | .halting => takeOrder s
    | .setup => s
    | .halted => s

/-- A round start falls due (R41): the poll period is reloaded; a round begins at position 0 (R42), or the start is
skipped while a round is in progress (R44). -/
def startRound (s : State) : State :=
  let reloaded : State := { s with loop := { s.loop with nextRound := some s.run.settings.pollPeriod } }
  match s.loop.round with
  | none => endRound { reloaded with loop := { reloaded.loop with round := some 0 } }
  | some _ =>
    raiseAlert .link yard
      { reloaded with loop := { reloaded.loop with overruns := min (reloaded.loop.overruns + 1) 65535 } }

/-! ## The end of a change -/

/-- Whether a defrost state is STARTING or STOPPING (R25). -/
def startingOrStopping (d : Defrost) : Bool :=
  match d.state with
  | .starting => true
  | .stopping => true
  | _ => false

/-- The two conditions of R25 under which HALTING ends. -/
def haltDone (s : State) : Bool :=
  s.loop.orders.isEmpty && decide (countBays (fun r => startingOrStopping r.defrost) s = 0)

/-- A bay's door watch loses its knowledge (R107). -/
def loseDoorOf (r : BayRecord) : BayRecord := { r with door := loseDoor r.door }

/-- The run state becomes HALTED when R25's test passes, and every door watch becomes UNKNOWN. -/
def haltTest (s : State) : State :=
  if s.run.state = .halting ∧ haltDone s = true then
    mapBays loseDoorOf { s with run := { s.run with state := .halted } }
  else s

/-- The end of a change that may have freed current, placed orders or emptied a collection: the pass owed (R120), the
round's end (R43), the loop arbiter's choice (R52), the test of R25. -/
def settle (s : State) : State := haltTest (serveLoop (endRound (runPass s)))

/-- A bay becomes LOST: LINK is raised, its door watch becomes UNKNOWN, its defrost business ends with reason LINK
(R35, R46). -/
def becomeLost (b : Bay) (s : State) : State :=
  endBusiness b .link (modBay b loseDoorOf (raiseAlert .link (bayElement b) s))

/-- A demand joins the queue (R117, R118). -/
def joinQueue (b : Bay) (o : Origin) (s : State) : State :=
  let entry : QueueEntry := ⟨b, o, s.run.yardMinute, 0⟩
  owePass (modDefrost b (fun d => { d with state := .queued, origin := some o })
    { s with arb := { s.arb with queue := s.arb.queue ++ [entry] } })

/-- An ACTIVE bay reaches Tmax (R132). -/
def timeoutBay (b : Bay) (s : State) : State := stopEpisode b .timeout s

/-- The condition of R132 for a timeout. -/
def timeoutDue (s : State) (b : Bay) : Bool :=
  decide ((bayAt s b).defrost.state = .active) && decide (s.run.settings.tmax ≤ (bayAt s b).defrost.elapsed)

end Sys2Proof.Machine
end

