-- ==== Sys2Proof/Machine/Replies.lean ====
section
/-! DEFINITION. The reply data of the reading requests and of TAKE ALERT: R20, R21, R30, R33, R126, R127, R130, R171, R173. -/

namespace Sys2Proof.Machine

/-- The ident field: 8 characters, or 8 bytes of 0x00 when absent (R171). -/
def identField (i : Option (List Byte)) : List Byte := i.getD (List.replicate 8 0)

/-- A two-byte field that may be absent, its bytes then 0 (R171). -/
def field16 (x : Option Nat) : List Byte := be16 (x.getD 0)

/-- A signed two-byte field that may be absent. -/
def field16Signed (x : Option Int) : List Byte := be16Signed (x.getD 0)

/-- The feeder field of bay data, 0 when unset. -/
def feederField (f : Option FeederIx) : Byte := byteOf ((f.map feederNumber).getD 0)

/-- The HOLD owner's slot, 0 when absent. -/
def ownerField (o : Option Station) : Byte := byteOf ((o.map slotNumber).getD 0)

/-- READ BAY, IDENT view: 24 bytes (R20, R173). -/
def identView (b : Bay) (r : BayRecord) : List Byte :=
  [byteOf (bayNumber b), byteOf (viewCode .ident), byteOf (occupancyCode r.occupancy)] ++ identField r.ident
    ++ [setByte r.arrival.isSome r.departure.isSome false false] ++ field16 r.arrival ++ be16 r.capacity
    ++ [feederField r.feeder, byteOf r.draw] ++ field16 r.departure ++ be16 r.permit
    ++ [setByte r.hold.isSome r.fuelOrdered r.noDiesel false, ownerField r.hold]

/-- The nine bytes of the snapshot in the TELEMETRY view, 0 when absent (R173). -/
def snapshotField (snap : Option Snapshot) : List Byte :=
  match snap with
  | none => List.replicate 9 0
  | some x =>
    [byteOf (modeCode x.mode), byteOf (sourceCode x.source), byteOf (doorReportCode x.door)]
      ++ be16Half x.tc ++ be16Half x.tr ++ be16Half x.p

/-- READ BAY, TELEMETRY view: 16 bytes (R20, R48, R173). -/
def telemetryView (b : Bay) (r : BayRecord) : List Byte :=
  [byteOf (bayNumber b), byteOf (viewCode .telemetry), byteOf (linkCode r.link), byteOf r.missCount,
   byteOf (exchangeOutcomeCode r.lastExchange), byteOf r.roundsSince, setByte r.snapshot.isSome false false false]
    ++ snapshotField r.snapshot

/-- The agree count that goes with a pending report (R99). -/
def agreeCount (p : Option DoorPos) : Nat := if p.isSome then 1 else 0

/-- READ BAY, CHECKS view: 37 bytes (R21, R173). -/
def checksView (b : Bay) (r : BayRecord) : List Byte :=
  [byteOf (bayNumber b), byteOf (viewCode .checks), condsByte r.causes, condsByte r.sticky,
   setByte r.frost.s.isSome r.frost.b.isSome r.fuel.v.isSome r.fuel.vref.isSome]
    ++ field16Signed r.frost.s ++ field16Signed r.frost.b ++ [byteOf r.frost.k] ++ be16 r.frost.f
    ++ field16 r.fuel.v ++ field16 r.fuel.vref ++ be16 r.fuel.w ++ be16 r.fuel.r ++ be16 r.fuel.e
    ++ [setByte r.fuel.low r.fuel.short false false, byteOf r.fuel.refuels, byteOf (doorStateCode r.door.confirmed),
        byteOf (pendingCode r.door.pending), byteOf (agreeCount r.door.pending)]
    ++ be16 r.door.openSeconds ++ be16 r.door.lastOpen ++ [byteOf r.door.openings] ++ be32 r.door.totalOpen
    ++ [flagByte r.door.alertGiven]

/-- READ BAY, DEFROST view: 12 bytes (R21, R173). -/
def defrostView (b : Bay) (r : BayRecord) : List Byte :=
  let d := r.defrost
  [byteOf (bayNumber b), byteOf (viewCode .defrost), byteOf (defrostStateCode d.state), byteOf (stopReasonCode d.reason),
   byteOf (chargeCode d.charge), byteOf d.draw, flagByte d.shedPending, byteOf d.elapsed, byteOf d.holdoff,
   byteOf (originCode d.origin), byteOf (outcomeCode d.outcome), byteOf d.count]

/-- The reply data of READ BAY (R20, R21). -/
def bayView (v : View) (b : Bay) (r : BayRecord) : List Byte :=
  match v with
  | .ident => identView b r
  | .telemetry => telemetryView b r
  | .checks => checksView b r
  | .defrost => defrostView b r

/-- One shed-stack entry of READ FEEDER: bay, state, captured draw (R126, R173). -/
def shedEntryBytes (s : State) (e : ShedEntry) : List Byte :=
  let d := (bayAt s e.bay).defrost
  [byteOf (bayNumber e.bay), byteOf (if d.state = .shed then 0 else 1), byteOf d.draw]

/-- The reply data of READ FEEDER, entries from the bottom of the stack to its top (R126, R173). -/
def feederView (s : State) (f : FeederIx) : List Byte :=
  let r := feederAt s f
  [byteOf (feederNumber f), byteOf r.budget] ++ be16 (committed s f) ++ [byteOf (admitted s f), byteOf r.stack.length,
   setByte r.nearFull r.overflow false false] ++ r.stack.reverse.flatMap (shedEntryBytes s)

/-- One entry of READ QUEUE (R127, R173). -/
def queueEntryBytes (q : QueueEntry) : List Byte :=
  [byteOf (bayNumber q.bay), byteOf (originCode (some q.origin))] ++ be16 q.joined ++ [byteOf q.passOver]

/-- The reply data of READ QUEUE from a first place, up to 12 entries (R127, R173). -/
def queueView (s : State) (first : Nat) : List Byte :=
  [byteOf s.arb.queue.length, byteOf first] ++ ((s.arb.queue.drop (first - 1)).take 12).flatMap queueEntryBytes

/-- One entry of READ ACTIVE (R130, R173). -/
def activeEntryBytes (s : State) (b : Bay) : List Byte :=
  let d := (bayAt s b).defrost
  [byteOf (bayNumber b), byteOf (defrostStateCode d.state), byteOf (chargeCode d.charge), byteOf d.draw,
   flagByte d.shedPending, byteOf d.elapsed]

/-- The reply data of READ ACTIVE from a first place, up to 10 entries (R130, R173). -/
def activeView (s : State) (first : Nat) : List Byte :=
  [byteOf s.arb.active.length, byteOf first] ++ ((s.arb.active.drop (first - 1)).take 10).flatMap (activeEntryBytes s)

/-- How many bays have an occupancy (R30). -/
def countOccupancy (o : Occupancy) (s : State) : Nat := countBays (fun r => decide (r.occupancy = o)) s

/-- The reply data of READ YARD: 14 bytes (R30, R173). -/
def yardView (s : State) : List Byte :=
  [byteOf (runStateCode s.run.state)] ++ be16 s.run.yardMinute ++ [byteOf s.run.second,
   byteOf (countOccupancy .vacant s), byteOf (countOccupancy .arriving s), byteOf (countOccupancy .parked s),
   byteOf (countOccupancy .departing s), byteOf (countOccupancy .outOfService s),
   byteOf (countBays (fun r => startingOrStopping r.defrost) s),
   byteOf (countBays (fun r => decide (r.defrost.state = .hung)) s), byteOf s.loop.orders.length]
    ++ be16 s.loop.overruns

/-- The value of a setting by its id, as READ SETTING sends it; none outside 1..15 (R33, R172). -/
def settingValue (g : Settings) (id : Nat) : Option Nat :=
  match id with
  | 1 => some g.pollPeriod
  | 2 => some g.lossLimit
  | 3 => some g.alpha
  | 4 => some g.deadBand
  | 5 => some g.frostGain
  | 6 => some g.doorGain
  | 7 => some g.meltGain
  | 8 => some g.demandThreshold
  | 9 => some g.tmax
  | 10 => some g.holdoff
  | 11 => some g.doorLimit
  | 12 => some g.fuelMargin
  | 13 => some g.lowFuel
  | 14 => some (match g.nesting with
      | .nested => 0
      | .flat => 1)
  | 15 => some (condsByte g.enables).toNat
  | _ => none

/-- Byte i of an element set: element e is bit e mod 8 of byte e div 8 (R173). -/
def elementByte (set : List Element) (i : Nat) : Byte :=
  byteOf ((set.filter fun e => decide (e.val / 8 = i)).map fun e => 2 ^ (e.val % 8)).sum

/-- The six bytes of an element set (R173). -/
def elementBytes (set : List Element) : List Byte := (List.range 6).map (elementByte set)

/-- The reply data of TAKE ALERT: category and set, or NONE and the empty set (R155, R173). -/
def takenView (e : Option ServiceEntry) : List Byte :=
  match e with
  | some x => byteOf (categoryNumber x.category) :: elementBytes x.set
  | none => 0 :: elementBytes []

end Sys2Proof.Machine
end

