-- ==== Sys2Proof/Machine/Port.lean ====
section
/-! DEFINITION. The cabinet port: addresses, the assembly of a write, the checks every request passes before its owning
block, and the reply buffers. Rules R162 to R173. -/

namespace Sys2Proof.Machine

/-! ## Request kinds (R169, R172) -/

/-- The request kinds of the kind table. -/
inductive RequestKind where
  | readBay | readFeeder | readQueue | readActive | readYard | readSetting
  | arrive | depart | setDeparture | setBayData | closeBay | openBay | mark
  | defrostNow | withdraw | feederBudgetSingle | feederBudgetAll | forceRelease | doorPermit
  | clearFlagsBay | clearFlagsFeeder | takeAlert | releaseAlert | alertMask
  | beginRounds | haltRounds | setSetting
deriving DecidableEq, Repr

/-- Every request kind, in the order of the kind table. -/
def allKinds : List RequestKind :=
  [.readBay, .readFeeder, .readQueue, .readActive, .readYard, .readSetting, .arrive, .depart, .setDeparture, .setBayData,
   .closeBay, .openBay, .mark, .defrostNow, .withdraw, .feederBudgetSingle, .feederBudgetAll, .forceRelease, .doorPermit,
   .clearFlagsBay, .clearFlagsFeeder, .takeAlert, .releaseAlert, .alertMask, .beginRounds, .haltRounds, .setSetting]

/-- Kind code (R172). -/
def kindCode : RequestKind → Byte
  | .readBay => 0x01
  | .readFeeder => 0x02
  | .readQueue => 0x03
  | .readActive => 0x04
  | .readYard => 0x05
  | .readSetting => 0x06
  | .arrive => 0x10
  | .depart => 0x11
  | .setDeparture => 0x12
  | .setBayData => 0x13
  | .closeBay => 0x14
  | .openBay => 0x15
  | .mark => 0x16
  | .defrostNow => 0x20
  | .withdraw => 0x21
  | .feederBudgetSingle => 0x22
  | .feederBudgetAll => 0x23
  | .forceRelease => 0x24
  | .doorPermit => 0x25
  | .clearFlagsBay => 0x26
  | .clearFlagsFeeder => 0x27
  | .takeAlert => 0x30
  | .releaseAlert => 0x31
  | .alertMask => 0x32
  | .beginRounds => 0x40
  | .haltRounds => 0x41
  | .setSetting => 0x42

/-- The kind a kind byte names, none for an unknown one (R168). -/
def kindOfByte (x : Byte) : Option RequestKind := allKinds.find? fun k => decide (kindCode k = x)

/-- Argument bytes of a kind (R172). -/
def argCount : RequestKind → Nat
  | .readBay => 2
  | .readFeeder => 1
  | .readQueue => 1
  | .readActive => 1
  | .readYard => 0
  | .readSetting => 1
  | .arrive => 13
  | .depart => 1
  | .setDeparture => 3
  | .setBayData => 5
  | .closeBay => 1
  | .openBay => 1
  | .mark => 3
  | .defrostNow => 1
  | .withdraw => 1
  | .feederBudgetSingle => 3
  | .feederBudgetAll => 8
  | .forceRelease => 1
  | .doorPermit => 3
  | .clearFlagsBay => 1
  | .clearFlagsFeeder => 1
  | .takeAlert => 0
  | .releaseAlert => 1
  | .alertMask => 1
  | .beginRounds => 0
  | .haltRounds => 0
  | .setSetting => 3

/-- The slots permitted for a kind (R169). -/
def permittedSlots : RequestKind → List Station
  | .readBay => allStations
  | .readFeeder => allStations
  | .readQueue => allStations
  | .readActive => allStations
  | .readYard => allStations
  | .readSetting => allStations
  | .arrive => [.gate]
  | .depart => [.gate]
  | .setDeparture => [.office, .gate]
  | .setBayData => [.office]
  | .closeBay => [.service]
  | .openBay => [.service]
  | .mark => [.office, .gate, .service]
  | .defrostNow => [.office, .service]
  | .withdraw => [.office, .service]
  | .doorPermit => [.office, .service]
  | .clearFlagsBay => [.office, .service]
  | .clearFlagsFeeder => [.feeder]
  | .feederBudgetSingle => [.feeder]
  | .feederBudgetAll => [.feeder]
  | .forceRelease => [.feeder]
  | .takeAlert => allStations
  | .releaseAlert => allStations
  | .alertMask => allStations
  | .beginRounds => [.office]
  | .haltRounds => [.office]
  | .setSetting => [.office]

/-- Whether a slot passes the port's permission check for a kind (R169). -/
def permitted (k : RequestKind) (st : Station) : Bool := (permittedSlots k).contains st

/-! ## Reply buffers (R165 to R167) -/

/-- A station's slot. -/
def slotAt (s : State) (st : Station) : Slot := s.port.slots[(stationIx st).val]

/-- Replace a station's slot. -/
def setSlot (st : Station) (x : Slot) (s : State) : State :=
  { s with port := { s.port with slots := s.port.slots.set (stationIx st).val x } }

/-- A request is taken from a station's address (R163): its silence count becomes 0 (R159) and its request is in progress. The
assembly is not touched: its own write was emptied when it closed (`closeWrite`), and a write opened
since goes on (R165). -/
def receiveRequest (st : Station) (s : State) : State :=
  let s1 := setSlot st { slotAt s st with inProgress := true } s
  { s1 with alert := hearStation st s1.alert }

/-- The reply as held in the buffer: only DONE carries reply data (R168). -/
def heldReply (r : Reply) : Reply :=
  match r.code with
  | .done => r
  | c => ⟨c, []⟩

/-- The reply is written and the request is no longer in progress (R165). -/
def writeReply (st : Station) (r : Reply) (s : State) : State := setSlot st ⟨false, heldReply r⟩ s

/-- A reply without data. -/
def plain (c : ResultCode) : Reply := ⟨c, []⟩

/-- DONE, or CLAMPED when a value was clamped (R168). -/
def doneOr (clamped : Bool) : Reply := plain (if clamped then .clamped else .done)

/-- The bytes of a read at a station's address (R166): result code, length, data, then 0xFF filler. -/
def replyByte (s : State) (st : Station) (i : Nat) : Byte :=
  let r := (slotAt s st).reply
  (resultByte r.code :: byteOf r.data.length :: r.data).getD i 0xFF

/-! ## Taking a request (R168) -/

/-- The longest write that makes a request, in argument bytes: 32 bytes with the kind byte (R163). -/
def maxArgs : Nat := 31

/-- A request of a known kind is taken from a station: the checks of R168 in order, then the owning block's answer. -/
def takeRequest (st : Station) (k : RequestKind) (args : List Byte) (owner : State → Reply × State) (s : State) : State :=
  let s1 := receiveRequest st s
  if maxArgs < args.length then writeReply st (plain .overlong) s1
  else if permitted k st = false then writeReply st (plain .refusedRole) s1
  else if args.length ≠ argCount k then writeReply st (plain .badLength) s1
  else
    let (r, s2) := owner s1
    writeReply st r s2

/-- A refusal by the owning block: nothing in the part changes. -/
def refuse (c : ResultCode) (s : State) : Reply × State := (plain c, s)

/-- An owning block's answer for the bay a byte names; BAD-ARGUMENT outside 1..40. -/
def withBay (x : Byte) (g : Bay → State → Reply × State) (s : State) : Reply × State :=
  match bayOfByte x with
  | some b => g b s
  | none => refuse .badArgument s

/-- An owning block's answer for the feeder a byte names; BAD-ARGUMENT outside 1..4. -/
def withFeeder (x : Byte) (g : FeederIx → State → Reply × State) (s : State) : Reply × State :=
  match feederOfByte x with
  | some f => g f s
  | none => refuse .badArgument s

/-- An owning block's answer to arguments of another number than its kind's, which check 4 of R168 has turned away. -/
def wrongCount (s : State) : Reply × State := refuse .badLength s

/-! ## The bus side (R162 to R165, R170) -/

/-- The base address (R162). -/
def baseAddress (s : State) : Nat := if s.port.addrHigh then 0x4C else 0x44

/-- The 7-bit address of a station's slot: the base address plus slot number minus 1 (R162). -/
def stationAddress (s : State) (st : Station) : Nat := baseAddress s + slotNumber st - 1

/-- The station an address belongs to (R162). -/
def addressStation (s : State) (a : Nat) : Option Station := allStations.find? fun st => decide (stationAddress s st = a)

/-- Whether the port acknowledges an address (R162): its four addresses both ways, the general call for writes only. -/
def acknowledges (s : State) (a : Nat) (isRead : Bool) : Bool := (addressStation s a).isSome || (decide (a = 0) && !isRead)

/-- Whether the port holds SCL low after acknowledging a station's address: while that station's request is in progress
(R165). -/
def stretchesClock (s : State) (st : Station) : Bool := (slotAt s st).inProgress

/-- A write opens at an address the port acknowledges (R163). -/
def openWrite (a : Nat) (s : State) : State :=
  if acknowledges s a false then { s with port := { s.port with assembly := some ⟨a, [], false⟩ } } else s

/-- A data byte of the write in progress, with the port's acknowledge (R163, R164): the thirty-third and later ones are
left unacknowledged. -/
def writeByte (x : Byte) (s : State) : Bool × State :=
  match s.port.assembly with
  | none => (false, s)
  | some w =>
    if w.bytes.length < 32 then
      (true, { s with port := { s.port with assembly := some { w with bytes := w.bytes ++ [x] } } })
    else (false, { s with port := { s.port with assembly := some { w with overlong := true } } })

/-- The row of MARK that a write's arguments spell: by their operation byte; a missing or unknown one falls to MARK_SET,
whose checks answer it. -/
def markCommand (st : Station) (args : List Byte) : Instr :=
  match (args[1]?).bind markOpOfByte with
  | some .clear => .markClear st args
  | some .testSet => .markTestSet st args
  | some .testClear => .markTestClear st args
  | _ => .markSet st args

/-- The command of a request kind (spec/opcode_table.json). -/
def commandOfKind (k : RequestKind) (st : Station) (args : List Byte) : Instr :=
  match k with
  | .readBay => .readBay st args
  | .readFeeder => .readFeeder st args
  | .readQueue => .readQueue st args
  | .readActive => .readActive st args
  | .readYard => .readYard st args
  | .readSetting => .readSetting st args
  | .arrive => .arrive st args
  | .depart => .depart st args
  | .setDeparture => .setDeparture st args
  | .setBayData => .setBayData st args
  | .closeBay => .closeBay st args
  | .openBay => .openBay st args
  | .mark => markCommand st args
  | .defrostNow => .defrostNow st args
  | .withdraw => .withdraw st args
  | .feederBudgetSingle => .feederBudgetSingle st args
  | .feederBudgetAll => .feederBudgetAll st args
  | .forceRelease => .forceRelease st args
  | .doorPermit => .doorPermit st args
  | .clearFlagsBay => .clearFlagsBay st args
  | .clearFlagsFeeder => .clearFlagsFeeder st args
  | .takeAlert => .takeAlert st args
  | .releaseAlert => .releaseAlert st args
  | .alertMask => .alertMask st args
  | .beginRounds => .beginRounds st args
  | .haltRounds => .haltRounds st args
  | .setSetting => .setSetting st args

/-- The command a closed station write makes (R163, R164, R168): none for a write with no data byte. -/
def commandOfWrite (st : Station) (bytes : List Byte) : Option Instr :=
  match bytes with
  | [] => none
  | kind :: args =>
    if maxArgs < args.length then some (.overlong st (kind :: args))
    else
      match kindOfByte kind with
      | some k => some (commandOfKind k st args)
      | none => some (.unknownKind st kind args)

/-- The bytes of the station write that makes a command, none for a command that no station write makes. -/
def writeOfCommand (i : Instr) : Option (Station × List Byte) :=
  match i with
  | .readBay st args => some (st, kindCode .readBay :: args)
  | .readFeeder st args => some (st, kindCode .readFeeder :: args)
  | .readQueue st args => some (st, kindCode .readQueue :: args)
  | .readActive st args => some (st, kindCode .readActive :: args)
  | .readYard st args => some (st, kindCode .readYard :: args)
  | .readSetting st args => some (st, kindCode .readSetting :: args)
  | .arrive st args => some (st, kindCode .arrive :: args)
  | .depart st args => some (st, kindCode .depart :: args)
  | .setDeparture st args => some (st, kindCode .setDeparture :: args)
  | .setBayData st args => some (st, kindCode .setBayData :: args)
  | .closeBay st args => some (st, kindCode .closeBay :: args)
  | .openBay st args => some (st, kindCode .openBay :: args)
  | .markSet st args => some (st, kindCode .mark :: args)
  | .markTestSet st args => some (st, kindCode .mark :: args)
  | .markClear st args => some (st, kindCode .mark :: args)
  | .markTestClear st args => some (st, kindCode .mark :: args)
  | .defrostNow st args => some (st, kindCode .defrostNow :: args)
  | .withdraw st args => some (st, kindCode .withdraw :: args)
  | .feederBudgetSingle st args => some (st, kindCode .feederBudgetSingle :: args)
  | .feederBudgetAll st args => some (st, kindCode .feederBudgetAll :: args)
  | .forceRelease st args => some (st, kindCode .forceRelease :: args)
  | .doorPermit st args => some (st, kindCode .doorPermit :: args)
  | .clearFlagsBay st args => some (st, kindCode .clearFlagsBay :: args)
  | .clearFlagsFeeder st args => some (st, kindCode .clearFlagsFeeder :: args)
  | .takeAlert st args => some (st, kindCode .takeAlert :: args)
  | .releaseAlert st args => some (st, kindCode .releaseAlert :: args)
  | .alertMask st args => some (st, kindCode .alertMask :: args)
  | .beginRounds st args => some (st, kindCode .beginRounds :: args)
  | .haltRounds st args => some (st, kindCode .haltRounds :: args)
  | .setSetting st args => some (st, kindCode .setSetting :: args)
  | .unknownKind st kind args => some (st, kind :: args)
  | .overlong st bytes => some (st, bytes)
  | .reset _ => none
  | .secondsTick => none
  | .minuteTick => none
  | .doorLimitReached _ => none
  | .permitEnd _ => none
  | .holdoffEnd _ => none
  | .timeout _ => none
  | .silenceRelease _ => none
  | .roundStart => none
  | .idleGapEnd => none
  | .replyWindowOpen => none
  | .replyFrameComplete _ => none
  | .wrongKindByte _ => none
  | .replyWindowClose => none
  | .haltedEntry => none
  | .generalCallWrite _ => none

/-- The closing of the write in progress by a stop or repeated start (R163, R164, R170): the assembly is emptied and the
command it makes, if any, is answered. `whole` is false when the closing falls in the middle of a byte, and the write is
then discarded (R163), one already past 32 bytes too, without the OVERLONG of R164 (DESIGN CHOICE, notes/assumptions/14.md). A
write that ran past 32 bytes is closed as one of 33. -/
def closeWrite (whole : Bool) (s : State) : Option Instr × State :=
  let s1 : State := { s with port := { s.port with assembly := none } }
  match s.port.assembly with
  | none => (none, s1)
  | some w =>
    let bytes := if w.overlong then w.bytes ++ [0] else w.bytes
    if whole = false ∨ bytes = [] then (none, s1)
    else
      match addressStation s w.address with
      | some st => (commandOfWrite st bytes, s1)
      | none => (some (.generalCallWrite bytes), s1)

end Sys2Proof.Machine
end

