-- ==== Sys2Proof/Machine/Episodes.lean ====
section
/-! DEFINITION. What the arbiter makes of order outcomes and of answered polls: spec/09_defrost_episodes_and_shedding.md. -/

namespace Sys2Proof.Machine

/-! ## Order outcomes -/

/-- TAKEN for a STARTING bay (R134): a written reason first, then shed-pending, else ACTIVE. -/
def startTaken (b : Bay) (s : State) : State :=
  let d := (bayAt s b).defrost
  match d.reason with
  | some r => stopEpisode b r s
  | none =>
    match d.shedPending, d.charge with
    | true, .feeder f => shedRunning f b s
    | _, _ => modDefrost b (fun d => { d with state := .active, shedPending := false }) s

/-- The outcome of a refused START (R134). -/
def refusalOutcome : AckResult → DefrostOutcome
  | .refusedWarm => .notNeeded
  | .refusedDoor => .abortedDoor
  | _ => .failed

/-- An answered START for a STARTING bay (R134). -/
def startAnswered (b : Bay) (r : AckResult) (s : State) : State :=
  match r with
  | .taken => startTaken b s
  | _ => endEpisode b (refusalOutcome r) s

/-- An unanswered START for a STARTING bay (R135): written reason and shed-pending are dropped. -/
def startUnanswered (b : Bay) (s : State) : State := stopEpisode b .unconfirmed s

/-- STOPPED for a STOPPING bay (R137). A bay stopping on a stack becomes SHED, or ends with the end recorded on its entry;
any other ends with the outcome of its stop reason. -/
def stopAnswered (b : Bay) (s : State) : State :=
  match (bayAt s b).defrost.reason with
  | some .shed =>
    match (stackEntry s b).bind (·.ended) with
    | some r => endEpisode b (outcomeOf r) s
    | none => owePass (modDefrost b (fun d => { d with state := .shed, reason := none }) s)
  | some r => endEpisode b (outcomeOf r) s
  | none => s

/-- The stop reason a bay keeps when its STOP goes unanswered (R138). -/
def hungReason (s : State) (b : Bay) : Option StopReason :=
  match (bayAt s b).defrost.reason with
  | some .shed => some (((stackEntry s b).bind (·.ended)).getD .unconfirmed)
  | r => r

/-- A HUNG bay departs (R139): its draw leaves the committed current and the record is emptied. -/
def departHung (b : Bay) (s : State) : State :=
  becomeVacant b (owePassIf (countedOnFeeder (bayAt s b).defrost) s)

/-- An unanswered STOP for a STOPPING bay (R138). -/
def stopUnanswered (b : Bay) (s : State) : State :=
  let reason := hungReason s b
  let s1 := owePassIf (onStack s b) (leaveStacks b s)
  let s2 := raiseAlert .power (bayElement b) (modDefrost b (fun d => { d with state := .hung, reason := reason }) s1)
  if (bayAt s2 b).occupancy = .departing then departHung b s2 else s2

/-- The outcome of an order exchange as told to the arbiter (R51); none is 'unanswered'. -/
def orderOutcome (b : Bay) (o : OrderKind) (r : Option AckResult) (s : State) : State :=
  match o, (bayAt s b).defrost.state, r with
  | .start _, .starting, some a => startAnswered b a s
  | .start _, .starting, none => startUnanswered b s
  | .stop, .stopping, some _ => stopAnswered b s
  | .stop, .stopping, none => stopUnanswered b s
  | _, _, _ => s

/-! ## Answered polls -/

/-- The mode of an answered poll, for an ACTIVE bay (R136) and for a HUNG one (R139). -/
def modeStep (b : Bay) (m : Mode) (s : State) : State :=
  match (bayAt s b).defrost.state, m with
  | .active, .defrost => s
  | .active, .fault => endEpisode b .failed s
  | .active, _ => endEpisode b .complete s
  | .hung, .defrost => s
  | .hung, _ =>
    match (bayAt s b).defrost.reason with
    | some r => endEpisode b (outcomeOf r) s
    | none => s
  | _, _ => s

/-- The states whose charge follows the run source: STARTING, ACTIVE, HUNG, and STOPPING off the shed stacks (R148). -/
def chargeFollows (s : State) (b : Bay) : Bool :=
  match (bayAt s b).defrost.state with
  | .starting => true
  | .active => true
  | .hung => true
  | .stopping => !onStack s b
  | _ => false

/-- The charge becomes SELF: the draw leaves the feeder's committed current and shed-pending is cleared (R148). -/
def chargeToSelf (b : Bay) (s : State) : State :=
  owePassIf (countedOnFeeder (bayAt s b).defrost)
    (modDefrost b (fun d => { d with charge := .self, shedPending := false }) s)

/-- A SELF charge moves to a feeder (R148): a starting or running bay that does not fit is then shed. -/
def chargeToFeeder (b : Bay) (f : FeederIx) (s : State) : State :=
  let d := (bayAt s b).defrost
  let fits := decide (committed s f + d.draw ≤ (feederAt s f).budget)
  let s1 := modDefrost b (fun d => { d with charge := .feeder f }) s
  match d.state with
  | .starting => if fits then s1 else shed f b s1
  | .active => if fits then s1 else shed f b s1
  | _ => s1

/-- The run source of an answered poll against the bay's charge (R148). -/
def sourceStep (b : Bay) (src : Source) (s : State) : State :=
  if chargeFollows s b then
    match src, (bayAt s b).defrost.charge with
    | .diesel, .feeder _ => chargeToSelf b s
    | .shore, .self =>
      match (bayAt s b).feeder with
      | some f => chargeToFeeder b f s
      | none => s
    | _, _ => s
  else s

end Sys2Proof.Machine
end

