-- ==== Sys2Proof/Machine/Check.lean ====
section
/-! DEFINITION. The check of one bay: spec/04_check_arithmetic_and_conditions.md sections 4.1 and 4.2, with the stages'
notices and the demand test (R82). -/

namespace Sys2Proof.Machine

/-- The marker of a temperature that is not a reading (R171). -/
def narTemperature : Half := 0x8000

/-- The marker of a fuel level that is not a reading (R171). -/
def narLevel : Half := 0xFFFF

/-- A working temperature with its RANGE flag (R62); none is NAR. -/
def workingTemperature (h : Half) : Option Int × Bool :=
  if h = narTemperature then (none, false)
  else if h.toInt < -400 then (some (-400), true)
  else if 500 < h.toInt then (some 500, true)
  else (some h.toInt, false)

/-- A working fuel level with its RANGE flag (R62); none is NAR. -/
def workingLevel (h : Half) : Option Nat × Bool :=
  if h = narLevel then (none, false)
  else if 1000 < h.toNat then (some 1000, true)
  else (some h.toNat, false)

/-- The working inputs of a check (R62). -/
structure Working where
  tc : Option Int
  tr : Option Int
  level : Option Nat
  range : Bool
deriving DecidableEq, Repr

/-- The working inputs formed from a snapshot (R62). -/
def workingInputs (snap : Snapshot) : Working :=
  let c := workingTemperature snap.tc
  let r := workingTemperature snap.tr
  let p := workingLevel snap.p
  ⟨c.1, r.1, p.1, c.2 || r.2 || p.2⟩

/-- Conditions met are added to the bay's cause set (R68). -/
def addCauses (c : Conds) (r : BayRecord) : BayRecord := { r with causes := condsUnion r.causes c }

/-- Part 1: the cause set is emptied and RANGE added for a clamped input (R60, R62). -/
def checkInputs (b : Bay) (w : Working) (s : State) : State :=
  modBay b (fun r => { r with causes := condRange w.range }) s

/-- Part 2: the door stage, and 'door opened' taken by the arbiter (R60, R101). -/
def checkDoor (b : Bay) (report : DoorReport) (s : State) : State :=
  let res := doorStage report (bayAt s b).door
  let s1 := modBay b (fun r => addCauses (condInvalid res.invalid) { r with door := res.door }) s
  match res.notice with
  | .opened => endBusiness b .door s1
  | .closed => s1
  | .none => s1

/-- What the frost stage of this check reads (R72, R78). -/
def frostInput (s : State) (b : Bay) (m : Mode) (w : Working) : FrostInput :=
  let g := s.run.settings
  { mode := m, tc := w.tc, tr := w.tr, doorOpen := decide ((bayAt s b).door.confirmed = .opened), alpha := g.alpha,
    deadBand := g.deadBand, frostGain := g.frostGain, doorGain := g.doorGain, meltGain := g.meltGain }

/-- Part 3: the frost stage and its FROST raise (R60, R81). -/
def checkFrost (b : Bay) (m : Mode) (w : Working) (s : State) : State :=
  let before := (bayAt s b).frost
  let res := frostStage (frostInput s b m w) before
  let s1 := modBay b (fun r => addCauses res.causes { r with frost := res.frost }) s
  if frostRaised before res.frost then raiseAlert .frost (bayElement b) s1 else s1

/-- What the fuel stage of this check reads (R86). -/
def fuelInput (s : State) (b : Bay) (src : Source) (w : Working) : FuelInput :=
  let r := bayAt s b
  { level := w.level, capacity := r.capacity, source := src, departure := r.departure,
    margin := s.run.settings.fuelMargin, lowFuel := s.run.settings.lowFuel }

/-- Part 4: the fuel stage, the refuel notice that clears FUEL-ORDERED (R18, R90), and the FUEL raise (R96). -/
def checkFuel (b : Bay) (src : Source) (w : Working) (s : State) : State :=
  let before := (bayAt s b).fuel
  let res := fuelStage (fuelInput s b src w) before
  let s1 := modBay b (fun r => addCauses res.causes
    { r with fuel := res.fuel, fuelOrdered := r.fuelOrdered && !res.refuelled }) s
  if fuelTurned before res.fuel && !(bayAt s1 b).fuelOrdered then raiseAlert .fuel (bayElement b) s1 else s1

/-- The six conditions of the demand test (R82). -/
def demandTest (s : State) (b : Bay) : Bool :=
  let r := bayAt s b
  decide (s.run.settings.demandThreshold ≤ r.frost.f) && decide (r.defrost.state = .idle)
    && decide (r.defrost.holdoff = 0) && r.hold.isNone && decide (r.door.confirmed ≠ .opened)
    && decide (r.link = .ok)

/-- Part 5: the end of the check (R61, R69, R70, R82). -/
def checkEnd (b : Bay) (s : State) : State :=
  let s1 := modBay b (fun r => { r with sticky := condsUnion r.sticky r.causes }) s
  let s2 := if condsMeet (bayAt s1 b).causes s1.run.settings.enables then raiseAlert .check (bayElement b) s1 else s1
  if demandTest s2 b then joinQueue b .estimate s2 else s2

/-- A check of a bay on a reply's snapshot, its five parts in order (R58 to R61). -/
def check (b : Bay) (snap : Snapshot) (s : State) : State :=
  let w := workingInputs snap
  checkEnd b (checkFuel b snap.source w (checkFrost b snap.mode w (checkDoor b snap.door (checkInputs b w s))))

end Sys2Proof.Machine
end

