-- ==== Sys2Proof/Machine/Exchanges.lean ====
section
/-! DEFINITION. The end of an exchange and what it brings: spec/03_the_bay_loop.md sections 3.2 and 3.4. -/

namespace Sys2Proof.Machine

/-- The record changes of an answered poll (R45), an ARRIVING bay becoming PARKED (R6). -/
def answeredRecord (snap : Snapshot) (r : BayRecord) : BayRecord :=
  { r with snapshot := some snap, missCount := 0, link := .ok, roundsSince := 0, lastExchange := .answered,
           occupancy := if r.occupancy = .arriving then .parked else r.occupancy }

/-- An answered poll changes the snapshot run source of a QUEUED bay (R120). -/
def queuedSourceChanges (r : BayRecord) (snap : Snapshot) : Bool :=
  decide (r.defrost.state = .queued) && decide (r.snapshot.map (·.source) ≠ some snap.source)

/-- Whether an answered poll starts a check: the bay is PARKED and the run state RUNNING (R45, R58). -/
def startsCheck (s : State) (b : Bay) : Bool := decide ((bayAt s b).occupancy = .parked) && isRunning s

/-- A poll ends ANSWERED (R45): the record, then the arbiter's step, then the check. -/
def pollAnswered (b : Bay) (snap : Snapshot) (s : State) : State :=
  let s1 := owePassIf (queuedSourceChanges (bayAt s b) snap) (modBay b (answeredRecord snap) s)
  let s2 := sourceStep b snap.source (modeStep b snap.mode s1)
  if startsCheck s2 b then check b snap s2 else s2

/-- The record changes of a poll that was not answered (R46), for the loss limit in force. -/
def missedRecord (limit : Nat) (o : ExchangeOutcome) (r : BayRecord) : BayRecord :=
  let r1 := { r with lastExchange := o, roundsSince := min (r.roundsSince + 1) 255 }
  if r.link = .lost ∨ limit ≤ r.missCount + 1 then { r1 with missCount := limit, link := .lost }
  else { r1 with missCount := r.missCount + 1 }

/-- A poll ends NO-REPLY, BAD-CHECK or WRONG-REPLY (R46); a bay that reaches the loss limit becomes LOST. -/
def pollMissed (b : Bay) (o : ExchangeOutcome) (s : State) : State :=
  let before := bayAt s b
  let s1 := modBay b (missedRecord s.run.settings.lossLimit o) s
  if before.link ≠ .lost ∧ (bayAt s1 b).link = .lost then becomeLost b s1 else s1

/-- The last exchange outcome of a bay is written (R40). -/
def noteOutcome (b : Bay) (o : ExchangeOutcome) (s : State) : State := modBay b (fun r => { r with lastExchange := o }) s

/-- What an exchange brings when it ends with a judged reply, its bay not having been emptied meanwhile (R40, R51). -/
def exchangeResult (x : Exchange) (j : Judged) (s : State) : State :=
  match x.kind, j with
  | .poll, .telemetry snap => pollAnswered x.bay snap s
  | .poll, j => pollMissed x.bay (judgedOutcome j) s
  | .order o, .ack r => orderOutcome x.bay o (some r) (noteOutcome x.bay .answered s)
  | .order o, j => orderOutcome x.bay o none (noteOutcome x.bay (judgedOutcome j) s)

/-- The exchange in flight ends: its gap starts (R37), and unless it is voided its result is taken (R40). -/
def endExchange (x : Exchange) (j : Judged) (s : State) : State :=
  let s1 : State :=
    { s with loop := { s.loop with exchange := some { x with phase := .gap (gapAfter (judgedOutcome j)) } } }
  settle (if x.voided then s1 else exchangeResult x j s1)

/-- The exchange awaiting its reply, if there is one. -/
def awaitingReply (s : State) : Option Exchange :=
  match s.loop.exchange with
  | some x => if x.phase = .awaiting then some x else none
  | none => none

end Sys2Proof.Machine
end

