-- ==== Sys2Proof/Machine/Ticks.lean ====
section
/-! DEFINITION. The commands of RESET and of the timebase: RESET, SECONDS_TICK, MINUTE_TICK and the moments at which a count
reaches its limit. Rules R14, R22, R27, R28, R41, R92, R103 to R106, R132, R159, R160. An event whose occasion is not there
has not occurred: the state is unchanged (notes/assumptions/5.md). -/

namespace Sys2Proof.Machine

/-- A command's own next state. -/
abbrev Result := Host.Outcome State Fault Refusal

/-! ## RESET -/

/-- RESET: every block at its reset value, the base address taken from the strap (R22, R36, R162, R167). The waiting
commands are outside the part and stay (notes/assumptions/1.md). -/
def resetState (addrHigh : Bool) (s : State) : State :=
  { State.reset with
    port := { State.reset.port with addrHigh := addrHigh }, freeDraws := s.freeDraws, pending := s.pending }

/-- RESET (R22). -/
def execReset (addrHigh : Bool) (s : State) : Result := .next (resetState addrHigh s)

/-! ## SECONDS_TICK -/

/-- The second of the current minute advances; at the sixtieth it returns to 0 and the minute tick is issued, unless it has
been taken ahead of this tick (R27, R28). -/
def advanceSecond (s : State) : State :=
  if s.run.second + 1 < 60 then { s with run := { s.run with second := s.run.second + 1 } }
  else
    { s with run := { s.run with second := 0, minutePhase := if s.run.minutePhase = .early then .none else .issued } }

/-- The conditions of R103 under which an opening is timed. -/
def openingCounts (running : Bool) (r : BayRecord) : Bool :=
  running && decide (r.door.confirmed = .opened) && decide (r.link = .ok) && decide (r.occupancy = .parked)

/-- The counts of R103 at a seconds tick. -/
def countOpenings (s : State) : State :=
  let running := isRunning s
  mapBays (fun r => if openingCounts running r then { r with door := countOpen r.door } else r) s

/-- The conditions of R104 under which DOOR is raised at a seconds tick, and of R106 at a permit's end. -/
def doorDue (s : State) (b : Bay) : Bool :=
  let r := bayAt s b
  openingCounts (isRunning s) r && decide (s.run.settings.doorLimit ≤ r.door.openSeconds) && decide (r.permit = 0)
    && !r.door.alertGiven

/-- DOOR is raised for a bay and door-alert-given set (R104, R106). -/
def giveDoorAlert (b : Bay) (s : State) : State :=
  raiseAlert .door (bayElement b) (modBay b (fun r => { r with door := { r.door with alertGiven := true } }) s)

/-- The DOOR raise of R104 and R106 for one bay. -/
def doorTest (b : Bay) (s : State) : State := if doorDue s b then giveDoorAlert b s else s

/-! ## Moments (notes/assumptions/5.md) -/

/-- A holdoff's last minute is counted down to 0 (R132). -/
def endHoldoff (d : Defrost) : Defrost := { d with holdoff := if d.holdoff = 1 then 0 else d.holdoff }

/-- An ACTIVE bay that has reached Tmax times out (R132). -/
def timeoutTest (b : Bay) (s : State) : State := if timeoutDue s b then timeoutBay b s else s

/-- What a moment brings (R104, R106, R132). -/
def momentEffect (m : Moment) (s : State) : State :=
  match m with
  | .doorLimit b => doorTest b s
  | .permitEnd b => doorTest b s
  | .holdoffEnd b => modDefrost b endHoldoff s
  | .timeout b => timeoutTest b s

/-- A moment that stands open is taken, once; one that does not has not come. -/
def takeMoment (m : Moment) (s : State) : State :=
  if s.moments.contains m then { momentEffect m s with moments := s.moments.erase m } else s

/-- The moments that a change reaches stand open within it, and each is taken in turn. -/
def takeMoments (ms : List Moment) (s : State) : State :=
  ms.foldl (fun t m => takeMoment m t) { s with moments := ms ++ s.moments }

/-- The moments of one kind for the bays that have a property. -/
def momentsOf (m : Bay → Moment) (p : Bay → Bool) : List Moment := (allBays.filter p).map m

/-- The seconds to the next round start are decreased; at 0 the round start falls due (R41) and the loop arbiter makes its
choice (R52). -/
def countRound (s : State) : State :=
  match s.loop.nextRound with
  | none => s
  | some n =>
    if n ≤ 1 then serveLoop (startRound s) else { s with loop := { s.loop with nextRound := some (n - 1) } }

/-- A seconds tick taken whole (R27): the counts of R103, the moments at which an opening reaches the door limit (R104),
the round countdown (R41). -/
def takeSecond (s : State) : State :=
  let s1 := countOpenings (advanceSecond s)
  countRound (takeMoments (momentsOf .doorLimit (doorDue s1)) s1)

/-- DOOR_LIMIT_REACHED: open seconds have reached the door limit at a seconds tick (R104). -/
def execDoorLimitReached (b : Bay) (s : State) : Result := .next (takeMoment (.doorLimit b) s)

/-! ## MINUTE_TICK -/

/-- A minute tick is there to be taken (R28): the sixtieth seconds tick has issued it, or that seconds tick is the next one
and the minute tick that comes with it is taken first (notes/assumptions/4.md). -/
def minuteComes (s : State) : Bool :=
  match s.run.minutePhase with
  | .issued => true
  | .none => decide (s.run.second = 59)
  | .early => false

/-- The yard minute counter advances and returns from 65535 to 0; the minute tick is taken (R28). -/
def advanceMinute (s : State) : State :=
  { s with run := { s.run with
      yardMinute := (s.run.yardMinute + 1) % 65536,
      minutePhase := match s.run.minutePhase with
        | .issued => .none
        | _ => .early } }

/-- The conditions of R92 under which a minute counts into the fuel window. -/
def windowCounts (running : Bool) (r : BayRecord) : Bool :=
  running && decide (r.occupancy = .parked) && decide (r.link = .ok) &&
    (match r.snapshot with
      | none => false
      | some x => decide (x.source = .diesel) && (decide (x.mode = .cool) || decide (x.mode = .heat)
          || decide (x.mode = .defrost)))

/-- A bay's counts at a minute tick: both countdowns (R14), the fuel window (R92), the holdoff, whose last minute is left to
the moment of its end, and the elapsed ACTIVE minutes (R132). -/
def minuteOfBay (running : Bool) (r : BayRecord) : BayRecord :=
  { r with
    departure := r.departure.map (· - 1),
    permit := r.permit - 1,
    fuel := if windowCounts running r then { r.fuel with w := min (r.fuel.w + 1) 65535 } else r.fuel,
    defrost := { r.defrost with
      holdoff := if r.defrost.holdoff = 1 then 1 else r.defrost.holdoff - 1,
      elapsed := if r.defrost.state = .active then min (r.defrost.elapsed + 1) 90 else r.defrost.elapsed } }

/-- The counts of every bay at a minute tick. -/
def countMinutes (s : State) : State :=
  let running := isRunning s
  mapBays (minuteOfBay running) s

/-- The permits and holdoffs that a minute tick brings to their end (R106, R132). -/
def minuteEndings (s : State) : List Moment :=
  momentsOf .permitEnd (fun b => decide ((bayAt s b).permit = 1))
    ++ momentsOf .holdoffEnd (fun b => decide ((bayAt s b).defrost.holdoff = 1))

/-- The timeouts of a minute tick; the manual leaves the order of their STOPs open (notes/assumptions/7.md). The loop
arbiter then has a choice to make only if a STOP was placed (R52). -/
def minuteTimeouts (s : State) : State :=
  if allBays.any (timeoutDue s) then
    serveLoop (withFreeOrder (takeMoments (momentsOf .timeout (timeoutDue s))) s)
  else s

/-- The alert unit's part of a minute tick (R159, R160). -/
def countSilences (s : State) : State := { s with alert := alertMinute s.run.settings.nesting s.alert }

/-- A minute tick taken whole (R14, R28, R92, R106, R132, R159, R160). -/
def takeMinute (s : State) : State :=
  countSilences (minuteTimeouts (takeMoments (minuteEndings s) (countMinutes (advanceMinute s))))

/-- MINUTE_TICK: a minute tick that is there to be taken (R28). -/
def execMinuteTick (s : State) : Result := .next (if minuteComes s then takeMinute s else s)

/-- SECONDS_TICK (R27, R41, R103, R104). A minute tick that the tick before it issued and that is still waiting is taken
first: it came with that tick (R28, notes/assumptions/4.md). -/
def execSecondsTick (s : State) : Result :=
  .next (takeSecond (if s.run.minutePhase = .issued then takeMinute s else s))

/-- PERMIT_END: a permit countdown has reached 0 (R106). -/
def execPermitEnd (b : Bay) (s : State) : Result := .next (takeMoment (.permitEnd b) s)

/-- HOLDOFF_END: a holdoff's last minute is counted down at a minute tick (R132). -/
def execHoldoffEnd (b : Bay) (s : State) : Result := .next (takeMoment (.holdoffEnd b) s)

/-- TIMEOUT: an ACTIVE bay's elapsed minutes have reached Tmax at a minute tick (R132); the loop arbiter then has a choice to
make (R52). -/
def execTimeout (b : Bay) (s : State) : Result :=
  let t := takeMoment (.timeout b) s
  .next (if s.moments.contains (.timeout b) && timeoutDue s b then serveLoop t else t)

/-- SILENCE_RELEASE of a station (R160, R161). -/
def execSilenceRelease (st : Station) (s : State) : Result :=
  .next { s with alert := silenceReleaseIn s.run.settings.nesting st s.alert }

end Sys2Proof.Machine
end

