-- ==== Sys2Proof/Machine/BayRequests.lean ====
section
/-! DEFINITION. The requests the bay table and the check engine carry out: ARRIVE, DEPART, SET_DEPARTURE, SET_BAY_DATA,
CLOSE_BAY, OPEN_BAY, the four MARK rows, DOOR_PERMIT, CLEAR_FLAGS_BAY. Rules R4 to R19, R71, R105. -/

namespace Sys2Proof.Machine

/-- A value kept within an upper limit, with whether it was clamped. -/
def clampAbove (hi v : Nat) : Nat × Bool := if v ≤ hi then (v, false) else (hi, true)

/-- A value kept within a range, with whether it was clamped. -/
def clampWithin (lo hi v : Nat) : Nat × Bool :=
  if v < lo then (lo, true) else if v ≤ hi then (v, false) else (hi, true)

/-! ## ARRIVE -/

/-- The occupancies that hold an ident (R5). -/
def enrolled (o : Occupancy) : Bool := polled o

/-- Whether another bay that is not VACANT holds an ident (R4, R5). -/
def identHeldElsewhere (s : State) (b : Bay) (i : List Byte) : Bool :=
  allBays.any fun x => decide (x ≠ b) && decide ((bayAt s x).occupancy ≠ .vacant) && decide ((bayAt s x).ident = some i)

/-- The tank capacity stored for a given value, with whether it was clamped (R11). -/
def storedCapacity (v : Nat) : Nat × Bool := if v = 0 then (0, false) else clampWithin 20 600 v

/-- The departure countdown stored for a given value, with whether it was clamped (R4, R13). -/
def storedDeparture (v : Nat) : Nat × Bool := clampAbove 4095 v

/-- The record of an enrolled trailer (R4). -/
def arrivedRecord (i : List Byte) (minute : Nat) (capacity : Option Nat) (departure : Option Nat) (r : BayRecord) :
    BayRecord :=
  { r with occupancy := .arriving, ident := some i, arrival := some minute,
           capacity := (capacity.map fun v => (storedCapacity v).1).getD r.capacity,
           departure := (departure.map fun v => (storedDeparture v).1) }

/-- An accepted ARRIVE (R4); the bay joins the polled set, so the loop arbiter may have a choice to make (R42, R52). -/
def enrol (b : Bay) (i : List Byte) (capacity departure : Option Nat) (s : State) : Reply × State :=
  let clamped := ((capacity.map fun v => (storedCapacity v).2).getD false)
    || ((departure.map fun v => (storedDeparture v).2).getD false)
  (doneOr clamped, serveLoop (modBay b (arrivedRecord i s.run.yardMinute capacity departure) s))

/-- The bay table's answer to ARRIVE (R4). -/
def arriveOwner (args : List Byte) (s : State) : Reply × State :=
  match args with
  | [x, i0, i1, i2, i3, i4, i5, i6, i7, c1, c0, d1, d0] =>
    let i := [i0, i1, i2, i3, i4, i5, i6, i7]
    withBay x (fun b s =>
      if identOk i = false then refuse .badArgument s
      else if (bayAt s b).occupancy ≠ .vacant then refuse .refusedState s
      else if identHeldElsewhere s b i then refuse .refusedState s
      else enrol b i (optional16 c1 c0) (optional16 d1 d0) s) s
  | _ => wrongCount s

/-- ARRIVE (R4, R5). -/
def execArrive (st : Station) (args : List Byte) (s : State) : Result :=
  .next (takeRequest st .arrive args (arriveOwner args) s)

/-! ## DEPART -/

/-- A DEPART of an ARRIVING or PARKED bay, by its defrost state (R8). -/
def departBay (b : Bay) (s : State) : State :=
  match (bayAt s b).defrost.state with
  | .idle => becomeVacant b s
  | .hung => departHung b s
  | _ => endBusiness b .depart (modBay b (fun r => { r with occupancy := .departing }) s)

/-- The bay table's answer to DEPART (R8). -/
def departOwner (args : List Byte) (s : State) : Reply × State :=
  match args with
  | [x] =>
    withBay x (fun b s =>
      match (bayAt s b).occupancy with
      | .arriving => (plain .done, settle (departBay b s))
      | .parked => (plain .done, settle (departBay b s))
      | _ => refuse .refusedState s) s
  | _ => wrongCount s

/-- DEPART (R8, R9). -/
def execDepart (st : Station) (args : List Byte) (s : State) : Result :=
  .next (takeRequest st .depart args (departOwner args) s)

/-! ## SET_DEPARTURE, SET_BAY_DATA, CLOSE_BAY, OPEN_BAY -/

/-- The bay table's answer to SET DEPARTURE (R13). -/
def setDepartureOwner (args : List Byte) (s : State) : Reply × State :=
  match args with
  | [x, m1, m0] =>
    withBay x (fun b s =>
      if (bayAt s b).occupancy = .arriving ∨ (bayAt s b).occupancy = .parked then
        match optional16 m1 m0 with
        | none => (plain .done, modBay b (fun r => { r with departure := none }) s)
        | some v =>
          (doneOr (storedDeparture v).2, modBay b (fun r => { r with departure := some (storedDeparture v).1 }) s)
      else refuse .refusedState s) s
  | _ => wrongCount s

/-- SET_DEPARTURE (R13). -/
def execSetDeparture (st : Station) (args : List Byte) (s : State) : Result :=
  .next (takeRequest st .setDeparture args (setDepartureOwner args) s)

/-- The draw stored for a given value, with whether it was clamped (R11). -/
def storedDraw (v : Nat) : Nat × Bool := clampWithin 4 40 v

/-- An accepted SET BAY DATA (R11); for a QUEUED bay a grant pass follows (R120). -/
def storeBayData (b : Bay) (capacity : Nat) (f : Option FeederIx) (draw : Nat) (s : State) : Reply × State :=
  let s1 := modBay b (fun r => { r with capacity := (storedCapacity capacity).1, feeder := f, draw := (storedDraw draw).1 }) s
  (doneOr ((storedCapacity capacity).2 || (storedDraw draw).2),
    if (bayAt s b).defrost.state = .queued then settle (owePass s1) else s1)

/-- The bay table's answer to SET BAY DATA (R11). -/
def setBayDataOwner (args : List Byte) (s : State) : Reply × State :=
  match args with
  | [x, c1, c0, f, a] =>
    withBay x (fun b s =>
      match feederFieldOfByte f with
      | none => refuse .badArgument s
      | some feeder => storeBayData b (word16 c1 c0) feeder a.toNat s) s
  | _ => wrongCount s

/-- SET_BAY_DATA (R11, R12). -/
def execSetBayData (st : Station) (args : List Byte) (s : State) : Result :=
  .next (takeRequest st .setBayData args (setBayDataOwner args) s)

/-- The bay table's answer to CLOSE BAY (R10). -/
def closeBayOwner (args : List Byte) (s : State) : Reply × State :=
  match args with
  | [x] =>
    withBay x (fun b s =>
      if (bayAt s b).occupancy = .vacant then
        (plain .done, modBay b (fun r => { r with occupancy := .outOfService }) s)
      else refuse .refusedState s) s
  | _ => wrongCount s

/-- CLOSE_BAY (R10). -/
def execCloseBay (st : Station) (args : List Byte) (s : State) : Result :=
  .next (takeRequest st .closeBay args (closeBayOwner args) s)

/-- The bay table's answer to OPEN BAY (R3, R10). An OUT-OF-SERVICE bay holds no mark, so its emptying clears none and gives no
notice. -/
def openBayOwner (args : List Byte) (s : State) : Reply × State :=
  match args with
  | [x] =>
    withBay x (fun b s =>
      if (bayAt s b).occupancy = .outOfService then (plain .done, emptyRecord b s) else refuse .refusedState s) s
  | _ => wrongCount s

/-- OPEN_BAY (R3, R10). -/
def execOpenBay (st : Station) (args : List Byte) (s : State) : Result :=
  .next (takeRequest st .openBay args (openBayOwner args) s)

/-! ## MARK (section 1.5) -/

/-- The slots permitted for each mark (R15). -/
def markPermitted (m : Mark) (st : Station) : Bool :=
  match m with
  | .hold => [Station.office, .service].contains st
  | .fuelOrdered => [Station.office, .gate].contains st
  | .noDiesel => [Station.office].contains st

/-- Whether a mark is set on a bay. -/
def markValue (m : Mark) (r : BayRecord) : Bool :=
  match m with
  | .hold => r.hold.isSome
  | .fuelOrdered => r.fuelOrdered
  | .noDiesel => r.noDiesel

/-- A mark is set; the speaking station becomes HOLD's owner if HOLD was clear (R16). -/
def markOn (st : Station) (m : Mark) (r : BayRecord) : BayRecord :=
  match m with
  | .hold => { r with hold := some (r.hold.getD st) }
  | .fuelOrdered => { r with fuelOrdered := true }
  | .noDiesel => { r with noDiesel := true }

/-- A mark is cleared (R17). -/
def markOff (m : Mark) (r : BayRecord) : BayRecord :=
  match m with
  | .hold => { r with hold := none }
  | .fuelOrdered => { r with fuelOrdered := false }
  | .noDiesel => { r with noDiesel := false }

/-- The set of a mark with its notice: 'hold set' ends the bay's defrost business (R16, R18, R145). -/
def setMark (st : Station) (b : Bay) (m : Mark) (s : State) : State :=
  let s1 := modBay b (markOn st m) s
  if markValue m (bayAt s b) then s1
  else
    match m with
    | .hold => settle (endBusiness b .hold s1)
    | .fuelOrdered => s1
    | .noDiesel => s1

/-- The clear of a mark with its notice: NO-DIESEL-DEFROST cleared from set starts a grant pass (R17, R18, R120). -/
def clearMark (b : Bay) (m : Mark) (s : State) : State :=
  let s1 := modBay b (markOff m) s
  if markValue m (bayAt s b) then
    match m with
    | .noDiesel => settle (owePass s1)
    | .hold => s1
    | .fuelOrdered => s1
  else s1

/-- The owner test of R17: HOLD is set and the speaking station is not its owner. -/
def holdForeign (st : Station) (m : Mark) (r : BayRecord) : Bool :=
  match m, r.hold with
  | .hold, some owner => decide (owner ≠ st)
  | _, _ => false

/-- The reply of a TEST operation: the value the mark held before (R16, R173). -/
def previousValue (x : Bool) : Reply := ⟨.done, [byteOfBool x]⟩

/-- An accepted MARK operation (R16, R17). -/
def applyMark (op : MarkOp) (st : Station) (b : Bay) (m : Mark) (s : State) : Reply × State :=
  let was := markValue m (bayAt s b)
  match op with
  | .set => (plain .done, setMark st b m s)
  | .testSet => (previousValue was, setMark st b m s)
  | .clear => if holdForeign st m (bayAt s b) then refuse .refusedOwner s else (plain .done, clearMark b m s)
  | .testClear => if holdForeign st m (bayAt s b) then refuse .refusedOwner s else (previousValue was, clearMark b m s)

/-- The bay table's answer to MARK, checks in the order of R15; `op` is the operation of the row. -/
def markOwner (op : MarkOp) (st : Station) (args : List Byte) (s : State) : Reply × State :=
  match args with
  | [x, o, y] =>
    withBay x (fun b s =>
      match markOpOfByte o, markOfByte y with
      | some _, some m =>
        if markPermitted m st = false then refuse .refusedRole s
        else if (bayAt s b).occupancy = .vacant ∨ (bayAt s b).occupancy = .outOfService then refuse .refusedState s
        else applyMark op st b m s
      | _, _ => refuse .badArgument s) s
  | _ => wrongCount s

/-- Whether the arguments of a MARK write spell another row of the table: a known operation byte of another operation. -/
def otherMarkRow (op : MarkOp) (args : List Byte) : Bool :=
  match (args[1]?).bind markOpOfByte with
  | some o => decide (o ≠ op)
  | none => false

/-- The course of a MARK row; bytes that spell another row are not this command (notes/assumptions/5.md). -/
def takeMark (op : MarkOp) (st : Station) (args : List Byte) (s : State) : State :=
  if otherMarkRow op args then s else takeRequest st .mark args (markOwner op st args) s

/-- MARK_SET (R15, R16, R18). -/
def execMarkSet (st : Station) (args : List Byte) (s : State) : Result := .next (takeMark .set st args s)

/-- MARK_TEST_SET (R15, R16, R18). -/
def execMarkTestSet (st : Station) (args : List Byte) (s : State) : Result := .next (takeMark .testSet st args s)

/-- MARK_CLEAR (R15, R17, R18). -/
def execMarkClear (st : Station) (args : List Byte) (s : State) : Result := .next (takeMark .clear st args s)

/-- MARK_TEST_CLEAR (R15, R17, R18). -/
def execMarkTestClear (st : Station) (args : List Byte) (s : State) : Result := .next (takeMark .testClear st args s)

/-! ## DOOR_PERMIT and CLEAR_FLAGS_BAY -/

/-- An accepted DOOR PERMIT; brought to 0 from above 0 it ends at once, and R106 decides (R105). -/
def storePermit (b : Bay) (minutes : Nat) (s : State) : Reply × State :=
  let v := clampAbove 480 minutes
  let s1 := modBay b (fun r => { r with permit := v.1 }) s
  (doneOr v.2, if 0 < (bayAt s b).permit ∧ v.1 = 0 then takeMoments [.permitEnd b] s1 else s1)

/-- The bay table's answer to DOOR PERMIT (R105). -/
def doorPermitOwner (args : List Byte) (s : State) : Reply × State :=
  match args with
  | [x, m1, m0] =>
    withBay x (fun b s =>
      if (bayAt s b).occupancy = .vacant ∨ (bayAt s b).occupancy = .outOfService then refuse .refusedState s
      else storePermit b (word16 m1 m0) s) s
  | _ => wrongCount s

/-- DOOR_PERMIT (R105, R106). -/
def execDoorPermit (st : Station) (args : List Byte) (s : State) : Result :=
  .next (takeRequest st .doorPermit args (doorPermitOwner args) s)

/-- A bay's sticky flag set is emptied (R71). -/
def clearSticky (r : BayRecord) : BayRecord := { r with sticky := Conds.empty }

/-- The check engine's answer to CLEAR FLAGS in its bay forms, 0 for ALL (R71, R172). -/
def clearFlagsBayOwner (args : List Byte) (s : State) : Reply × State :=
  match args with
  | [x] =>
    if x.toNat = 0 then (plain .done, mapBays clearSticky s)
    else withBay x (fun b s => (plain .done, modBay b clearSticky s)) s
  | _ => wrongCount s

/-- CLEAR_FLAGS_BAY (R71). -/
def execClearFlagsBay (st : Station) (args : List Byte) (s : State) : Result :=
  .next (takeRequest st .clearFlagsBay args (clearFlagsBayOwner args) s)

end Sys2Proof.Machine
end

