-- ==== Sys2Proof/Machine/AlertRequests.lean ====
section
/-! DEFINITION. The requests the alert unit carries out, and the two writes the cabinet port answers itself: TAKE_ALERT,
RELEASE_ALERT, ALERT_MASK, UNKNOWN_KIND, OVERLONG. Rules R152, R155, R156, R164, R168. -/

namespace Sys2Proof.Machine

/-- The alert unit's answer to TAKE ALERT (R155). -/
def takeAlertOwner (st : Station) (s : State) : Reply × State :=
  let t := takeIn s.run.settings.nesting st s.alert
  (⟨.done, takenView t.1⟩, { s with alert := t.2 })

/-- TAKE_ALERT (R155). -/
def execTakeAlert (st : Station) (args : List Byte) (s : State) : Result :=
  .next (takeRequest st .takeAlert args (takeAlertOwner st) s)

/-- The alert unit's answer to RELEASE ALERT (R156). -/
def releaseAlertOwner (st : Station) (args : List Byte) (s : State) : Reply × State :=
  match args with
  | [x] =>
    match categoryOfByte x with
    | none => refuse .badArgument s
    | some c =>
      match releaseIn s.run.settings.nesting st c s.alert with
      | none => refuse .refusedState s
      | some u => (plain .done, { s with alert := u })
  | _ => wrongCount s

/-- RELEASE_ALERT (R156). -/
def execReleaseAlert (st : Station) (args : List Byte) (s : State) : Result :=
  .next (takeRequest st .releaseAlert args (releaseAlertOwner st args) s)

/-- The set of categories a mask byte names, bits 0 to 5 in priority order (R172). -/
def maskOfByte (x : Byte) : List Category := allCategories.filter fun c => x.toNat.testBit (categoryNumber c - 1)

/-- The alert unit's answer to ALERT MASK (R152). -/
def alertMaskOwner (st : Station) (args : List Byte) (s : State) : Reply × State :=
  match args with
  | [x] =>
    if x.toNat < 64 then
      (plain .done, { s with alert := maskIn s.run.settings.nesting st (maskOfByte x) s.alert })
    else refuse .badArgument s
  | _ => wrongCount s

/-- ALERT_MASK (R152). -/
def execAlertMask (st : Station) (args : List Byte) (s : State) : Result :=
  .next (takeRequest st .alertMask args (alertMaskOwner st args) s)

/-- The course of a write of an unknown kind: taken, then OVERLONG or UNKNOWN-KIND by the checks of R168. A kind byte of
the kind table is not this command (notes/assumptions/5.md). -/
def takeUnknown (st : Station) (kind : Byte) (args : List Byte) (s : State) : State :=
  match kindOfByte kind with
  | some _ => s
  | none => writeReply st (plain (if maxArgs < args.length then .overlong else .unknownKind)) (receiveRequest st s)

/-- UNKNOWN_KIND (R168). -/
def execUnknownKind (st : Station) (kind : Byte) (args : List Byte) (s : State) : Result :=
  .next (takeUnknown st kind args s)

/-- OVERLONG: the request counts as taken, nothing else of the part sees it (R164). A write of 32 bytes or fewer is not
this command (notes/assumptions/5.md). -/
def execOverlong (st : Station) (bytes : List Byte) (s : State) : Result :=
  .next (if 32 < bytes.length then writeReply st (plain .overlong) (receiveRequest st s) else s)

end Sys2Proof.Machine
end

