-- ==== Sys2Proof/Machine/DefrostRequests.lean ====
section
/-! DEFINITION. The requests the defrost arbiter carries out: DEFROST_NOW, WITHDRAW, FEEDER_BUDGET_SINGLE,
FEEDER_BUDGET_ALL, GENERAL_CALL_WRITE, FORCE_RELEASE, CLEAR_FLAGS_FEEDER. Rules R111 to R119, R140, R147, R170. -/

namespace Sys2Proof.Machine

/-- The conditions under which DEFROST NOW is accepted (R118). -/
def defrostNowOk (s : State) (b : Bay) : Bool :=
  let r := bayAt s b
  isRunning s && decide (r.occupancy = .parked) && decide (r.defrost.state = .idle) && r.hold.isNone
    && decide (r.door.confirmed ≠ .opened) && decide (r.link = .ok)

/-- The arbiter's answer to DEFROST NOW (R118). -/
def defrostNowOwner (args : List Byte) (s : State) : Reply × State :=
  match args with
  | [x] =>
    withBay x (fun b s =>
      if defrostNowOk s b then (plain .done, settle (joinQueue b .manual s)) else refuse .refusedState s) s
  | _ => wrongCount s

/-- DEFROST_NOW (R118). -/
def execDefrostNow (st : Station) (args : List Byte) (s : State) : Result :=
  .next (takeRequest st .defrostNow args (defrostNowOwner args) s)

/-- The defrost states WITHDRAW accepts (R119). -/
def withdrawable (st : DefrostState) : Bool :=
  match st with
  | .queued => true
  | .shed => true
  | .starting => true
  | .active => true
  | .idle => false
  | .stopping => false
  | .hung => false

/-- The arbiter's answer to WITHDRAW (R119, R147). -/
def withdrawOwner (args : List Byte) (s : State) : Reply × State :=
  match args with
  | [x] =>
    withBay x (fun b s =>
      if withdrawable (bayAt s b).defrost.state then (plain .done, settle (endBusiness b .withdraw s))
      else refuse .refusedState s) s
  | _ => wrongCount s

/-- WITHDRAW (R119, R147). -/
def execWithdraw (st : Station) (args : List Byte) (s : State) : Result :=
  .next (takeRequest st .withdraw args (withdrawOwner args) s)

/-! ## Budgets -/

/-- The budget stored for a given value, with whether it was clamped (R111). -/
def storedBudget (v : Nat) : Nat × Bool := clampAbove 250 v

/-- A feeder's budget is written. -/
def setBudget (f : FeederIx) (v : Nat) (s : State) : State := setFeeder f { feederAt s f with budget := v } s

/-- What follows a budget written over an old one: a trigger for a rise (R111), the shedding walk for a cut (R112). -/
def budgetChanged (f : FeederIx) (old : Nat) (s : State) : State :=
  let new := (feederAt s f).budget
  if old < new then owePass s else if new < old then shedWalk f s else s

/-- A change of one feeder's budget (R111). -/
def changeBudget (f : FeederIx) (v : Nat) (s : State) : State :=
  budgetChanged f (feederAt s f).budget (setBudget f (storedBudget v).1 s)

/-- The arbiter's answer to FEEDER BUDGET, single form (R111). An unchanged budget has no effect. -/
def feederBudgetSingleOwner (args : List Byte) (s : State) : Reply × State :=
  match args with
  | [x, v1, v0] =>
    withFeeder x (fun f s =>
      let v := storedBudget (word16 v1 v0)
      (doneOr v.2, if v.1 = (feederAt s f).budget then s else settle (changeBudget f (word16 v1 v0) s))) s
  | _ => wrongCount s

/-- FEEDER_BUDGET_SINGLE (R111, R112). -/
def execFeederBudgetSingle (st : Station) (args : List Byte) (s : State) : Result :=
  .next (takeRequest st .feederBudgetSingle args (feederBudgetSingleOwner args) s)

/-- All four budgets are stored in one change, then each cut feeder's walk is made, feeders 1 to 4 in turn (R113). -/
def changeBudgets (v : FeederIx → Nat) (s : State) : State :=
  let stored := allFeeders.foldl (fun t f => setBudget f (storedBudget (v f)).1 t) s
  allFeeders.foldl (fun t f => budgetChanged f (feederAt s f).budget t) stored

/-- Whether any of four budgets differs from the one it replaces. -/
def budgetsDiffer (v : FeederIx → Nat) (s : State) : Bool :=
  allFeeders.any fun f => decide ((storedBudget (v f)).1 ≠ (feederAt s f).budget)

/-- FEEDER BUDGET, all-feeders form, on the four budgets (R113). -/
def feederBudgets (v : FeederIx → Nat) (s : State) : Reply × State :=
  (doneOr (allFeeders.any fun f => (storedBudget (v f)).2),
    if budgetsDiffer v s then settle (changeBudgets v s) else s)

/-- The four budgets of an all-feeders write, in feeder order (R172). -/
def fourBudgets (a b c d : Nat) (f : FeederIx) : Nat :=
  if f = 0 then a else if f = 1 then b else if f = 2 then c else d

/-- The arbiter's answer to FEEDER BUDGET, all-feeders form (R113). -/
def feederBudgetAllOwner (args : List Byte) (s : State) : Reply × State :=
  match args with
  | [a1, a0, b1, b0, c1, c0, d1, d0] =>
    feederBudgets (fourBudgets (word16 a1 a0) (word16 b1 b0) (word16 c1 c0) (word16 d1 d0)) s
  | _ => wrongCount s

/-- FEEDER_BUDGET_ALL (R113). -/
def execFeederBudgetAll (st : Station) (args : List Byte) (s : State) : Result :=
  .next (takeRequest st .feederBudgetAll args (feederBudgetAllOwner args) s)

/-- Whether a general-call write is acted on: at most 32 bytes, the all-feeders kind, its argument count (R170). -/
def generalCallOk (bytes : List Byte) : Bool :=
  match bytes with
  | [] => false
  | kind :: args =>
    decide (args.length ≤ maxArgs) && decide (kind = kindCode .feederBudgetAll)
      && decide (args.length = argCount .feederBudgetAll)

/-- GENERAL_CALL_WRITE: no reply buffer is written and no silence count changed; any other write is ignored (R170). -/
def execGeneralCallWrite (bytes : List Byte) (s : State) : Result :=
  .next (if generalCallOk bytes then (feederBudgetAllOwner bytes.tail s).2 else s)

/-! ## FORCE_RELEASE and CLEAR_FLAGS_FEEDER -/

/-- The arbiter's answer to FORCE RELEASE (R140). -/
def forceReleaseOwner (args : List Byte) (s : State) : Reply × State :=
  match args with
  | [x] =>
    withBay x (fun b s =>
      if (bayAt s b).defrost.state = .hung then (plain .done, settle (endEpisode b .forced s))
      else refuse .refusedState s) s
  | _ => wrongCount s

/-- FORCE_RELEASE (R140). -/
def execForceRelease (st : Station) (args : List Byte) (s : State) : Result :=
  .next (takeRequest st .forceRelease args (forceReleaseOwner args) s)

/-- The arbiter's answer to CLEAR FLAGS in its feeder form (R115). -/
def clearFlagsFeederOwner (args : List Byte) (s : State) : Reply × State :=
  match args with
  | [x] =>
    withFeeder x (fun f s =>
      (plain .done, setFeeder f { feederAt s f with nearFull := false, overflow := false } s)) s
  | _ => wrongCount s

/-- CLEAR_FLAGS_FEEDER (R115). -/
def execClearFlagsFeeder (st : Station) (args : List Byte) (s : State) : Result :=
  .next (takeRequest st .clearFlagsFeeder args (clearFlagsFeederOwner args) s)

end Sys2Proof.Machine
end

