-- ==== Sys2Proof/Machine/LoopEvents.lean ====
section
/-! DEFINITION. The commands of the bay loop and of the round schedule: ROUND_START, IDLE_GAP_END, REPLY_WINDOW_OPEN,
REPLY_FRAME_COMPLETE, WRONG_KIND_BYTE, REPLY_WINDOW_CLOSE, HALTED_ENTRY. Rules R25, R37 to R46, R51, R52. An event whose
occasion is not there has not occurred: the state is unchanged (notes/assumptions/5.md). -/

namespace Sys2Proof.Machine

/-- A round start has fallen due: the schedule runs and its count stands at 0 (R41). -/
def roundDue (s : State) : Bool := decide (s.loop.nextRound = some 0)

/-- ROUND_START (R41, R42, R44). -/
def execRoundStart (s : State) : Result := .next (if roundDue s then serveLoop (startRound s) else s)

/-- IDLE_GAP_END: the loop is free and the loop arbiter chooses (R37, R52). -/
def execIdleGapEnd (s : State) : Result :=
  match s.loop.exchange with
  | some ⟨_, _, .gap _, _⟩ => .next (haltTest (serveLoop { s with loop := { s.loop with exchange := none } }))
  | _ => .next s

/-- REPLY_WINDOW_OPEN: the request is sent, LDE is released and the reply window opens (R37). -/
def execReplyWindowOpen (s : State) : Result :=
  match s.loop.exchange with
  | some ⟨b, k, .sending, v⟩ =>
    .next { s with loop := { s.loop with exchange := some ⟨b, k, .awaiting, v⟩, lde := false, ltx := [] } }
  | _ => .next s

/-- REPLY_FRAME_COMPLETE: the frame assembled from the characters received is judged and the exchange ends (R38, R39). -/
def execReplyFrameComplete (chars : List RxChar) (s : State) : Result :=
  match awaitingReply s, assembleReply chars with
  | some x, .complete kind frame => .next (endExchange x (judge x kind frame) s)
  | _, _ => .next s

/-- WRONG_KIND_BYTE: a kind byte of neither reply kind ends the exchange WRONG-REPLY (R38). -/
def execWrongKindByte (kind : Byte) (s : State) : Result :=
  match awaitingReply s, replyKindOf kind with
  | some x, none => .next (endExchange x (.failed .wrongReply) s)
  | _, _ => .next s

/-- REPLY_WINDOW_CLOSE: 60 ms have passed without a complete frame, the exchange ends NO-REPLY (R37, R38). -/
def execReplyWindowClose (s : State) : Result :=
  match awaitingReply s with
  | some x => .next (endExchange x (.failed .noReply) s)
  | none => .next s

/-- HALTED_ENTRY (R25, R107). -/
def execHaltedEntry (s : State) : Result := .next (haltTest s)

end Sys2Proof.Machine
end

