-- ==== Sys2Proof/Machine/Reads.lean ====
section
/-! DEFINITION. The reading requests: READ_BAY, READ_FEEDER, READ_QUEUE, READ_ACTIVE, READ_YARD, READ_SETTING. They change
nothing beyond the station's silence count and reply buffer. Rules R20, R21, R30, R33, R126, R127, R130. -/

namespace Sys2Proof.Machine

/-- A DONE reply with data, the state as it is. -/
def answer (data : List Byte) (s : State) : Reply × State := (⟨.done, data⟩, s)

/-- The bay table's answer to READ BAY (R20, R21). -/
def readBayOwner (args : List Byte) (s : State) : Reply × State :=
  match args with
  | [x, v] =>
    withBay x (fun b s =>
      match viewOfByte v with
      | some view => answer (bayView view b (bayAt s b)) s
      | none => refuse .badArgument s) s
  | _ => wrongCount s

/-- READ_BAY (R20, R21). -/
def execReadBay (st : Station) (args : List Byte) (s : State) : Result :=
  .next (takeRequest st .readBay args (readBayOwner args) s)

/-- The arbiter's answer to READ FEEDER (R126). -/
def readFeederOwner (args : List Byte) (s : State) : Reply × State :=
  match args with
  | [x] => withFeeder x (fun f s => answer (feederView s f) s) s
  | _ => wrongCount s

/-- READ_FEEDER (R126). -/
def execReadFeeder (st : Station) (args : List Byte) (s : State) : Result :=
  .next (takeRequest st .readFeeder args (readFeederOwner args) s)

/-- A first place is 1 to 40 (R127, R130). -/
def placeOk (x : Byte) : Bool := decide (1 ≤ x.toNat) && decide (x.toNat ≤ 40)

/-- The arbiter's answer to READ QUEUE (R127). -/
def readQueueOwner (args : List Byte) (s : State) : Reply × State :=
  match args with
  | [x] => if placeOk x then answer (queueView s x.toNat) s else refuse .badArgument s
  | _ => wrongCount s

/-- READ_QUEUE (R127). -/
def execReadQueue (st : Station) (args : List Byte) (s : State) : Result :=
  .next (takeRequest st .readQueue args (readQueueOwner args) s)

/-- The arbiter's answer to READ ACTIVE (R130). -/
def readActiveOwner (args : List Byte) (s : State) : Reply × State :=
  match args with
  | [x] => if placeOk x then answer (activeView s x.toNat) s else refuse .badArgument s
  | _ => wrongCount s

/-- READ_ACTIVE (R130). -/
def execReadActive (st : Station) (args : List Byte) (s : State) : Result :=
  .next (takeRequest st .readActive args (readActiveOwner args) s)

/-- The run controller's answer to READ YARD (R30). -/
def readYardOwner (s : State) : Reply × State := answer (yardView s) s

/-- READ_YARD (R30). -/
def execReadYard (st : Station) (args : List Byte) (s : State) : Result :=
  .next (takeRequest st .readYard args readYardOwner s)

/-- The run controller's answer to READ SETTING (R33). -/
def readSettingOwner (args : List Byte) (s : State) : Reply × State :=
  match args with
  | [x] =>
    match settingValue s.run.settings x.toNat with
    | some v => answer (byteOf x.toNat :: be16 v) s
    | none => refuse .badArgument s
  | _ => wrongCount s

/-- READ_SETTING (R33). -/
def execReadSetting (st : Station) (args : List Byte) (s : State) : Result :=
  .next (takeRequest st .readSetting args (readSettingOwner args) s)

end Sys2Proof.Machine
end

