-- ==== Sys2Proof/Machine/RunRequests.lean ====
section
/-! DEFINITION. The requests the run controller carries out: BEGIN_ROUNDS, HALT_ROUNDS, SET_SETTING. Rules R23, R24, R32,
R34, R35, R41, R55, R146. -/

namespace Sys2Proof.Machine

/-- The run state is written. -/
def setRunState (x : RunState) (s : State) : State := { s with run := { s.run with state := x } }

/-- On entering RUNNING a round start falls due at once, and the loop arbiter has a choice to make (R23, R41, R55). -/
def beginRunning (s : State) : State := serveLoop (startRound (setRunState .running s))

/-- The run controller's answer to BEGIN ROUNDS (R23). -/
def beginRoundsOwner (s : State) : Reply × State :=
  match s.run.state with
  | .setup => (plain .done, beginRunning s)
  | .halted => (plain .done, beginRunning s)
  | _ => refuse .refusedState s

/-- BEGIN_ROUNDS (R23). -/
def execBeginRounds (st : Station) (args : List Byte) (s : State) : Result :=
  .next (takeRequest st .beginRounds args beginRoundsOwner s)

/-- The round schedule stops and the round in progress ends (R41, R55). -/
def stopSchedule (s : State) : State := { s with loop := { s.loop with nextRound := none, round := none } }

/-- The HALT change (R24, R55, R146); the manual leaves the order of its STOPs open (notes/assumptions/7.md). -/
def haltRunning (s : State) : State :=
  settle (withFreeOrder (forBays (fun b => endBusiness b .halt)) (stopSchedule (setRunState .halting s)))

/-- The run controller's answer to HALT ROUNDS (R24). -/
def haltRoundsOwner (s : State) : Reply × State :=
  match s.run.state with
  | .running => (plain .done, haltRunning s)
  | _ => refuse .refusedState s

/-- HALT_ROUNDS (R24). -/
def execHaltRounds (st : Station) (args : List Byte) (s : State) : Result :=
  .next (takeRequest st .haltRounds args haltRoundsOwner s)

/-! ## SET_SETTING -/

/-- The range of settings 1 to 13 (section 2.3). -/
def settingRange (id : Nat) : Option (Nat × Nat) :=
  match id with
  | 1 => some (15, 120)
  | 2 => some (2, 15)
  | 3 => some (1, 255)
  | 4 => some (0, 50)
  | 5 => some (0, 255)
  | 6 => some (0, 255)
  | 7 => some (0, 255)
  | 8 => some (1000, 60000)
  | 9 => some (10, 90)
  | 10 => some (0, 240)
  | 11 => some (30, 3600)
  | 12 => some (0, 600)
  | 13 => some (0, 1000)
  | _ => none

/-- The number written into one of settings 1 to 13. -/
def writeNumber (id v : Nat) (g : Settings) : Settings :=
  match id with
  | 1 => { g with pollPeriod := v }
  | 2 => { g with lossLimit := v }
  | 3 => { g with alpha := v }
  | 4 => { g with deadBand := v }
  | 5 => { g with frostGain := v }
  | 6 => { g with doorGain := v }
  | 7 => { g with meltGain := v }
  | 8 => { g with demandThreshold := v }
  | 9 => { g with tmax := v }
  | 10 => { g with holdoff := v }
  | 11 => { g with doorLimit := v }
  | 12 => { g with fuelMargin := v }
  | 13 => { g with lowFuel := v }
  | _ => g

/-- The set of conditions a value of setting 15 names; higher places are dropped (R32, R172). -/
def condsOfNat (v : Nat) : Conds := ⟨v.testBit 0, v.testBit 1, v.testBit 2, v.testBit 3⟩

/-- The settings after SET SETTING with whether the value was clamped; none for an id outside 1..15 (R32). -/
def storeSetting (id v : Nat) (g : Settings) : Option (Settings × Bool) :=
  match settingRange id with
  | some (lo, hi) => some (writeNumber id (clampWithin lo hi v).1 g, (clampWithin lo hi v).2)
  | none =>
    if id = 14 then some ({ g with nesting := if v = 0 then .nested else .flat }, decide (1 < v))
    else if id = 15 then some ({ g with enables := condsOfNat v }, decide (16 ≤ v))
    else none

/-- A bay under a new loss limit: a LOST bay's miss count is set to it; a bay at or above it becomes LOST (R35). -/
def limitBay (limit : Nat) (b : Bay) (s : State) : State :=
  let r := bayAt s b
  if r.link = .lost then modBay b (fun r => { r with missCount := limit }) s
  else if limit ≤ r.missCount then becomeLost b (modBay b (fun r => { r with missCount := limit, link := .lost }) s)
  else s

/-- A changed loss limit is carried out at once for every bay (R35); the manual leaves the order of the STOPs open
(notes/assumptions/7.md). -/
def applyLossLimit (s : State) : State := settle (withFreeOrder (forBays (limitBay s.run.settings.lossLimit)) s)

/-- A changed nesting mode: every ALERT line is evaluated again (R34). -/
def applyNesting (s : State) : State := { s with alert := evalLines s.run.settings.nesting s.alert }

/-- The effects of a setting's change, part of the same change as the storing (R32, R34, R35). -/
def settingChanged (before : Settings) (s : State) : State :=
  if before.lossLimit ≠ s.run.settings.lossLimit then applyLossLimit s
  else if before.nesting ≠ s.run.settings.nesting then applyNesting s
  else s

/-- The run controller's answer to SET SETTING (R32). -/
def setSettingOwner (args : List Byte) (s : State) : Reply × State :=
  match args with
  | [x, v1, v0] =>
    match storeSetting x.toNat (word16 v1 v0) s.run.settings with
    | none => refuse .badArgument s
    | some (g, clamped) =>
      (doneOr clamped, settingChanged s.run.settings { s with run := { s.run with settings := g } })
  | _ => wrongCount s

/-- SET_SETTING (R32, R34, R35). -/
def execSetSetting (st : Station) (args : List Byte) (s : State) : Result :=
  .next (takeRequest st .setSetting args (setSettingOwner args) s)

end Sys2Proof.Machine
end

