-- ==== Sys2Proof/Machine/Dispatch.lean ====
section
/-! DEFINITION. The effect of each command on everything but the queue: one arm per constructor of `Instr`. -/

namespace Sys2Proof.Machine

/-- The effect of a command, one direct call of its meaning. -/
def exec (i : Instr) (s : State) : Host.Outcome State Fault Refusal :=
  match i with
  | .reset addrHigh => Sys2Proof.Machine.execReset addrHigh s
  | .secondsTick => Sys2Proof.Machine.execSecondsTick s
  | .minuteTick => Sys2Proof.Machine.execMinuteTick s
  | .doorLimitReached b => Sys2Proof.Machine.execDoorLimitReached b s
  | .permitEnd b => Sys2Proof.Machine.execPermitEnd b s
  | .holdoffEnd b => Sys2Proof.Machine.execHoldoffEnd b s
  | .timeout b => Sys2Proof.Machine.execTimeout b s
  | .silenceRelease st => Sys2Proof.Machine.execSilenceRelease st s
  | .roundStart => Sys2Proof.Machine.execRoundStart s
  | .idleGapEnd => Sys2Proof.Machine.execIdleGapEnd s
  | .replyWindowOpen => Sys2Proof.Machine.execReplyWindowOpen s
  | .replyFrameComplete chars => Sys2Proof.Machine.execReplyFrameComplete chars s
  | .wrongKindByte kind => Sys2Proof.Machine.execWrongKindByte kind s
  | .replyWindowClose => Sys2Proof.Machine.execReplyWindowClose s
  | .haltedEntry => Sys2Proof.Machine.execHaltedEntry s
  | .readBay st args => Sys2Proof.Machine.execReadBay st args s
  | .readFeeder st args => Sys2Proof.Machine.execReadFeeder st args s
  | .readQueue st args => Sys2Proof.Machine.execReadQueue st args s
  | .readActive st args => Sys2Proof.Machine.execReadActive st args s
  | .readYard st args => Sys2Proof.Machine.execReadYard st args s
  | .readSetting st args => Sys2Proof.Machine.execReadSetting st args s
  | .arrive st args => Sys2Proof.Machine.execArrive st args s
  | .depart st args => Sys2Proof.Machine.execDepart st args s
  | .setDeparture st args => Sys2Proof.Machine.execSetDeparture st args s
  | .setBayData st args => Sys2Proof.Machine.execSetBayData st args s
  | .closeBay st args => Sys2Proof.Machine.execCloseBay st args s
  | .openBay st args => Sys2Proof.Machine.execOpenBay st args s
  | .markSet st args => Sys2Proof.Machine.execMarkSet st args s
  | .markTestSet st args => Sys2Proof.Machine.execMarkTestSet st args s
  | .markClear st args => Sys2Proof.Machine.execMarkClear st args s
  | .markTestClear st args => Sys2Proof.Machine.execMarkTestClear st args s
  | .defrostNow st args => Sys2Proof.Machine.execDefrostNow st args s
  | .withdraw st args => Sys2Proof.Machine.execWithdraw st args s
  | .feederBudgetSingle st args => Sys2Proof.Machine.execFeederBudgetSingle st args s
  | .feederBudgetAll st args => Sys2Proof.Machine.execFeederBudgetAll st args s
  | .forceRelease st args => Sys2Proof.Machine.execForceRelease st args s
  | .doorPermit st args => Sys2Proof.Machine.execDoorPermit st args s
  | .clearFlagsBay st args => Sys2Proof.Machine.execClearFlagsBay st args s
  | .clearFlagsFeeder st args => Sys2Proof.Machine.execClearFlagsFeeder st args s
  | .takeAlert st args => Sys2Proof.Machine.execTakeAlert st args s
  | .releaseAlert st args => Sys2Proof.Machine.execReleaseAlert st args s
  | .alertMask st args => Sys2Proof.Machine.execAlertMask st args s
  | .beginRounds st args => Sys2Proof.Machine.execBeginRounds st args s
  | .haltRounds st args => Sys2Proof.Machine.execHaltRounds st args s
  | .setSetting st args => Sys2Proof.Machine.execSetSetting st args s
  | .unknownKind st kind args => Sys2Proof.Machine.execUnknownKind st kind args s
  | .overlong st bytes => Sys2Proof.Machine.execOverlong st bytes s
  | .generalCallWrite bytes => Sys2Proof.Machine.execGeneralCallWrite bytes s

end Sys2Proof.Machine
end

