-- ==== Sys2Proof/Safety.lean ====
section
/-! DEFINITION. What counts as a safe state: the laws the manual says hold at all times. Each is decidable on a state. -/

namespace Sys2Proof.Safety

open Sys2Proof.Machine

/-! ## Settings (R31) -/

/-- Every setting holds a value within its range (section 2.3, R31). -/
abbrev SettingsInRange (g : Settings) : Prop :=
  (15 ≤ g.pollPeriod ∧ g.pollPeriod ≤ 120) ∧ (2 ≤ g.lossLimit ∧ g.lossLimit ≤ 15) ∧ (1 ≤ g.alpha ∧ g.alpha ≤ 255)
    ∧ g.deadBand ≤ 50 ∧ g.frostGain ≤ 255 ∧ g.doorGain ≤ 255 ∧ g.meltGain ≤ 255
    ∧ (1000 ≤ g.demandThreshold ∧ g.demandThreshold ≤ 60000) ∧ (10 ≤ g.tmax ∧ g.tmax ≤ 90) ∧ g.holdoff ≤ 240
    ∧ (30 ≤ g.doorLimit ∧ g.doorLimit ≤ 3600) ∧ g.fuelMargin ≤ 600 ∧ g.lowFuel ≤ 1000

/-- The ticks' counters stay in range (R27, R28). -/
abbrev ClockInRange (r : RunControl) : Prop := r.second ≤ 59 ∧ r.yardMinute ≤ 65535

/-! ## Alert unit (R150, R153) -/

/-- A category's latch is set exactly when its pending set is not empty, and the set holds each element once (R150). -/
abbrev CategoryLaw (r : CategoryRecord) : Prop :=
  (r.latch = true ↔ r.pending ≠ []) ∧ r.pending.Pairwise (· < ·)

/-- A service stack holds distinct categories in strictly rising priority from bottom to top (R150), each with the set
taken with it, which is not empty and holds each element once. -/
abbrev StackLaw (stack : List ServiceEntry) : Prop :=
  stack.Pairwise (fun upper lower => categoryNumber upper.category < categoryNumber lower.category)
    ∧ ∀ e ∈ stack, e.set ≠ [] ∧ e.set.Pairwise (· < ·)

/-- The laws of R150 over the whole alert unit; a category is in service at no more than one station. -/
abbrev AlertLaw (u : AlertUnit) : Prop :=
  (∀ c ∈ allCategories, CategoryLaw (catAt u c))
    ∧ (∀ st ∈ allStations, StackLaw (alertAt u st).stack ∧ (alertAt u st).silence ≤ 10)
    ∧ ∀ st ∈ allStations, ∀ st' ∈ allStations, ∀ c ∈ allCategories,
        inServiceAt u st c = true → inServiceAt u st' c = true → st = st'

/-- A station's ALERT line is asserted exactly when a category is eligible for it (R153). -/
abbrev LineLaw (s : State) : Prop :=
  ∀ st ∈ allStations, (alertAt s.alert st).line = allCategories.any fun c => eligible s.run.settings.nesting s.alert st c

/-! ## Bay records -/

/-- Whether a value that may be absent is at most a limit. -/
abbrev AtMost (x : Option Nat) (hi : Nat) : Prop := x.getD 0 ≤ hi

/-- Ranges of the bay table's fields (R2, R11, R13, R105). -/
abbrev BayDataInRange (r : BayRecord) : Prop :=
  AtMost r.arrival 65535 ∧ (r.capacity = 0 ∨ (20 ≤ r.capacity ∧ r.capacity ≤ 600)) ∧ (4 ≤ r.draw ∧ r.draw ≤ 40)
    ∧ AtMost r.departure 4095 ∧ r.permit ≤ 480

/-- Ranges of the frost record (R72). -/
abbrev FrostInRange (f : Frost) : Prop :=
  (-900 ≤ f.s.getD 0 ∧ f.s.getD 0 ≤ 900) ∧ (-900 ≤ f.b.getD 0 ∧ f.b.getD 0 ≤ 900) ∧ f.k ≤ 3 ∧ f.f ≤ 60000

/-- Ranges of the fuel record (R86). -/
abbrev FuelInRange (f : Fuel) : Prop :=
  AtMost f.v 6000 ∧ AtMost f.vref 6000 ∧ f.w ≤ 65535 ∧ f.r ≤ 36000 ∧ f.e ≤ 65535 ∧ f.refuels ≤ 255

/-- Ranges of the door record (R99). -/
abbrev DoorInRange (d : Door) : Prop :=
  d.openSeconds ≤ 65535 ∧ d.lastOpen ≤ 65535 ∧ d.openings ≤ 255 ∧ d.totalOpen ≤ 4294967295

/-- Ranges of the defrost record (R128). -/
abbrev DefrostInRange (d : Defrost) : Prop :=
  (d.draw = 0 ∨ (4 ≤ d.draw ∧ d.draw ≤ 40)) ∧ d.elapsed ≤ 90 ∧ d.holdoff ≤ 240 ∧ d.count ≤ 255

/-- Every field of a bay record is within its range. -/
abbrev BayInRange (r : BayRecord) : Prop :=
  BayDataInRange r ∧ FrostInRange r.frost ∧ FuelInRange r.fuel ∧ DoorInRange r.door ∧ DefrostInRange r.defrost
    ∧ r.roundsSince ≤ 255

/-- Every bay record, the settings and the clock are within their ranges. -/
abbrev RangesLaw (s : State) : Prop :=
  SettingsInRange s.run.settings ∧ ClockInRange s.run ∧ ∀ b : Bay, BayInRange (bayAt s b)

/-- A bay's miss count is at most the loss limit, and equals it exactly when the bay is LOST (R35). -/
abbrev MissLaw (s : State) : Prop :=
  2 ≤ s.run.settings.lossLimit ∧ ∀ b : Bay,
    (bayAt s b).missCount ≤ s.run.settings.lossLimit
      ∧ ((bayAt s b).link = .lost ↔ (bayAt s b).missCount = s.run.settings.lossLimit)

/-- Idents (R5): exactly the ARRIVING, PARKED and DEPARTING bays hold one, and no two bays hold the same. -/
abbrev IdentLaw (s : State) : Prop :=
  (∀ b : Bay, (bayAt s b).ident.isSome = enrolled (bayAt s b).occupancy)
    ∧ ∀ b c : Bay, (bayAt s b).ident.isSome = true → (bayAt s b).ident = (bayAt s c).ident → b = c

/-- A VACANT or OUT-OF-SERVICE bay holds the reset values of R2 in every group but bay data (R3, R10). -/
abbrev EmptyLaw (s : State) : Prop :=
  ∀ b : Bay, (bayAt s b).occupancy = .vacant ∨ (bayAt s b).occupancy = .outOfService →
    bayAt s b = { emptied (bayAt s b) with occupancy := (bayAt s b).occupancy }

/-! ## Arbiter collections (R116, R129, R142, R145) -/

/-- The shed-stack entries of a bay on a feeder. -/
abbrev onStackOf (s : State) (f : FeederIx) (b : Bay) : Prop := ∃ e ∈ (feederAt s f).stack, e.bay = b

/-- No collection holds a bay twice: the demand queue, the active list, each shed stack, the order queue (R49, R116, R129). -/
abbrev NoRepeats (s : State) : Prop :=
  (s.arb.queue.map (·.bay)).Nodup ∧ s.arb.active.Nodup ∧ (s.loop.orders.map (·.bay)).Nodup
    ∧ ∀ f : FeederIx, ((feederAt s f).stack.map (·.bay)).Nodup

/-- The arbiter's collections are in step with the defrost states (R116, R129). -/
abbrev CollectionLaw (s : State) : Prop :=
  NoRepeats s ∧ ∀ b : Bay,
    ((bayAt s b).defrost.state = .queued ↔ b ∈ s.arb.queue.map (·.bay))
      ∧ (((bayAt s b).defrost.state = .starting ∨ (bayAt s b).defrost.state = .active) ↔ b ∈ s.arb.active)
      ∧ ∀ f : FeederIx, onStackOf s f b ↔
          ((bayAt s b).defrost.charge = .feeder f ∧ ((bayAt s b).defrost.state = .shed
            ∨ ((bayAt s b).defrost.state = .stopping ∧ (bayAt s b).defrost.reason = some .shed)))

/-- A shed stack holds at most 8 entries (R142). -/
abbrev StacksBounded (s : State) : Prop := ∀ f : FeederIx, (feederAt s f).stack.length ≤ 8

/-- A feeder's admitted current never exceeds its budget (R110). -/
abbrev BudgetLaw (s : State) : Prop := ∀ f : FeederIx, admitted s f ≤ (feederAt s f).budget

/-- A bay whose confirmed door state is OPEN is neither QUEUED nor SHED (R145). -/
abbrev DoorLaw (s : State) : Prop :=
  ∀ b : Bay, (bayAt s b).door.confirmed = .opened →
    (bayAt s b).defrost.state ≠ .queued ∧ (bayAt s b).defrost.state ≠ .shed

/-- The defrost state of a bay with an order of a kind (R49). -/
def stateFor : OrderKind → DefrostState
  | .start _ => .starting
  | .stop => .stopping

/-- The order of an exchange, none for a poll. -/
def orderOf : ExchangeKind → Option OrderKind
  | .poll => none
  | .order k => some k

/-- A bay with an order in the queue or on the loop is STARTING for a START and STOPPING for a STOP (R49). -/
abbrev OrderLaw (s : State) : Prop :=
  (∀ o ∈ s.loop.orders, (bayAt s o.bay).defrost.state = stateFor o.kind)
    ∧ ∀ x ∈ s.loop.exchange, inFlight x = true → ∀ k ∈ orderOf x.kind, (bayAt s x.bay).defrost.state = stateFor k

/-! ## Loop controller (R36, R37, R41, R52) -/

/-- The loop controller's own laws: LDE is asserted and a frame is on LTX exactly while a request is being sent; the
consecutive order count is at most 4; a round is in progress and the schedule runs only in RUNNING. -/
abbrev LoopLaw (s : State) : Prop :=
  (s.loop.lde = true ↔ ∃ x ∈ s.loop.exchange.toList, x.phase = .sending)
    ∧ (s.loop.lde = false → s.loop.ltx = []) ∧ s.loop.orderRun ≤ 4 ∧ s.loop.overruns ≤ 65535
    ∧ (s.loop.nextRound.isSome = true ↔ s.run.state = .running)
    ∧ (s.loop.round.isSome = true → s.run.state = .running)

/-- Outside RUNNING nothing waits for a grant; in SETUP and HALTED no defrost but a HUNG one is left and no order waits
(R22, R116, R146); in HALTING an order waits or a bay is STARTING or STOPPING: once neither is left, the change that brings
that about enters HALTED (R25). -/
abbrev RunLaw (s : State) : Prop :=
  (s.run.state ≠ .running → s.arb.queue = [] ∧ ∀ b : Bay, (bayAt s b).defrost.state ≠ .shed)
    ∧ (s.run.state = .setup ∨ s.run.state = .halted →
        s.loop.orders = [] ∧ ∀ b : Bay, (bayAt s b).defrost.state = .idle ∨ (bayAt s b).defrost.state = .hung)
    ∧ (s.run.state = .halting → s.loop.orders ≠ []
        ∨ ∃ b : Bay, (bayAt s b).defrost.state = .starting ∨ (bayAt s b).defrost.state = .stopping)

/-! ## What keeps the arbiter's laws in step (R49, R134, R141, R145, R146) -/

/-- SHED is written as a reason only with a push (R141): never on a STARTING bay, and on a STOPPING bay only beside a
feeder's charge. -/
abbrev ReasonLaw (s : State) : Prop :=
  ∀ b : Bay, (bayAt s b).defrost.reason = some .shed →
    (bayAt s b).defrost.state ≠ .starting
      ∧ ((bayAt s b).defrost.state = .stopping → ∃ f : FeederIx, (bayAt s b).defrost.charge = .feeder f)

/-- A bay whose defrost business has been ended and may not start again: its door is confirmed OPEN, or rounds are not
running (R145, R146). -/
abbrev mustEnd (s : State) (b : Bay) : Prop := (bayAt s b).door.confirmed = .opened ∨ s.run.state ≠ .running

/-- Such a bay is not ACTIVE; if STARTING, its START is sent and its end is written; if on a shed stack, its end is recorded
there (R145). -/
abbrev EndedLaw (s : State) : Prop :=
  ∀ b : Bay, mustEnd s b →
    (bayAt s b).defrost.state ≠ .active
      ∧ ((bayAt s b).defrost.state = .starting → (bayAt s b).defrost.reason.isSome = true ∧ startUnsent s b = false)
      ∧ ∀ f : FeederIx, ∀ e ∈ (feederAt s f).stack, e.bay = b → e.ended.isSome = true

/-- The bay of an exchange in flight is polled unless the exchange is voided (R3, R7); while an order of it is on the loop, it
has none in the queue (R49). -/
abbrev ExchangeLaw (s : State) : Prop :=
  ∀ x ∈ s.loop.exchange, inFlight x = true →
    (x.voided = false → polled (bayAt s x.bay).occupancy = true) ∧ (x.kind ≠ .poll → ∀ o ∈ s.loop.orders, o.bay ≠ x.bay)

/-- No pass is owed, no moment stands open and no request is half taken between commands. -/
abbrev RestLaw (s : State) : Prop :=
  s.passDue = false ∧ s.moments = [] ∧ ∀ st ∈ allStations, (slotAt s st).inProgress = false

end Sys2Proof.Safety
end

