-- ==== Sys2Proof/WellFormed.lean ====
section
/-! DEFINITION. Which terms of `Instr` are commands the outside can give: the bytes of a write make the row's request, and
an event is what its row says. Rules R38, R163, R164, R168, R172. -/

namespace Sys2Proof

open Sys2Proof.Machine

/-- A request's argument bytes fit a write of 32 bytes with its kind byte (R163, R164). -/
def argsFit (args : List Byte) : Bool := decide (args.length ≤ maxArgs)

/-- The operation byte of a MARK row other than MARK_SET is there and names the row's operation (R172). -/
def opByteIs (op : MarkOp) (args : List Byte) : Bool := decide ((args[1]?).bind markOpOfByte = some op)

/-- The operation byte of MARK_SET names no other operation. -/
def opByteNoOther (args : List Byte) : Bool :=
  match (args[1]?).bind markOpOfByte with
  | some o => decide (o = .set)
  | none => true

/-- Whether a term is a command the outside can give. -/
def wellFormed (i : Instr) : Bool :=
  match i with
  | .wrongKindByte kind => (replyKindOf kind).isNone
  | .replyFrameComplete chars =>
    match assembleReply chars with
    | .complete _ _ => true
    | _ => false
  | .markSet _ args => argsFit args && opByteNoOther args
  | .markTestSet _ args => argsFit args && opByteIs .testSet args
  | .markClear _ args => argsFit args && opByteIs .clear args
  | .markTestClear _ args => argsFit args && opByteIs .testClear args
  | .unknownKind _ kind args => argsFit args && (kindOfByte kind).isNone
  | .overlong _ bytes => decide (32 < bytes.length)
  | .generalCallWrite bytes => decide (bytes ≠ [])
  | .readBay _ args => argsFit args
  | .readFeeder _ args => argsFit args
  | .readQueue _ args => argsFit args
  | .readActive _ args => argsFit args
  | .readYard _ args => argsFit args
  | .readSetting _ args => argsFit args
  | .arrive _ args => argsFit args
  | .depart _ args => argsFit args
  | .setDeparture _ args => argsFit args
  | .setBayData _ args => argsFit args
  | .closeBay _ args => argsFit args
  | .openBay _ args => argsFit args
  | .defrostNow _ args => argsFit args
  | .withdraw _ args => argsFit args
  | .feederBudgetSingle _ args => argsFit args
  | .feederBudgetAll _ args => argsFit args
  | .forceRelease _ args => argsFit args
  | .doorPermit _ args => argsFit args
  | .clearFlagsBay _ args => argsFit args
  | .clearFlagsFeeder _ args => argsFit args
  | .takeAlert _ args => argsFit args
  | .releaseAlert _ args => argsFit args
  | .alertMask _ args => argsFit args
  | .beginRounds _ args => argsFit args
  | .haltRounds _ args => argsFit args
  | .setSetting _ args => argsFit args
  | .reset _ => true
  | .secondsTick => true
  | .minuteTick => true
  | .doorLimitReached _ => true
  | .permitEnd _ => true
  | .holdoffEnd _ => true
  | .timeout _ => true
  | .silenceRelease _ => true
  | .roundStart => true
  | .idleGapEnd => true
  | .replyWindowOpen => true
  | .replyWindowClose => true
  | .haltedEntry => true

end Sys2Proof
end

