-- ==== Sys2Proof/Certificates/Slice0/Obligations.lean ====
section
/-! DEFINITION. The statements for the provers. `Sys2Proof.Claims` is their vocabulary: the manual's tables written down
a second time, apart from the definitions the machine runs on. -/

namespace Sys2Proof.Claims

open Sys2Proof.Machine

/-! ## Bytes -/

/-- The byte of a bay number (R172). -/
def bayByte (b : Bay) : Byte := BitVec.ofNat 8 (b.val + 1)

/-- The byte of a feeder number (R172). -/
def feederByte (f : FeederIx) : Byte := BitVec.ofNat 8 (f.val + 1)

/-- A byte that names no bay: 0, or 41 and above. -/
abbrev noBay (x : Byte) : Prop := x.toNat = 0 ∨ 41 ≤ x.toNat

/-- A byte that names no feeder: 0, or 5 and above. -/
abbrev noFeeder (x : Byte) : Prop := x.toNat = 0 ∨ 5 ≤ x.toNat

/-- The number sent in two bytes, most significant byte first (section 11.5). -/
def number (hi lo : Byte) : Nat := hi.toNat * 256 + lo.toNat

/-- A number in two bytes, most significant byte first. -/
def two (n : Nat) : List Byte := [BitVec.ofNat 8 (n / 256), BitVec.ofNat 8 n]

/-- A number in four bytes, most significant byte first. -/
def four (n : Nat) : List Byte := two (n / 65536) ++ two n

/-- A signed number in two bytes, two's complement. -/
def signed (x : Int) : List Byte := two (x % 65536).toNat

/-- A set byte with four places, from bit 0; the bits of no place are 0 (the model's choice, notes/assumptions/15.md). -/
def flags (b0 b1 b2 b3 : Bool) : Byte :=
  BitVec.ofNat 8 (b0.toNat + 2 * b1.toNat + 4 * b2.toNat + 8 * b3.toNat)

/-! ## Requests: the tables of R169 and R172 -/

/-- Kind codes (R172). -/
def code : RequestKind → Nat
  | .readBay => 0x01
  | .readFeeder => 0x02
  | .readQueue => 0x03
  | .readActive => 0x04
  | .readYard => 0x05
  | .readSetting => 0x06
  | .arrive => 0x10
  | .depart => 0x11
  | .setDeparture => 0x12
  | .setBayData => 0x13
  | .closeBay => 0x14
  | .openBay => 0x15
  | .mark => 0x16
  | .defrostNow => 0x20
  | .withdraw => 0x21
  | .feederBudgetSingle => 0x22
  | .feederBudgetAll => 0x23
  | .forceRelease => 0x24
  | .doorPermit => 0x25
  | .clearFlagsBay => 0x26
  | .clearFlagsFeeder => 0x27
  | .takeAlert => 0x30
  | .releaseAlert => 0x31
  | .alertMask => 0x32
  | .beginRounds => 0x40
  | .haltRounds => 0x41
  | .setSetting => 0x42

/-- Argument bytes (R172). -/
def argBytes : RequestKind → Nat
  | .readBay => 2
  | .arrive => 13
  | .setDeparture => 3
  | .setBayData => 5
  | .mark => 3
  | .feederBudgetSingle => 3
  | .feederBudgetAll => 8
  | .doorPermit => 3
  | .setSetting => 3
  | .readYard => 0
  | .takeAlert => 0
  | .beginRounds => 0
  | .haltRounds => 0
  | _ => 1

/-- A row of the permission table, columns OFFICE, FEEDER, GATE, SERVICE (R169). -/
def column (office feeder gate service : Bool) : Station → Bool
  | .office => office
  | .feeder => feeder
  | .gate => gate
  | .service => service

/-- The permission table (R169). -/
def mayAsk : RequestKind → Station → Bool
  | .arrive => column false false true false
  | .depart => column false false true false
  | .setDeparture => column true false true false
  | .setBayData => column true false false false
  | .closeBay => column false false false true
  | .openBay => column false false false true
  | .mark => column true false true true
  | .defrostNow => column true false false true
  | .withdraw => column true false false true
  | .doorPermit => column true false false true
  | .clearFlagsBay => column true false false true
  | .clearFlagsFeeder => column false true false false
  | .feederBudgetSingle => column false true false false
  | .feederBudgetAll => column false true false false
  | .forceRelease => column false true false false
  | .beginRounds => column true false false false
  | .haltRounds => column true false false false
  | .setSetting => column true false false false
  | _ => column true true true true

/-- The state after a request of a station is answered, the part being otherwise in state s: the station's silence count
is 0 (R159), its reply buffer holds the result code and the data (R165, R166); a write being assembled stays. -/
def told (st : Station) (c : ResultCode) (data : List Byte) (s : State) : State :=
  { s with
    alert := { s.alert with
      stations := s.alert.stations.set (stationIx st).val { alertAt s.alert st with silence := 0 } },
    port := { s.port with slots := s.port.slots.set (stationIx st).val ⟨false, ⟨c, data⟩⟩ } }

/-- The state in which the owning block takes a request of a station: the station's silence count is 0 (R159) and its request
is in progress (R163); a write being assembled stays. -/
def taking (st : Station) (s : State) : State :=
  { s with
    alert := { s.alert with
      stations := s.alert.stations.set (stationIx st).val { alertAt s.alert st with silence := 0 } },
    port := { s.port with slots := s.port.slots.set (stationIx st).val { slotAt s st with inProgress := true } } }

/-- Result code bytes (R168). -/
def resultByteOf : ResultCode → Byte
  | .done => 0x00
  | .clamped => 0x01
  | .refusedRole => 0x10
  | .refusedState => 0x11
  | .refusedOwner => 0x12
  | .badArgument => 0x20
  | .badLength => 0x21
  | .unknownKind => 0x22
  | .overlong => 0x23
  | .noRequest => 0xFE

/-- DONE, or CLAMPED when a value was clamped (R168). -/
def doneUnless (clamped : Prop) [Decidable clamped] : ResultCode := if clamped then .clamped else .done

/-! ## Records -/

/-- A bay's record with one record written into the state. -/
def withBayRecord (b : Bay) (r : BayRecord) (s : State) : State := { s with bays := s.bays.set b.val r }

/-- The reset values of R2 in every group but bay data. -/
def resetRecord (capacity : Nat) (feeder : Option FeederIx) (draw : Nat) : BayRecord :=
  { occupancy := .vacant, ident := none, arrival := none, capacity := capacity, feeder := feeder, draw := draw,
    departure := none, permit := 0, hold := none, fuelOrdered := false, noDiesel := false,
    link := .new, missCount := 0, lastExchange := .none, roundsSince := 0, snapshot := none,
    frost := { s := none, b := none, k := 0, f := 0 },
    fuel := { v := none, vref := none, w := 0, r := 0, e := 65535, low := false, short := false, refuels := 0 },
    door := { confirmed := .unknown, pending := none, openSeconds := 0, lastOpen := 0, openings := 0, totalOpen := 0,
              alertGiven := false },
    causes := ⟨false, false, false, false⟩, sticky := ⟨false, false, false, false⟩,
    defrost := { state := .idle, reason := none, charge := .none, draw := 0, shedPending := false, elapsed := 0,
                 holdoff := 0, origin := none, outcome := none, count := 0 } }

/-- A record emptied, its bay data left as it stood (R3). -/
def emptiedRecord (r : BayRecord) : BayRecord := resetRecord r.capacity r.feeder r.draw

/-- The tank capacity stored for a given value (R11). -/
def tank (v : Nat) : Nat := if v = 0 then 0 else if v < 20 then 20 else if v ≤ 600 then v else 600

/-- The draw stored for a given value (R11). -/
def drawOf (v : Nat) : Nat := if v < 4 then 4 else if v ≤ 40 then v else 40

/-- The form of a trailer ident (R5). -/
abbrev identForm (i : List Byte) : Prop :=
  i.length = 8 ∧ (∀ c ∈ i, (0x41 ≤ c.toNat ∧ c.toNat ≤ 0x5A) ∨ (0x30 ≤ c.toNat ∧ c.toNat ≤ 0x39) ∨ c.toNat = 0x20)
    ∧ ∃ c ∈ i, c.toNat ≠ 0x20

/-- How many bays have a property. -/
def howMany (p : BayRecord → Bool) (s : State) : Nat := (List.finRange 40).countP fun b => p (bayAt s b)

/-! ## The loop -/

/-- A polled bay (R7). -/
abbrev isPolled (s : State) (b : Bay) : Prop :=
  (bayAt s b).occupancy = .arriving ∨ (bayAt s b).occupancy = .parked ∨ (bayAt s b).occupancy = .departing

/-- The bay a round at a position polls next: the lowest-numbered polled bay above the position (R42). -/
abbrev nextToPoll (s : State) (position : Nat) (b : Bay) : Prop :=
  isPolled s b ∧ position < b.val + 1 ∧ ∀ c : Bay, isPolled s c → position < c.val + 1 → b.val ≤ c.val

/-- No polled bay is above a position. -/
abbrev nothingAbove (s : State) (position : Nat) : Prop := ∀ c : Bay, isPolled s c → ¬ position < c.val + 1

/-- The round in progress has a poll left, of bay b (R52). -/
abbrev hasPollLeft (s : State) (b : Bay) : Prop := ∃ p ∈ s.loop.round, nextToPoll s p b

/-- No round is in progress, or it has no poll left (R52). -/
abbrev noPollLeft (s : State) : Prop := ∀ p ∈ s.loop.round, nothingAbove s p

/-- An exchange has begun on the loop (R37). -/
abbrev begun (t : State) (b : Bay) (k : ExchangeKind) : Prop :=
  t.loop.exchange = some ⟨b, k, .sending, false⟩ ∧ t.loop.lde = true ∧ t.loop.ltx = requestFrame b k

/-- A START for the bay is in the order queue (R49: unsent). -/
abbrev startWaits (s : State) (b : Bay) : Prop := ∃ resume, (⟨b, .start resume⟩ : Order) ∈ s.loop.orders

/-- A STOP for the bay waits in the order queue or is on the loop. -/
abbrev stopOnItsWay (t : State) (b : Bay) : Prop :=
  (⟨b, .stop⟩ : Order) ∈ t.loop.orders ∨ t.loop.exchange = some ⟨b, .order .stop, .sending, false⟩

/-- No order of the bay is in the order queue. -/
abbrev noOrder (s : State) (b : Bay) : Prop := ∀ o ∈ s.loop.orders, o.bay ≠ b

/-- What a round start makes of the loop, from s to t (R41 to R44): the poll period is reloaded; with no round in progress one
begins at position 0, unless no bay is polled; with one in progress the start is skipped and the overrun count rises. On a free
loop in RUNNING the loop arbiter then chooses by the table of R52; the alert unit's part is stated beside it. -/
def roundStarted (s t : State) : Prop :=
  let p := s.loop.round.getD 0
  let round := if s.loop.round = none ∧ nothingAbove s 0 then none else some p
  let overruns := if s.loop.round = none then s.loop.overruns else min (s.loop.overruns + 1) 65535
  let next := some s.run.settings.pollPeriod
  t.loop.nextRound = next ∧ t.loop.overruns = overruns
  ∧ (s.loop.exchange.isSome = true → t.loop = { s.loop with nextRound := next, overruns := overruns, round := round })
  ∧ (s.loop.exchange = none → t.run.state = .running →
      (∀ b, nextToPoll s p b → (s.loop.orders = [] ∨ 4 ≤ s.loop.orderRun) →
        begun t b .poll ∧ t.loop.round = some (b.val + 1) ∧ t.loop.orderRun = 0 ∧ t.loop.orders = s.loop.orders)
      ∧ (∀ o rest, s.loop.orders = o :: rest → (s.loop.orderRun < 4 ∨ nothingAbove s p) →
        begun t o.bay (.order o.kind) ∧ t.loop.orders = rest ∧ t.loop.orderRun = min (s.loop.orderRun + 1) 4
        ∧ t.loop.round = round)
      ∧ (nothingAbove s p → s.loop.orders = [] →
        t.loop = { s.loop with nextRound := next, overruns := overruns, round := round }))

/-- The conditions of R25 on a state whose run state is HALTING. -/
abbrev haltReady (s : State) : Prop :=
  s.loop.orders = [] ∧ ∀ b, (bayAt s b).defrost.state ≠ .starting ∧ (bayAt s b).defrost.state ≠ .stopping

/-- A door record whose knowledge is lost (R107). -/
def doorLost (d : Door) : Door :=
  { d with confirmed := .unknown, pending := none,
           lastOpen := if d.confirmed = .opened then d.openSeconds else d.lastOpen }

/-! ## The arbiter -/

/-- The bay has an entry on a shed stack. -/
abbrev onAStack (s : State) (b : Bay) : Prop := ∃ f : FeederIx, ∃ e ∈ (feederAt s f).stack, e.bay = b

/-- The bay is in none of the arbiter's collections (R129). -/
abbrev inNoCollection (s : State) (b : Bay) : Prop :=
  (∀ q ∈ s.arb.queue, q.bay ≠ b) ∧ b ∉ s.arb.active ∧ ¬ onAStack s b

/-- The outcome of a stop reason (R137). -/
def outcomeFor : StopReason → Option DefrostOutcome
  | .shed => none
  | .overflow => some .abortedOverflow
  | .door => some .abortedDoor
  | .depart => some .abortedDepart
  | .hold => some .abortedHold
  | .link => some .abortedLink
  | .timeout => some .timedOut
  | .withdraw => some .withdrawn
  | .halt => some .halted
  | .unconfirmed => some .unconfirmed

/-- A defrost record after an outcome, `holdoff` being setting 10 (R131). -/
def afterOutcome (holdoff : Nat) (o : DefrostOutcome) (d : Defrost) : Defrost :=
  { d with
    state := .idle, reason := none, shedPending := false, outcome := some o,
    holdoff := if o = .complete ∨ o = .notNeeded ∨ o = .timedOut ∨ o = .withdrawn then holdoff else d.holdoff,
    count := if o = .complete then min (d.count + 1) 255 else d.count }

/-- The frost record after an outcome (R83). -/
def frostAfter (o : DefrostOutcome) (f : Frost) : Frost :=
  if o = .complete ∨ o = .notNeeded then { s := f.s, b := none, k := 0, f := 0 } else f

/-- A bay record after an outcome, the bay not being DEPARTING (R131). -/
def recordAfter (holdoff : Nat) (o : DefrostOutcome) (r : BayRecord) : BayRecord :=
  { r with defrost := afterOutcome holdoff o r.defrost, frost := frostAfter o r.frost }

/-- No grant pass is owed: so it is between commands (the model's own field, notes/assumptions/6.md). -/
abbrev atRest (s : State) : Prop := s.passDue = false

/-- The end of a change that leads to w, as the change's last state t shows it: the grant pass owed is made in RUNNING and
forgotten elsewhere (R120). -/
def settled (w t : State) : Prop :=
  (w.passDue = true → w.run.state = .running →
      t.arb = (grantPass { w with passDue := false }).arb
      ∧ ∀ b, bayAt t b = bayAt (grantPass { w with passDue := false }) b)
  ∧ ((w.passDue = false ∨ w.run.state ≠ .running) →
      t.arb = w.arb ∧ ∀ b, (bayAt t b).defrost = (bayAt w b).defrost)

/-- A change of budgets from u to the budgets v (R111 to R113): all four are stored; then, feeders 1 to 4 in turn, a lowered
budget brings its shedding walk, and a raised one owes a grant pass. -/
def budgetChange (v : FeederIx → Nat) (u t : State) : Prop :=
  let next := fun (x : State) (f : FeederIx) =>
    if v f < (feederAt u f).budget then shedWalk f x
    else if (feederAt u f).budget < v f then { x with passDue := true } else x
  let stored : State :=
    { u with arb := { u.arb with feeders := Vector.ofFn fun f => { feederAt u f with budget := v f } } }
  settled (next (next (next (next stored 0) 1) 2) 3) t

/-- A bay's defrost business ends at once (R145): it is QUEUED, SHED, or STARTING with its START unsent. -/
abbrev endsAtOnce (s : State) (b : Bay) : Prop :=
  (bayAt s b).defrost.state = .queued ∨ (bayAt s b).defrost.state = .shed
    ∨ ((bayAt s b).defrost.state = .starting ∧ startWaits s b)

/-- The table of R145 for bay b in a change from s to t, `r` being the event's reason and `o` its outcome: every defrost
state, on a stack or off it, DEPARTING (R9) or not. -/
def businessEnded (r : StopReason) (o : DefrostOutcome) (s t : State) (b : Bay) : Prop :=
  (((bayAt s b).defrost.state = .idle ∨ (bayAt s b).defrost.state = .hung) →
      (bayAt t b).defrost = (bayAt s b).defrost)
  ∧ (endsAtOnce s b → inNoCollection t b
      ∧ ((bayAt s b).occupancy = .departing → bayAt t b = emptiedRecord (bayAt s b))
      ∧ ((bayAt s b).occupancy ≠ .departing →
          (bayAt t b).defrost = afterOutcome s.run.settings.holdoff o (bayAt s b).defrost))
  ∧ ((bayAt s b).defrost.state = .starting → ¬ startWaits s b →
      (bayAt t b).defrost = { (bayAt s b).defrost with reason := some r })
  ∧ ((bayAt s b).defrost.state = .active →
      (bayAt t b).defrost = { (bayAt s b).defrost with state := .stopping, reason := some r, shedPending := false }
      ∧ b ∉ t.arb.active ∧ (noOrder s b → stopOnItsWay t b))
  ∧ ((bayAt s b).defrost.state = .stopping → ¬ onAStack s b →
      (bayAt t b).defrost = { (bayAt s b).defrost with reason := some r })
  ∧ ((bayAt s b).defrost.state = .stopping → onAStack s b →
      (bayAt t b).defrost = (bayAt s b).defrost
      ∧ ∀ f, ((∃ e ∈ (feederAt s f).stack, e.bay = b) → ∃ e ∈ (feederAt t f).stack, e.bay = b)
          ∧ ∀ e ∈ (feederAt t f).stack, e.bay = b → e.ended = some r)

/-! ## Alerts -/

/-- An alert unit after a raise (R151, R153): the element is in the category's set and the latch is set; nothing else
changes but the lines, each asserted exactly when a category is eligible for its station. -/
def raised (mode : Nesting) (c : Category) (e : Element) (u v : AlertUnit) : Prop :=
  (catAt v c).latch = true ∧ (∀ x, x ∈ (catAt v c).pending ↔ x ∈ (catAt u c).pending ∨ x = e)
    ∧ (∀ d, d ≠ c → catAt v d = catAt u d)
    ∧ (∀ st, (alertAt v st).mask = (alertAt u st).mask ∧ (alertAt v st).stack = (alertAt u st).stack
        ∧ (alertAt v st).silence = (alertAt u st).silence)
    ∧ ∀ st, (alertAt v st).line = true ↔ ∃ d, eligible mode v st d = true

/-- The number of a category, lower for a higher priority (R150, R172). -/
def numberOf : Category → Nat
  | .power => 1
  | .door => 2
  | .frost => 3
  | .fuel => 4
  | .link => 5
  | .check => 6

/-- A category is eligible for a station (R153): latched, not masked there, in service nowhere, and past the nesting test
(R154). -/
def mayTake (mode : Nesting) (u : AlertUnit) (st : Station) (c : Category) : Prop :=
  (catAt u c).latch = true ∧ c ∉ (alertAt u st).mask ∧ (∀ o, ∀ e ∈ (alertAt u o).stack, e.category ≠ c)
    ∧ ∀ top ∈ (alertAt u st).stack.head?, mode = .nested ∧ numberOf c < numberOf top.category

/-- Masks, service stacks and silence counts of every station are those of before. -/
def sameStations (u v : AlertUnit) : Prop :=
  ∀ st, (alertAt v st).mask = (alertAt u st).mask ∧ (alertAt v st).stack = (alertAt u st).stack
    ∧ (alertAt v st).silence = (alertAt u st).silence

/-- The conditions of R103 on a record, in a run state. -/
abbrev timed (x : RunState) (r : BayRecord) : Prop :=
  r.door.confirmed = .opened ∧ x = .running ∧ r.link = .ok ∧ r.occupancy = .parked

end Sys2Proof.Claims

open Sys2Proof Sys2Proof.Machine Sys2Proof.Claims

/-! ## The block's step -/

/-- One step carries out the command at the front of the queue, with the queue's rest; with an empty queue the block
idles. The queue is the model's (notes/assumptions/1.md). -/
def Obligations.StepRunsFrontOrIdles : Prop :=
  (∀ (c : Instr) (rest : List Instr) (s : State), s.pending = c :: rest → step s = exec c { s with pending := rest })
    ∧ ∀ s : State, s.pending = [] → step s = .next s

/-- Each command ends in a next state, and no command's effect touches the queue of waiting commands. The queue, kept by
RESET too, is the model's choice (notes/assumptions/1.md); so is that a row whose moment has not come still ends in a next
state, the state as it was (notes/assumptions/5.md). -/
def Obligations.ExecCompletesAndKeepsQueue : Prop :=
  ∀ (c : Instr) (s : State), ∃ t, exec c s = .next t ∧ t.pending = s.pending

/-! ## RESET -/

/-- RESET: run controller, settings, loop controller, feeders, queue, active list, alert unit and port hold their reset
values (R22, R31, R36, R109, R116, R129, R150, R167), the base address that of the strap (R162). -/
def Obligations.ResetEmptiesEveryBlock : Prop :=
  ∀ (high : Bool) (s : State), ∃ t, exec (.reset high) s = .next t
    ∧ t.run = { state := .setup, second := 0, minutePhase := .none, yardMinute := 0,
                settings := { pollPeriod := 30, lossLimit := 4, alpha := 64, deadBand := 5, frostGain := 96,
                              doorGain := 40, meltGain := 32, demandThreshold := 45000, tmax := 45, holdoff := 60,
                              doorLimit := 300, fuelMargin := 120, lowFuel := 200, nesting := .nested,
                              enables := { invalid := true, range := true, saturate := false, norate := false } } }
    ∧ t.loop = { exchange := none, orders := [], orderRun := 0, round := none, nextRound := none, overruns := 0,
                 lde := false, ltx := [] }
    ∧ (∀ f, feederAt t f = { budget := 0, stack := [], nearFull := false, overflow := false })
    ∧ t.arb.queue = [] ∧ t.arb.active = []
    ∧ (∀ c, catAt t.alert c = { latch := false, pending := [] })
    ∧ (∀ st, alertAt t.alert st = { mask := [], stack := [], silence := 0, line := false })
    ∧ t.port.assembly = none ∧ (∀ st, slotAt t st = { inProgress := false, reply := { code := .noRequest, data := [] } })
    ∧ (∀ st, stationAddress t st = (if high then 0x4C else 0x44) + slotNumber st - 1)

/-- R2: every record after RESET, the record of a bay that becomes VACANT, and the absent markers a station then reads in
the four views (the byte 0 of a clear flag and of unnamed bits is the model's choice, notes/assumptions/15.md). -/
def Obligations.ResetAndVacancyEmptyRecords : Prop :=
  (∀ (high : Bool) (s : State), ∃ t, exec (.reset high) s = .next t ∧ ∀ b, bayAt t b = resetRecord 0 none 16)
    ∧ (∀ (s : State) (b : Bay), bayAt (becomeVacant b s) b = emptiedRecord (bayAt s b)
        ∧ ∀ c, c ≠ b → bayAt (becomeVacant b s) c = bayAt s c)
    ∧ ∀ b : Bay,
        bayView .ident b (resetRecord 0 none 16) = [bayByte b, 0, 0, 0, 0, 0, 0, 0, 0, 0, 0, 0, 0, 0, 0, 0, 0, 16, 0, 0,
          0, 0, 0, 0]
        ∧ bayView .telemetry b (resetRecord 0 none 16) = [bayByte b, 1, 0, 0, 0, 0, 0, 0, 0, 0, 0, 0, 0, 0, 0, 0]
        ∧ bayView .checks b (resetRecord 0 none 16) = [bayByte b, 2, 0, 0, 0, 0, 0, 0, 0, 0, 0, 0, 0, 0, 0, 0, 0, 0, 0,
          0, 0xFF, 0xFF, 0, 0, 0, 0, 0, 0, 0, 0, 0, 0, 0, 0, 0, 0, 0]
        ∧ bayView .defrost b (resetRecord 0 none 16) = [bayByte b, 3, 0, 0, 0, 0, 0, 0, 0, 0, 0, 0]

/-! ## The cabinet port -/

/-- Checks 1 to 4 of R168 in order, for every closed write of a kind byte and arguments: OVERLONG, UNKNOWN-KIND,
REFUSED-ROLE by the table of R169, BAD-LENGTH by the counts of R172. Nothing in the part changes but the station's silence
count and reply buffer. UNKNOWN_KIND and OVERLONG as commands of their own answer so too (R164, R168). -/
def Obligations.RequestsCheckedInOrder : Prop :=
  (∀ (st : Station) (kind : Byte) (args : List Byte) (c : Instr) (s : State),
    commandOfWrite st (kind :: args) = some c →
      (31 < args.length → exec c s = .next (told st .overlong [] s))
      ∧ (args.length ≤ 31 → (∀ k, kind ≠ BitVec.ofNat 8 (code k)) → exec c s = .next (told st .unknownKind [] s))
      ∧ ∀ k, kind = BitVec.ofNat 8 (code k) → args.length ≤ 31 →
          (mayAsk k st = false → exec c s = .next (told st .refusedRole [] s))
          ∧ (mayAsk k st = true → args.length ≠ argBytes k → exec c s = .next (told st .badLength [] s)))
  ∧ (∀ (st : Station) (kind : Byte) (args : List Byte) (s : State), (∀ k, kind ≠ BitVec.ofNat 8 (code k)) →
      args.length ≤ 31 → exec (.unknownKind st kind args) s = .next (told st .unknownKind [] s))
  ∧ ∀ (st : Station) (bytes : List Byte) (s : State), 32 < bytes.length →
      exec (.overlong st bytes) s = .next (told st .overlong [] s)

/-- Every request a station write makes: the station's silence count becomes 0, its request is answered, only DONE carries
data, and no other station's reply buffer, request in progress, silence count, mask or service stack changes; nor does a write
that has been opened at any address since, which goes on byte by byte (R163, R165), or the base address (R162). -/
def Obligations.RequestsKeepOtherStations : Prop :=
  ∀ (i : Instr) (st : Station) (bytes : List Byte) (s t : State),
    wellFormed i = true → writeOfCommand i = some (st, bytes) → exec i s = .next t →
      (alertAt t.alert st).silence = 0 ∧ (slotAt t st).inProgress = false
      ∧ ((slotAt t st).reply.code ≠ .done → (slotAt t st).reply.data = [])
      ∧ t.port.assembly = s.port.assembly ∧ t.port.addrHigh = s.port.addrHigh
      ∧ ∀ other, other ≠ st → slotAt t other = slotAt s other
          ∧ (alertAt t.alert other).silence = (alertAt s.alert other).silence
          ∧ (alertAt t.alert other).mask = (alertAt s.alert other).mask
          ∧ (alertAt t.alert other).stack = (alertAt s.alert other).stack

/-- The bus side of a write at a station's address, byte by byte: the first 32 bytes are acknowledged; closed whole it makes
the command of its bytes, closed in the middle of a byte or without a byte it makes none (past 32 bytes too, the model's
choice of notes/assumptions/14.md), past 32 bytes it makes OVERLONG (R162 to R164). The read side: which addresses are
acknowledged (R162), the bytes a read returns (R166), and for which station the clock is stretched, from the taking of its
request to the writing of its reply (R165). -/
def Obligations.BusWriteMakesItsCommand : Prop :=
  (∀ (s : State) (a : Nat) (isRead : Bool), acknowledges s a isRead = true
      ↔ (∃ st, a = (if s.port.addrHigh then 0x4C else 0x44) + slotNumber st - 1) ∨ (a = 0 ∧ isRead = false))
  ∧ (∀ (s : State) (a : Nat), acknowledges s a false = false → openWrite a s = s)
  ∧ (∀ (s : State) (st : Station) (i : Nat), replyByte s st i =
      if i = 0 then resultByteOf (slotAt s st).reply.code
      else if i = 1 then BitVec.ofNat 8 (slotAt s st).reply.data.length
      else (slotAt s st).reply.data.getD (i - 2) 0xFF)
  ∧ (∀ (s : State) (st o : Station) (x : Reply),
      (stretchesClock (receiveRequest st s) o = true ↔ o = st ∨ stretchesClock s o = true)
      ∧ (stretchesClock (writeReply st x s) o = true ↔ o ≠ st ∧ stretchesClock s o = true))
  ∧ ∀ (s : State) (st : Station) (bytes : List Byte),
    let filled := bytes.foldl (fun t x => (writeByte x t).2) (openWrite (stationAddress s st) s)
    let closed : State := { s with port := { s.port with assembly := none } }
    stationAddress s st = (if s.port.addrHigh then 0x4C else 0x44) + slotNumber st - 1
    ∧ (∀ x : Byte, (writeByte x filled).1 = decide (bytes.length < 32))
    ∧ (closeWrite false filled = (none, closed))
    ∧ (bytes = [] → closeWrite true filled = (none, closed))
    ∧ (bytes ≠ [] → bytes.length ≤ 32 → closeWrite true filled = (commandOfWrite st bytes, closed))
    ∧ (32 < bytes.length → ∃ sent, 32 < sent.length ∧ closeWrite true filled = (some (.overlong st sent), closed))

/-- The write that makes a command, taken again, makes that command: no argument byte is dropped or moved (R163, R172). -/
def Obligations.WriteRoundTrip : Prop :=
  ∀ (i : Instr) (st : Station) (bytes : List Byte),
    wellFormed i = true → writeOfCommand i = some (st, bytes) → commandOfWrite st bytes = some i

/-- A general-call write acts on the four budgets only as an all-feeders FEEDER BUDGET of correct form; any other leaves
the whole part as it is, and so does one that changes no budget. A lowered budget brings its shedding walk and a raised one
a grant pass (R113). No reply buffer and no silence count changes (R170). -/
def Obligations.GeneralCallActsOnBudgetsOnly : Prop :=
  (∀ (bytes : List Byte) (s : State), (bytes.head? ≠ some 0x23 ∨ bytes.length ≠ 9) →
      exec (.generalCallWrite bytes) s = .next s)
    ∧ ∀ (a1 a0 b1 b0 c1 c0 d1 d0 : Byte) (s : State), ∃ t,
        exec (.generalCallWrite [0x23, a1, a0, b1, b0, c1, c0, d1, d0]) s = .next t
        ∧ (feederAt t 0).budget = min (number a1 a0) 250 ∧ (feederAt t 1).budget = min (number b1 b0) 250
        ∧ (feederAt t 2).budget = min (number c1 c0) 250 ∧ (feederAt t 3).budget = min (number d1 d0) 250
        ∧ t.port = s.port ∧ sameStations s.alert t.alert ∧ t.run.settings = s.run.settings
        ∧ ((∀ f, (feederAt t f).budget = (feederAt s f).budget) → t = s)
        ∧ ((∃ f, (feederAt t f).budget ≠ (feederAt s f).budget) →
            budgetChange (fun f => (feederAt t f).budget) s t)

/-! ## Wire formats of the bay loop -/

/-- The check byte of R175: over a frame's covered bytes and their check byte the register ends at 0; a frame with one
covered byte exchanged for another has another check byte; and the two request frames are those of R174. -/
def Obligations.CheckByteCatchesOneByte : Prop :=
  (∀ bytes : List Byte, checkByte (bytes ++ [checkByte bytes]) = 0)
    ∧ (∀ (pre post : List Byte) (x y : Byte), x ≠ y → checkByte (pre ++ x :: post) ≠ checkByte (pre ++ y :: post))
    ∧ (∀ b, requestFrame b .poll = [0xC3, bayByte b, 0x01, checkByte [bayByte b, 0x01]])
    ∧ (∀ b, requestFrame b (.order .stop) = [0xC3, bayByte b, 0x03, 0x00, checkByte [bayByte b, 0x03, 0x00]])
    ∧ ∀ b (resume : Bool), requestFrame b (.order (.start resume))
        = [0xC3, bayByte b, 0x02, if resume then 0x01 else 0x00,
           checkByte [bayByte b, 0x02, if resume then 0x01 else 0x00]]

namespace Sys2Proof.Claims

/-- The code bytes of a TELEMETRY frame (R174). -/
def modeByte : Mode → Byte
  | .off => 0
  | .cool => 1
  | .heat => 2
  | .defrost => 3
  | .fault => 4

/-- Run source byte (R174). -/
def sourceByte : Source → Byte
  | .shore => 0
  | .diesel => 1

/-- Door report byte (R174). -/
def doorByte : DoorReport → Byte
  | .closed => 0
  | .opened => 1
  | .nar => 3

/-- Result byte of an ORDER-ACK (R174). -/
def ackByte : AckResult → Byte
  | .taken => 0
  | .refusedWarm => 1
  | .refusedDoor => 2
  | .refusedFault => 3
  | .stopped => 4

/-- The covered bytes of the TELEMETRY reply of a bay (R174). -/
def telemetryBytes (b : Bay) (x : Snapshot) : List Byte :=
  [bayByte b, 0x81, modeByte x.mode, sourceByte x.source, doorByte x.door] ++ two x.tc.toNat ++ two x.tr.toNat
    ++ two x.p.toNat

/-- The covered bytes of a TELEMETRY reply with any three bytes in the places of its coded fields. -/
def codedBytes (b : Bay) (m src d : Byte) (x : Snapshot) : List Byte :=
  [bayByte b, 0x81, m, src, d] ++ two x.tc.toNat ++ two x.tr.toNat ++ two x.p.toNat

/-- Bytes of which one is outside the domain of its coded field (R39, R174). -/
abbrev outsideCodes (m src d : Byte) : Prop := 4 < m.toNat ∨ 1 < src.toNat ∨ d.toNat = 2 ∨ 3 < d.toNat

/-- The covered bytes of an ORDER-ACK of a bay (R174). -/
def ackBytes (b : Bay) (r : AckResult) : List Byte := [bayByte b, 0x82, ackByte r]

/-- A reply frame as sent: sync byte, covered bytes, a check byte, every stop bit there. -/
def replyChars (covered : List Byte) (check : Byte) : List RxChar :=
  (0xC3 :: covered ++ [check]).map fun x => ⟨x, true⟩

/-- The results allowed for an order (R39). -/
abbrev allowedFor : OrderKind → AckResult → Prop
  | .start _, r => r ≠ .stopped
  | .stop, r => r = .stopped

/-- Characters of which none opens a frame (R38). -/
abbrev noSync (noise : List RxChar) : Prop := ∀ c ∈ noise, ¬ (c.byte = 0xC3 ∧ c.stopOk = true)

end Sys2Proof.Claims

/-- A TELEMETRY reply sent whole, with any characters that open no frame before it and any after it, is assembled and
judged ANSWERED with the six fields as sent; with another check byte BAD-CHECK; answering for another bay, or with a coded field
outside its domain, WRONG-REPLY (R38, R39, R174). -/
def Obligations.TelemetryReplyRoundTrip : Prop :=
  ∀ (b : Bay) (x : Snapshot) (noise after : List RxChar) (phase : Phase) (voided : Bool), noSync noise →
    let covered := telemetryBytes b x
    let frame := replyChars covered (checkByte covered)
    assembleReply (noise ++ frame ++ after) = .complete .telemetry frame
    ∧ judge ⟨b, .poll, phase, voided⟩ .telemetry frame = .telemetry x
    ∧ (∀ check, check ≠ checkByte covered →
        assembleReply (noise ++ replyChars covered check ++ after) = .complete .telemetry (replyChars covered check)
        ∧ judge ⟨b, .poll, phase, voided⟩ .telemetry (replyChars covered check) = .failed .badCheck)
    ∧ (∀ c : Bay, c ≠ b → judge ⟨c, .poll, phase, voided⟩ .telemetry frame = .failed .wrongReply)
    ∧ (∀ o, judge ⟨b, .order o, phase, voided⟩ .telemetry frame = .failed .wrongReply)
    ∧ ∀ m src d, outsideCodes m src d →
        let other := replyChars (codedBytes b m src d x) (checkByte (codedBytes b m src d x))
        assembleReply (noise ++ other ++ after) = .complete .telemetry other
        ∧ judge ⟨b, .poll, phase, voided⟩ .telemetry other = .failed .wrongReply

/-- An ORDER-ACK sent whole is assembled and judged ANSWERED with its result when that is allowed for the order sent,
WRONG-REPLY when it is not or when it answers a POLL, and BAD-CHECK when any character after the sync byte lacks its
stop bit (R38, R39, R174). -/
def Obligations.OrderAckRoundTrip : Prop :=
  ∀ (b : Bay) (r : AckResult) (o : OrderKind) (noise after : List RxChar) (phase : Phase) (voided : Bool), noSync noise →
    let covered := ackBytes b r
    let frame := replyChars covered (checkByte covered)
    assembleReply (noise ++ frame ++ after) = .complete .orderAck frame
    ∧ (allowedFor o r → judge ⟨b, .order o, phase, voided⟩ .orderAck frame = .ack r)
    ∧ (¬ allowedFor o r → judge ⟨b, .order o, phase, voided⟩ .orderAck frame = .failed .wrongReply)
    ∧ judge ⟨b, .poll, phase, voided⟩ .orderAck frame = .failed .wrongReply
    ∧ ∀ (k : Nat) (c : RxChar), 1 ≤ k → frame[k]? = some c →
        judge ⟨b, .order o, phase, voided⟩ .orderAck (frame.set k { c with stopOk := false }) = .failed .badCheck

/-! ## Reading requests -/

namespace Sys2Proof.Claims

/-! ## The views of READ BAY (R173) -/

/-- Occupancy byte. -/
def occupancyByte : Occupancy → Byte
  | .vacant => 0
  | .arriving => 1
  | .parked => 2
  | .departing => 3
  | .outOfService => 4

/-- Slot byte, 0 when absent. -/
def ownerByte : Option Station → Byte
  | none => 0
  | some .office => 1
  | some .feeder => 2
  | some .gate => 3
  | some .service => 4

/-- Link byte. -/
def linkByte : Link → Byte
  | .new => 0
  | .ok => 1
  | .lost => 2

/-- Byte of a last exchange outcome. -/
def exchangeByte : ExchangeOutcome → Byte
  | .none => 0
  | .answered => 1
  | .noReply => 2
  | .badCheck => 3
  | .wrongReply => 4

/-- The set byte of the four conditions. -/
def condsByteOf (c : Conds) : Byte := flags c.invalid c.range c.saturate c.norate

/-- Confirmed door byte. -/
def confirmedByte : DoorState → Byte
  | .unknown => 0
  | .closed => 1
  | .opened => 2

/-- The pending report and its agree count, which is 1 with a report and 0 without (R99). -/
def pendingBytes : Option DoorPos → List Byte
  | none => [0, 0]
  | some .closed => [1, 1]
  | some .opened => [2, 1]

/-- Defrost state byte. -/
def stateByte : DefrostState → Byte
  | .idle => 0
  | .queued => 1
  | .starting => 2
  | .active => 3
  | .stopping => 4
  | .shed => 5
  | .hung => 6

/-- Stop reason byte. -/
def reasonByte : Option StopReason → Byte
  | none => 0
  | some .shed => 1
  | some .overflow => 2
  | some .door => 3
  | some .depart => 4
  | some .hold => 5
  | some .timeout => 6
  | some .withdraw => 7
  | some .halt => 8
  | some .link => 9
  | some .unconfirmed => 10

/-- Charge byte. -/
def chargeByte : Charge → Byte
  | .none => 0
  | .feeder f => feederByte f
  | .self => 5

/-- Origin byte. -/
def originByte : Option Origin → Byte
  | none => 0
  | some .estimate => 1
  | some .manual => 2

/-- Outcome byte. -/
def outcomeByte : Option DefrostOutcome → Byte
  | none => 0
  | some .complete => 1
  | some .timedOut => 2
  | some .failed => 3
  | some .notNeeded => 4
  | some .abortedDoor => 5
  | some .abortedDepart => 6
  | some .abortedHold => 7
  | some .abortedLink => 8
  | some .abortedOverflow => 9
  | some .withdrawn => 10
  | some .halted => 11
  | some .forced => 12
  | some .unconfirmed => 13

/-- A flag of a bay's record that R173 lays out as one byte without codes, shed-pending or door-alert-given: 0 for clear, 1 for
set. DESIGN CHOICE, notes/assumptions/15.md. -/
def bitByte (x : Bool) : Byte := if x then 1 else 0

/-- The reply data of READ BAY (R20, R21, R173): an absent field's presence bit is clear and its bytes are 0 (R171). -/
def viewBytes (b : Bay) (r : BayRecord) : View → List Byte
  | .ident =>
    [bayByte b, 0, occupancyByte r.occupancy] ++ r.ident.getD [0, 0, 0, 0, 0, 0, 0, 0]
      ++ [flags r.arrival.isSome r.departure.isSome false false] ++ two (r.arrival.getD 0) ++ two r.capacity
      ++ [match r.feeder with
          | none => 0
          | some f => feederByte f,
          BitVec.ofNat 8 r.draw]
      ++ two (r.departure.getD 0) ++ two r.permit
      ++ [flags r.hold.isSome r.fuelOrdered r.noDiesel false, ownerByte r.hold]
  | .telemetry =>
    [bayByte b, 1, linkByte r.link, BitVec.ofNat 8 r.missCount, exchangeByte r.lastExchange,
     BitVec.ofNat 8 r.roundsSince]
      ++ match r.snapshot with
        | none => [0, 0, 0, 0, 0, 0, 0, 0, 0, 0]
        | some x => [1, modeByte x.mode, sourceByte x.source, doorByte x.door] ++ two x.tc.toNat ++ two x.tr.toNat
            ++ two x.p.toNat
  | .checks =>
    [bayByte b, 2, condsByteOf r.causes, condsByteOf r.sticky,
     flags r.frost.s.isSome r.frost.b.isSome r.fuel.v.isSome r.fuel.vref.isSome]
      ++ signed (r.frost.s.getD 0) ++ signed (r.frost.b.getD 0) ++ [BitVec.ofNat 8 r.frost.k] ++ two r.frost.f
      ++ two (r.fuel.v.getD 0) ++ two (r.fuel.vref.getD 0) ++ two r.fuel.w ++ two r.fuel.r ++ two r.fuel.e
      ++ [flags r.fuel.low r.fuel.short false false, BitVec.ofNat 8 r.fuel.refuels, confirmedByte r.door.confirmed]
      ++ pendingBytes r.door.pending ++ two r.door.openSeconds ++ two r.door.lastOpen
      ++ [BitVec.ofNat 8 r.door.openings] ++ four r.door.totalOpen ++ [bitByte r.door.alertGiven]
  | .defrost =>
    [bayByte b, 3, stateByte r.defrost.state, reasonByte r.defrost.reason, chargeByte r.defrost.charge,
     BitVec.ofNat 8 r.defrost.draw, bitByte r.defrost.shedPending, BitVec.ofNat 8 r.defrost.elapsed,
     BitVec.ofNat 8 r.defrost.holdoff, originByte r.defrost.origin, outcomeByte r.defrost.outcome,
     BitVec.ofNat 8 r.defrost.count]

/-- View bytes (R172). -/
def viewByte : View → Byte
  | .ident => 0
  | .telemetry => 1
  | .checks => 2
  | .defrost => 3

end Sys2Proof.Claims

/-- READ BAY from any slot: DONE with the fields of R20 and R21 from the record as it stands, byte by byte in the layouts of
R173, absent fields as R171 gives; 24, 16, 37 and 12 bytes where the ident is absent or has its 8 characters; nothing else
changes. The bytes of shed-pending and door-alert-given, 0 or 1, and unnamed bits sent as 0 are the model's choice
(notes/assumptions/15.md). An unknown view or a bay outside 1..40 gives BAD-ARGUMENT. -/
def Obligations.ReadBayAnswersItsView : Prop :=
  ∀ (st : Station) (s : State),
    (∀ (b : Bay) (v : View),
        exec (.readBay st [bayByte b, viewByte v]) s = .next (told st .done (viewBytes b (bayAt s b) v) s)
        ∧ ((∀ i, (bayAt s b).ident = some i → i.length = 8) →
            (viewBytes b (bayAt s b) v).length = (match v with
              | .ident => 24
              | .telemetry => 16
              | .checks => 37
              | .defrost => 12)))
    ∧ ∀ x v : Byte, (noBay x ∨ 4 ≤ v.toNat) → exec (.readBay st [x, v]) s = .next (told st .badArgument [] s)

/-- READ FEEDER, READ QUEUE and READ ACTIVE from any slot: the fields of R126, R127 and R130 in the layouts of R173, with
at most 12 and 10 entries from the first place; nothing else changes; arguments outside their domains give
BAD-ARGUMENT. The byte of shed-pending, 0 or 1, and unnamed bits sent as 0 are the model's choice (notes/assumptions/15.md). -/
def Obligations.ReadFeederQueueActiveAnswer : Prop :=
  ∀ (st : Station) (s : State),
    (∀ f : FeederIx, exec (.readFeeder st [feederByte f]) s = .next (told st .done
        ([feederByte f, BitVec.ofNat 8 (feederAt s f).budget] ++ two (committed s f)
          ++ [BitVec.ofNat 8 (admitted s f), BitVec.ofNat 8 (feederAt s f).stack.length,
              BitVec.ofNat 8 ((if (feederAt s f).nearFull then 1 else 0) + (if (feederAt s f).overflow then 2 else 0))]
          ++ (feederAt s f).stack.reverse.flatMap fun e =>
              [bayByte e.bay, if (bayAt s e.bay).defrost.state = .shed then 0 else 1,
               BitVec.ofNat 8 (bayAt s e.bay).defrost.draw]) s))
    ∧ (∀ p : Byte, 1 ≤ p.toNat → p.toNat ≤ 40 → exec (.readQueue st [p]) s = .next (told st .done
        ([BitVec.ofNat 8 s.arb.queue.length, p] ++ ((s.arb.queue.drop (p.toNat - 1)).take 12).flatMap fun q =>
          [bayByte q.bay, match q.origin with
            | .estimate => 1
            | .manual => 2] ++ two q.joined ++ [BitVec.ofNat 8 q.passOver]) s))
    ∧ (∀ p : Byte, 1 ≤ p.toNat → p.toNat ≤ 40 → exec (.readActive st [p]) s = .next (told st .done
        ([BitVec.ofNat 8 s.arb.active.length, p] ++ ((s.arb.active.drop (p.toNat - 1)).take 10).flatMap fun b =>
          [bayByte b, BitVec.ofNat 8 (defrostStateCode (bayAt s b).defrost.state),
           BitVec.ofNat 8 (chargeCode (bayAt s b).defrost.charge), BitVec.ofNat 8 (bayAt s b).defrost.draw,
           if (bayAt s b).defrost.shedPending then 1 else 0, BitVec.ofNat 8 (bayAt s b).defrost.elapsed]) s))
    ∧ (∀ x : Byte, noFeeder x → exec (.readFeeder st [x]) s = .next (told st .badArgument [] s))
    ∧ ∀ p : Byte, noBay p → exec (.readQueue st [p]) s = .next (told st .badArgument [] s)
        ∧ exec (.readActive st [p]) s = .next (told st .badArgument [] s)

/-- READ YARD from any slot: the fourteen bytes of R173 with the counts of R30, and the five occupancy counts sum to 40;
nothing else changes. -/
def Obligations.ReadYardAnswersCounts : Prop :=
  ∀ (st : Station) (s : State),
    exec (.readYard st []) s = .next (told st .done
      (([match s.run.state with
          | .setup => 0
          | .running => 1
          | .halting => 2
          | .halted => 3] : List Byte) ++ two s.run.yardMinute
        ++ [BitVec.ofNat 8 s.run.second,
            BitVec.ofNat 8 (howMany (fun r => r.occupancy = .vacant) s),
            BitVec.ofNat 8 (howMany (fun r => r.occupancy = .arriving) s),
            BitVec.ofNat 8 (howMany (fun r => r.occupancy = .parked) s),
            BitVec.ofNat 8 (howMany (fun r => r.occupancy = .departing) s),
            BitVec.ofNat 8 (howMany (fun r => r.occupancy = .outOfService) s),
            BitVec.ofNat 8 (howMany (fun r => r.defrost.state = .starting ∨ r.defrost.state = .stopping) s),
            BitVec.ofNat 8 (howMany (fun r => r.defrost.state = .hung) s), BitVec.ofNat 8 s.loop.orders.length]
        ++ two s.loop.overruns) s)
    ∧ howMany (fun r => r.occupancy = .vacant) s + howMany (fun r => r.occupancy = .arriving) s
        + howMany (fun r => r.occupancy = .parked) s + howMany (fun r => r.occupancy = .departing) s
        + howMany (fun r => r.occupancy = .outOfService) s = 40

/-! ## Requests of the bay table -/

/-- ARRIVE from GATE at a VACANT bay with a well-formed ident no other bay holds: the bay is ARRIVING with the ident, the
yard minute, the capacity and the departure countdown stored as R4 and R11 give; every other bay, the run controller, the
feeders, the queue and the active list stay, and so does the loop while an exchange holds it. -/
def Obligations.ArriveEnrols : Prop :=
  ∀ (s : State) (b : Bay) (i0 i1 i2 i3 i4 i5 i6 i7 c1 c0 d1 d0 : Byte),
    let i := [i0, i1, i2, i3, i4, i5, i6, i7]
    let c := number c1 c0
    let d := number d1 d0
    (bayAt s b).occupancy = .vacant → identForm i →
    (∀ x, x ≠ b → (bayAt s x).occupancy ≠ .vacant → (bayAt s x).ident ≠ some i) →
    ∃ t, exec (.arrive .gate [bayByte b, i0, i1, i2, i3, i4, i5, i6, i7, c1, c0, d1, d0]) s = .next t
      ∧ bayAt t b = { bayAt s b with
          occupancy := .arriving, ident := some i, arrival := some s.run.yardMinute,
          capacity := if c = 65535 then (bayAt s b).capacity else tank c,
          departure := if d = 65535 then none else some (min d 4095) }
      ∧ (∀ x, x ≠ b → bayAt t x = bayAt s x)
      ∧ (slotAt t .gate).reply
          = ⟨doneUnless ((c ≠ 65535 ∧ tank c ≠ c) ∨ (d ≠ 65535 ∧ 4095 < d)), []⟩
      ∧ t.run = s.run ∧ t.arb = s.arb ∧ t.alert = (told .gate .done [] s).alert
      ∧ (s.loop.exchange.isSome = true → t.loop = s.loop)

/-- ARRIVE refused, in the order of R4: a bay outside 1..40 or a malformed ident; a bay that is not VACANT; an ident that
another bay that is not VACANT holds. Nothing changes. -/
def Obligations.ArriveRefusedInOrder : Prop :=
  ∀ (s : State) (x i0 i1 i2 i3 i4 i5 i6 i7 c1 c0 d1 d0 : Byte),
    let i := [i0, i1, i2, i3, i4, i5, i6, i7]
    let arrive := Instr.arrive .gate [x, i0, i1, i2, i3, i4, i5, i6, i7, c1, c0, d1, d0]
    ((noBay x ∨ ¬ identForm i) → exec arrive s = .next (told .gate .badArgument [] s))
    ∧ ∀ b : Bay, x = bayByte b → identForm i →
        (((bayAt s b).occupancy ≠ .vacant
            ∨ ∃ y, y ≠ b ∧ (bayAt s y).occupancy ≠ .vacant ∧ (bayAt s y).ident = some i) →
          exec arrive s = .next (told .gate .refusedState [] s))

/-- DEPART from GATE, by the table of R8, in every run state: an IDLE or HUNG bay, and one whose business ends at once, becomes
VACANT with its bay data kept, and where that clears a NO-DIESEL-DEFROST or gives back a draw a grant pass follows in RUNNING
(R18, R120; the mark cleared with the record counts by notes/assumptions/13.md); in HALTING the change enters HALTED exactly
under the conditions of R25; an ACTIVE bay becomes DEPARTING and STOPPING with reason DEPART; a STARTING bay whose START is sent, and a
STOPPING bay off the stacks, become DEPARTING with the reason written; a STOPPING bay on a stack becomes DEPARTING with
the end recorded on its entry; a bay of another occupancy is refused. -/
def Obligations.DepartFollowsDefrostState : Prop :=
  (∀ (s : State) (b : Bay), atRest s →
      ((bayAt s b).occupancy = .arriving ∨ (bayAt s b).occupancy = .parked) →
      ∃ t, exec (.depart .gate [bayByte b]) s = .next t ∧ (slotAt t .gate).reply = ⟨.done, []⟩
        ∧ ((bayAt s b).defrost.state = .idle →
            let passes := s.run.state = .running ∧ (bayAt s b).noDiesel = true
            bayAt t b = emptiedRecord (bayAt s b) ∧ (¬ passes → t.arb = s.arb)
            ∧ (∀ c, c ≠ b → ¬ passes → t.run.state = s.run.state → bayAt t c = bayAt s c)
            ∧ (∀ c, c ≠ b → t.run.state ≠ s.run.state → bayAt t c = { bayAt s c with door := doorLost (bayAt s c).door })
            ∧ settled { withBayRecord b (emptiedRecord (bayAt s b)) (taking .gate s) with
                passDue := (bayAt s b).noDiesel } t)
        ∧ (s.run.state = .halting → (t.run.state = .halted ↔ haltReady t) ∧ (t.run.state ≠ .halted → t.run = s.run))
        ∧ (s.run.state ≠ .halting → t.run = s.run)
        ∧ ((bayAt s b).defrost.state = .hung → inNoCollection s b → bayAt t b = emptiedRecord (bayAt s b))
        ∧ ((bayAt s b).defrost.state = .hung → settled (departHung b (taking .gate s)) t
            ∧ ∀ f, (bayAt s b).defrost.charge = .feeder f → (departHung b (taking .gate s)).passDue = true)
        ∧ (((bayAt s b).defrost.state = .queued ∨ (bayAt s b).defrost.state = .shed
              ∨ ((bayAt s b).defrost.state = .starting ∧ startWaits s b)) →
            bayAt t b = emptiedRecord (bayAt s b) ∧ inNoCollection t b)
        ∧ ((bayAt s b).defrost.state = .active → noOrder s b →
            (bayAt t b).occupancy = .departing ∧ (bayAt t b).defrost.state = .stopping
            ∧ (bayAt t b).defrost.reason = some .depart ∧ b ∉ t.arb.active ∧ stopOnItsWay t b)
        ∧ ((bayAt s b).defrost.state = .starting → ¬ startWaits s b →
            (bayAt t b).occupancy = .departing
            ∧ (bayAt t b).defrost = { (bayAt s b).defrost with reason := some .depart })
        ∧ ((bayAt s b).defrost.state = .stopping → ¬ onAStack s b →
            (bayAt t b).occupancy = .departing
            ∧ (bayAt t b).defrost = { (bayAt s b).defrost with reason := some .depart })
        ∧ ((bayAt s b).defrost.state = .stopping → onAStack s b →
            (bayAt t b).occupancy = .departing ∧ (bayAt t b).defrost = (bayAt s b).defrost
            ∧ ∀ f, (feederAt t f).stack = (feederAt s f).stack.map fun e =>
                if e.bay = b then { e with ended := some .depart } else e))
    ∧ (∀ (s : State) (b : Bay), (bayAt s b).occupancy ≠ .arriving → (bayAt s b).occupancy ≠ .parked →
        exec (.depart .gate [bayByte b]) s = .next (told .gate .refusedState [] s))
    ∧ ∀ (s : State) (x : Byte), noBay x → exec (.depart .gate [x]) s = .next (told .gate .badArgument [] s)

/-- SET DEPARTURE from OFFICE or GATE (R13, R171): stored up to 4095, CLAMPED above, 0xFFFF makes D absent; a bay that is
neither ARRIVING nor PARKED is refused; nothing else changes. -/
def Obligations.SetDepartureStores : Prop :=
  ∀ (s : State) (st : Station), (st = .office ∨ st = .gate) →
    (∀ (b : Bay) (m1 m0 : Byte), ((bayAt s b).occupancy = .arriving ∨ (bayAt s b).occupancy = .parked) →
        exec (.setDeparture st [bayByte b, m1, m0]) s
          = .next (told st (doneUnless (number m1 m0 ≠ 65535 ∧ 4095 < number m1 m0)) []
              (withBayRecord b { bayAt s b with
                departure := if number m1 m0 = 65535 then none else some (min (number m1 m0) 4095) } s)))
    ∧ (∀ (b : Bay) (m1 m0 : Byte), (bayAt s b).occupancy ≠ .arriving → (bayAt s b).occupancy ≠ .parked →
        exec (.setDeparture st [bayByte b, m1, m0]) s = .next (told st .refusedState [] s))
    ∧ ∀ x m1 m0 : Byte, noBay x → exec (.setDeparture st [x, m1, m0]) s = .next (told st .badArgument [] s)

/-- R11: SET BAY DATA from OFFICE in every occupancy and every run state. The three values are stored with the treatment of
the table; on a bay that is not QUEUED nothing else changes, and on a QUEUED one a grant pass is made under the new data in
RUNNING (R120); a bay outside 1..40 or a feeder outside 0..4 gives
BAD-ARGUMENT and nothing changes. -/
def Obligations.SetBayDataStores : Prop :=
  (∀ (s : State) (b : Bay) (c1 c0 f a : Byte), f.toNat ≤ 4 →
      let c := number c1 c0
      let feeder : Option FeederIx := if h : 1 ≤ f.toNat ∧ f.toNat ≤ 4 then some ⟨f.toNat - 1, by omega⟩ else none
      let reply := doneUnless (tank c ≠ c ∨ drawOf a.toNat ≠ a.toNat)
      ∃ t, exec (.setBayData .office [bayByte b, c1, c0, f, a]) s = .next t
        ∧ (slotAt t .office).reply = ⟨reply, []⟩
        ∧ (bayAt t b).capacity = tank c ∧ (bayAt t b).feeder = feeder ∧ (bayAt t b).draw = drawOf a.toNat
        ∧ (∀ x, x ≠ b → (bayAt t x).capacity = (bayAt s x).capacity ∧ (bayAt t x).feeder = (bayAt s x).feeder
            ∧ (bayAt t x).draw = (bayAt s x).draw)
        ∧ ((bayAt s b).defrost.state ≠ .queued →
            t = told .office reply []
              (withBayRecord b { bayAt s b with capacity := tank c, feeder := feeder, draw := drawOf a.toNat } s))
        ∧ ((bayAt s b).defrost.state = .queued →
            settled { withBayRecord b { bayAt s b with capacity := tank c, feeder := feeder, draw := drawOf a.toNat }
                (taking .office s) with passDue := true } t))
    ∧ ∀ (s : State) (x c1 c0 f a : Byte), (noBay x ∨ 5 ≤ f.toNat) →
        exec (.setBayData .office [x, c1, c0, f, a]) s = .next (told .office .badArgument [] s)

/-- R10: CLOSE BAY and OPEN BAY from SERVICE, with the two orders in which a CLOSE BAY and an ARRIVE for the same VACANT
bay can be taken. -/
def Obligations.CloseAndOpenBay : Prop :=
  (∀ (s : State) (b : Bay), (bayAt s b).occupancy = .vacant →
      exec (.closeBay .service [bayByte b]) s
        = .next (told .service .done [] (withBayRecord b { bayAt s b with occupancy := .outOfService } s)))
    ∧ (∀ (s : State) (b : Bay), (bayAt s b).occupancy ≠ .vacant →
        exec (.closeBay .service [bayByte b]) s = .next (told .service .refusedState [] s))
    ∧ (∀ (s : State) (b : Bay), (bayAt s b).occupancy = .outOfService →
        ∃ t, exec (.openBay .service [bayByte b]) s = .next t
          ∧ (slotAt t .service).reply = ⟨.done, []⟩
          ∧ bayAt t b = emptiedRecord (bayAt s b) ∧ (∀ c, c ≠ b → bayAt t c = bayAt s c)
          ∧ t.run = s.run ∧ t.arb = s.arb ∧ t.loop.orders = s.loop.orders)
    ∧ (∀ (s : State) (b : Bay), (bayAt s b).occupancy ≠ .outOfService →
        exec (.openBay .service [bayByte b]) s = .next (told .service .refusedState [] s))
    ∧ (∀ (s : State) (x : Byte), noBay x →
        exec (.closeBay .service [x]) s = .next (told .service .badArgument [] s)
        ∧ exec (.openBay .service [x]) s = .next (told .service .badArgument [] s))
    ∧ (∀ (s t : State) (b : Bay) (i0 i1 i2 i3 i4 i5 i6 i7 c1 c0 d1 d0 : Byte), (bayAt s b).occupancy = .vacant →
        identForm [i0, i1, i2, i3, i4, i5, i6, i7] → exec (.closeBay .service [bayByte b]) s = .next t →
        exec (.arrive .gate [bayByte b, i0, i1, i2, i3, i4, i5, i6, i7, c1, c0, d1, d0]) t
          = .next (told .gate .refusedState [] t))
    ∧ ∀ (s t : State) (b : Bay) (args : List Byte), exec (.arrive .gate (bayByte b :: args)) s = .next t →
        (bayAt t b).occupancy = .arriving →
        exec (.closeBay .service [bayByte b]) t = .next (told .service .refusedState [] t)

namespace Sys2Proof.Claims

/-- The byte of a mark (R172). -/
def markByte : Mark → Byte
  | .hold => 0
  | .fuelOrdered => 1
  | .noDiesel => 2

/-- The permitted slots of each mark (R15). -/
def mayMark : Mark → Station → Bool
  | .hold => column true false false true
  | .fuelOrdered => column true false true false
  | .noDiesel => column true false false false

/-- Whether a record holds a mark. -/
def holdsMark (m : Mark) (r : BayRecord) : Bool :=
  match m with
  | .hold => r.hold.isSome
  | .fuelOrdered => r.fuelOrdered
  | .noDiesel => r.noDiesel

/-- A record with a mark set by a station (R16). -/
def markedBy (st : Station) (m : Mark) (r : BayRecord) : BayRecord :=
  match m with
  | .hold => { r with hold := if r.hold.isSome then r.hold else some st }
  | .fuelOrdered => { r with fuelOrdered := true }
  | .noDiesel => { r with noDiesel := true }

/-- A record with a mark cleared (R17). -/
def unmarked (m : Mark) (r : BayRecord) : BayRecord :=
  match m with
  | .hold => { r with hold := none }
  | .fuelOrdered => { r with fuelOrdered := false }
  | .noDiesel => { r with noDiesel := false }

/-- An enrolled bay: ARRIVING, PARKED or DEPARTING. -/
abbrev stands (r : BayRecord) : Prop := r.occupancy = .arriving ∨ r.occupancy = .parked ∨ r.occupancy = .departing

/-- The four MARK rows with their operation bytes (R172). -/
def markRow : MarkOp → Station → List Byte → Instr
  | .set => .markSet
  | .clear => .markClear
  | .testSet => .markTestSet
  | .testClear => .markTestClear

/-- Operation bytes (R172). -/
def opByte : MarkOp → Byte
  | .set => 0
  | .clear => 1
  | .testSet => 2
  | .testClear => 3

end Sys2Proof.Claims

/-- MARK with SET and TEST-SET on an enrolled bay (R16): SET replies DONE, TEST-SET DONE with the value before; the first
setter of HOLD becomes its owner and a later one changes nothing. Nothing else changes, but for a HOLD set from clear,
whose effect on the bay's defrost business is `HoldSetEndsBusiness`; a DEPARTING bay whose business that ends at once is
emptied. -/
def Obligations.MarkSetAndTestSet : Prop :=
  ∀ (s : State) (st : Station) (b : Bay) (m : Mark), stands (bayAt s b) → mayMark m st = true →
    ∃ t u, exec (.markSet st [bayByte b, 0, markByte m]) s = .next t
      ∧ exec (.markTestSet st [bayByte b, 2, markByte m]) s = .next u
      ∧ (slotAt t st).reply = ⟨.done, []⟩
      ∧ (slotAt u st).reply = ⟨.done, [if holdsMark m (bayAt s b) then 1 else 0]⟩
      ∧ (∀ x, bayAt u x = bayAt t x) ∧ u.arb = t.arb ∧ u.loop = t.loop
      ∧ (¬ (m = .hold ∧ (bayAt s b).occupancy = .departing ∧ endsAtOnce s b) → holdsMark m (bayAt t b) = true
          ∧ (bayAt t b).hold = (markedBy st m (bayAt s b)).hold)
      ∧ ((m ≠ .hold ∨ (bayAt s b).hold.isSome = true) →
          t = told st .done [] (withBayRecord b (markedBy st m (bayAt s b)) s))

/-- "Hold set" ends a bay's defrost business by the table of R145 with reason HOLD, shown by MARK SET of HOLD from clear on
an enrolled bay; a DEPARTING bay whose business ends at once becomes VACANT (R9), any other holds the mark. -/
def Obligations.HoldSetEndsBusiness : Prop :=
  ∀ (s : State) (st : Station) (b : Bay), (st = .office ∨ st = .service) → atRest s →
    stands (bayAt s b) → (bayAt s b).hold = none →
    ∃ t, exec (.markSet st [bayByte b, 0, 0]) s = .next t ∧ (slotAt t st).reply = ⟨.done, []⟩
      ∧ businessEnded .hold .abortedHold s t b
      ∧ (¬ ((bayAt s b).occupancy = .departing ∧ endsAtOnce s b) → (bayAt t b).hold = some st)
      ∧ (((bayAt s b).defrost.state = .idle ∨ (bayAt s b).defrost.state = .hung) → t.arb = s.arb)
      ∧ ((bayAt s b).defrost.state = .starting → ¬ startWaits s b → t.arb = s.arb)
      ∧ ((bayAt s b).defrost.state = .active → t.arb.active = s.arb.active.filter (fun x => x ≠ b))
      ∧ ((bayAt s b).defrost.state = .stopping → ¬ onAStack s b → t.arb = s.arb)
      ∧ ((bayAt s b).defrost.state = .stopping → onAStack s b →
          ∀ f, (feederAt t f).stack = (feederAt s f).stack.map fun e =>
              if e.bay = b then { e with ended := some .hold } else e)

/-- MARK with CLEAR and TEST-CLEAR on an enrolled bay (R17): HOLD set by another station is refused REFUSED-OWNER and
stays; otherwise the mark is clear, CLEAR replies DONE and TEST-CLEAR DONE with the value before. Nothing else changes,
but for a NO-DIESEL-DEFROST cleared from set, after which a grant pass is made in RUNNING (R18, R120). -/
def Obligations.MarkClearAndTestClear : Prop :=
  ∀ (s : State) (st : Station) (b : Bay) (m : Mark), stands (bayAt s b) → mayMark m st = true →
    (m = .hold → (∃ owner, (bayAt s b).hold = some owner ∧ owner ≠ st) →
      exec (.markClear st [bayByte b, 1, markByte m]) s = .next (told st .refusedOwner [] s)
      ∧ exec (.markTestClear st [bayByte b, 3, markByte m]) s = .next (told st .refusedOwner [] s))
    ∧ (¬ (m = .hold ∧ ∃ owner, (bayAt s b).hold = some owner ∧ owner ≠ st) →
      ∃ t u, exec (.markClear st [bayByte b, 1, markByte m]) s = .next t
        ∧ exec (.markTestClear st [bayByte b, 3, markByte m]) s = .next u
        ∧ (slotAt t st).reply = ⟨.done, []⟩
        ∧ (slotAt u st).reply = ⟨.done, [if holdsMark m (bayAt s b) then 1 else 0]⟩
        ∧ (∀ x, bayAt u x = bayAt t x) ∧ u.arb = t.arb ∧ u.loop = t.loop
        ∧ holdsMark m (bayAt t b) = false
        ∧ ((m ≠ .noDiesel ∨ (bayAt s b).noDiesel = false) →
            t = told st .done [] (withBayRecord b (unmarked m (bayAt s b)) s))
        ∧ (m = .noDiesel → (bayAt s b).noDiesel = true →
            settled { withBayRecord b (unmarked m (bayAt s b)) (taking st s) with passDue := true } t))

/-- MARK refused, in the order of R15, each of the four operations: a bay outside 1..40 or an unknown mark gives
BAD-ARGUMENT; then a slot not permitted for the mark gives REFUSED-ROLE; then a VACANT or OUT-OF-SERVICE bay gives
REFUSED-STATE; an unknown operation gives BAD-ARGUMENT. Nothing changes. -/
def Obligations.MarkRefusedInOrder : Prop :=
  ∀ (s : State) (st : Station), mayAsk .mark st = true →
    (∀ (op : MarkOp) (x y : Byte), (noBay x ∨ 3 ≤ y.toNat) →
        exec (markRow op st [x, opByte op, y]) s = .next (told st .badArgument [] s))
    ∧ (∀ (x o y : Byte), 4 ≤ o.toNat → exec (.markSet st [x, o, y]) s = .next (told st .badArgument [] s))
    ∧ (∀ (op : MarkOp) (b : Bay) (m : Mark), mayMark m st = false →
        exec (markRow op st [bayByte b, opByte op, markByte m]) s = .next (told st .refusedRole [] s))
    ∧ ∀ (op : MarkOp) (b : Bay) (m : Mark), mayMark m st = true → ¬ stands (bayAt s b) →
        exec (markRow op st [bayByte b, opByte op, markByte m]) s = .next (told st .refusedState [] s)

/-- DOOR PERMIT from OFFICE or SERVICE (R105): the minutes are stored up to 480, CLAMPED above. A permit brought to 0 from
above 0 ends at once: DOOR is raised then exactly under the conditions of R106; otherwise nothing else changes. -/
def Obligations.DoorPermitStoresAndEnds : Prop :=
  ∀ (s : State) (st : Station), (st = .office ∨ st = .service) →
    (∀ (b : Bay) (m1 m0 : Byte), stands (bayAt s b) →
        let due := 0 < (bayAt s b).permit ∧ number m1 m0 = 0 ∧ timed s.run.state (bayAt s b)
          ∧ s.run.settings.doorLimit ≤ (bayAt s b).door.openSeconds ∧ (bayAt s b).door.alertGiven = false
        let reply := doneUnless (480 < number m1 m0)
        let stored := { bayAt s b with permit := min (number m1 m0) 480 }
        (¬ due → exec (.doorPermit st [bayByte b, m1, m0]) s = .next (told st reply [] (withBayRecord b stored s)))
        ∧ (due → ∃ t, exec (.doorPermit st [bayByte b, m1, m0]) s = .next t
            ∧ (slotAt t st).reply = ⟨reply, []⟩
            ∧ bayAt t b = { stored with door := { stored.door with alertGiven := true } }
            ∧ (∀ c, c ≠ b → bayAt t c = bayAt s c)
            ∧ raised s.run.settings.nesting .door b.succ (told st reply [] s).alert t.alert
            ∧ t.run = s.run ∧ t.arb = s.arb ∧ t.loop = s.loop))
    ∧ (∀ (b : Bay) (m1 m0 : Byte), ¬ stands (bayAt s b) →
        exec (.doorPermit st [bayByte b, m1, m0]) s = .next (told st .refusedState [] s))
    ∧ ∀ x m1 m0 : Byte, noBay x → exec (.doorPermit st [x, m1, m0]) s = .next (told st .badArgument [] s)

/-- R71: CLEAR FLAGS in its bay forms, from OFFICE or SERVICE, empties one bay's sticky flag set, or with byte 0 (ALL) every
bay's, and nothing else; a bay number outside 1 to 40 is BAD-ARGUMENT, another slot REFUSED-ROLE. The feeder form clears the
feeder's two flags and nothing else (R115). -/
def Obligations.ClearFlagsEmpties : Prop :=
  ∀ (s : State) (st : Station),
    ((st = .office ∨ st = .service) →
      (∀ b : Bay, exec (.clearFlagsBay st [bayByte b]) s
        = .next (told st .done [] (withBayRecord b { bayAt s b with sticky := ⟨false, false, false, false⟩ } s)))
      ∧ (∃ t, exec (.clearFlagsBay st [0]) s = .next t
          ∧ (∀ b, bayAt t b = { bayAt s b with sticky := ⟨false, false, false, false⟩ })
          ∧ t = { told st .done [] s with bays := t.bays })
      ∧ ∀ x : Byte, 41 ≤ x.toNat → exec (.clearFlagsBay st [x]) s = .next (told st .badArgument [] s))
    ∧ ((st = .feeder ∨ st = .gate) → ∀ x : Byte, exec (.clearFlagsBay st [x]) s = .next (told st .refusedRole [] s))
    ∧ (∀ f : FeederIx, ∃ t, exec (.clearFlagsFeeder .feeder [feederByte f]) s = .next t
        ∧ feederAt t f = { feederAt s f with nearFull := false, overflow := false }
        ∧ (∀ g, g ≠ f → feederAt t g = feederAt s g)
        ∧ t = { told .feeder .done [] s with arb := { s.arb with feeders := t.arb.feeders } })
    ∧ ∀ x : Byte, noFeeder x → exec (.clearFlagsFeeder .feeder [x]) s = .next (told .feeder .badArgument [] s)

/-! ## Ticks and moments -/

namespace Sys2Proof.Claims

/-- A bay's record after a seconds tick (R103, R104), `limit` being setting 11: the counts of an opening that is timed,
and door-alert-given once the limit is reached with no permit running. -/
abbrev secondOf (x : RunState) (limit : Nat) (r t : BayRecord) : Prop :=
  (¬ timed x r → t = r)
  ∧ (timed x r →
      let n := min (r.door.openSeconds + 1) 65535
      let d := { r.door with openSeconds := n, totalOpen := min (r.door.totalOpen + 1) 4294967295 }
      ((limit ≤ n ∧ r.permit = 0) → t = { r with door := { d with alertGiven := true } })
      ∧ (¬ (limit ≤ n ∧ r.permit = 0) → t = { r with door := d }))

/-- A seconds tick raises DOOR for a bay (R104). -/
abbrev secondRaises (s : State) (b : Bay) : Prop :=
  timed s.run.state (bayAt s b) ∧ s.run.settings.doorLimit ≤ min ((bayAt s b).door.openSeconds + 1) 65535
    ∧ (bayAt s b).permit = 0 ∧ (bayAt s b).door.alertGiven = false

/-- The minutes counted into a fuel window (R92). -/
abbrev fuelMinute (x : RunState) (r : BayRecord) : Prop :=
  x = .running ∧ r.occupancy = .parked ∧ r.link = .ok
    ∧ ∃ snap ∈ r.snapshot, snap.source = .diesel
        ∧ (snap.mode = .cool ∨ snap.mode = .heat ∨ snap.mode = .defrost)

/-- The episode of a bay reaches Tmax at a minute tick (R132). -/
abbrev minuteEnds (tmax : Nat) (d : Defrost) : Prop := d.state = .active ∧ tmax ≤ min (d.elapsed + 1) 90

/-- The permit of a bay ends at a minute tick with its opening past the limit (R106). -/
abbrev minuteAlerts (s : State) (b : Bay) : Prop :=
  (bayAt s b).permit = 1 ∧ timed s.run.state (bayAt s b)
    ∧ s.run.settings.doorLimit ≤ (bayAt s b).door.openSeconds ∧ (bayAt s b).door.alertGiven = false

/-- A minute tick is there to be taken (R28): the sixtieth seconds tick has been taken and has issued it, or the next seconds
tick is the sixtieth and the minute tick that comes with it is taken first (notes/assumptions/4.md). -/
abbrev minuteDue (s : State) : Prop :=
  s.run.minutePhase = .issued ∨ (s.run.minutePhase = .none ∧ s.run.second = 59)

/-- What a minute tick leaves of latches and pending sets: DOOR raised where a permit ends past the limit (R106), and the sets
of the stations that fall silent merged back (R160). -/
def minuteAlertSets (s t : State) : Prop :=
  (∀ c e, e ∈ (catAt t.alert c).pending ↔ e ∈ (catAt s.alert c).pending
      ∨ (c = .door ∧ ∃ b : Bay, minuteAlerts s b ∧ e = b.succ)
      ∨ ∃ st, 9 ≤ (alertAt s.alert st).silence
          ∧ ∃ x ∈ (alertAt s.alert st).stack, x.category = c ∧ e ∈ x.set)
  ∧ ∀ c, (catAt t.alert c).latch = true ↔ (catAt s.alert c).latch = true
      ∨ (c = .door ∧ ∃ b : Bay, minuteAlerts s b)
      ∨ ∃ st, 9 ≤ (alertAt s.alert st).silence ∧ ∃ x ∈ (alertAt s.alert st).stack, x.category = c

end Sys2Proof.Claims

open Classical in
/-- SECONDS_TICK (R27, R103, R104, R41): the second advances and returns from 59 to 0; each bay's opening is timed and DOOR
raised by the two rules; the round countdown falls by 1 while it is above 1. Marks, frost, fuel, defrost, arbiter, settings and
yard minute do not change. The model's choice of notes/assumptions/4.md: the sixtieth tick issues the minute tick unless it was
taken ahead of it, and a minute tick still waiting is taken first. -/
def Obligations.SecondsTickCounts : Prop :=
  (∀ s : State, s.run.minutePhase = .issued →
    ∃ u, exec .minuteTick s = .next u ∧ u.run.minutePhase = .none ∧ exec .secondsTick s = exec .secondsTick u)
  ∧ ∀ s : State, s.run.second ≤ 59 → s.run.minutePhase ≠ .issued → ∃ t, exec .secondsTick s = .next t
    ∧ t.run.second = (s.run.second + 1) % 60
    ∧ (s.run.second = 59 → t.run.minutePhase = if s.run.minutePhase = .early then .none else .issued)
    ∧ (s.run.second < 59 → t.run.minutePhase = s.run.minutePhase)
    ∧ t.run.yardMinute = s.run.yardMinute ∧ t.run.settings = s.run.settings ∧ t.run.state = s.run.state
    ∧ (∀ b, secondOf s.run.state s.run.settings.doorLimit (bayAt s b) (bayAt t b))
    ∧ (∀ e, e ∈ (catAt t.alert .door).pending
        ↔ e ∈ (catAt s.alert .door).pending ∨ ∃ b : Bay, secondRaises s b ∧ e = b.succ)
    ∧ sameStations s.alert t.alert ∧ t.arb = s.arb ∧ t.port = s.port
    ∧ (s.loop.nextRound = none → t.loop = s.loop)
    ∧ ∀ n, s.loop.nextRound = some n → 1 < n → t.loop = { s.loop with nextRound := some (n - 1) }

open Classical in
/-- MINUTE_TICK, what every bay counts (R14, R92, R106, R132): departure and permit countdowns, fuel window, holdoff,
elapsed ACTIVE minutes; DOOR raised and door-alert-given set where a permit ends with its opening past the limit; STOPPING
with reason TIMEOUT where the episode reaches Tmax. No other field of a record changes. The yard minute advances and wraps at
65536. The tick comes once with every sixtieth seconds tick, before or after it (R28); at any other time it has not come and
nothing changes (notes/assumptions/4.md). -/
def Obligations.MinuteTickCounts : Prop :=
  (∀ s : State, ¬ minuteDue s → exec .minuteTick s = .next s)
  ∧ ∀ s : State, minuteDue s → ∃ t, exec .minuteTick s = .next t
    ∧ t.run.minutePhase = (if s.run.minutePhase = .issued then .none else .early)
    ∧ minuteAlertSets s t
    ∧ t.run.yardMinute = (s.run.yardMinute + 1) % 65536 ∧ t.run.second = s.run.second
    ∧ t.run.settings = s.run.settings ∧ t.run.state = s.run.state ∧ t.port = s.port
    ∧ (∀ b, bayAt t b = { bayAt s b with
        departure := (bayAt s b).departure.map (fun n => n - 1),
        permit := (bayAt s b).permit - 1,
        fuel := { (bayAt s b).fuel with
          w := if fuelMinute s.run.state (bayAt s b) then min ((bayAt s b).fuel.w + 1) 65535 else (bayAt s b).fuel.w },
        door := { (bayAt s b).door with
          alertGiven := if minuteAlerts s b then true else (bayAt s b).door.alertGiven },
        defrost := { (bayAt s b).defrost with
          state := if minuteEnds s.run.settings.tmax (bayAt s b).defrost then .stopping else (bayAt s b).defrost.state,
          reason := if minuteEnds s.run.settings.tmax (bayAt s b).defrost then some .timeout
            else (bayAt s b).defrost.reason,
          shedPending := if minuteEnds s.run.settings.tmax (bayAt s b).defrost then false
            else (bayAt s b).defrost.shedPending,
          holdoff := (bayAt s b).defrost.holdoff - 1,
          elapsed := if (bayAt s b).defrost.state = .active then min ((bayAt s b).defrost.elapsed + 1) 90
            else (bayAt s b).defrost.elapsed } })
    ∧ t.arb.queue = s.arb.queue ∧ (∀ f, feederAt t f = feederAt s f)
    ∧ t.arb.active = s.arb.active.filter (fun b => ¬ minuteEnds s.run.settings.tmax (bayAt s b).defrost)
    ∧ ∀ b, minuteEnds s.run.settings.tmax (bayAt s b).defrost → noOrder s b → stopOnItsWay t b

/-- TIMEOUT and HOLDOFF_END stand open from the count of a tick until they are taken, once (R132; the model's list of open
moments, notes/assumptions/5.md). TIMEOUT of an ACTIVE bay at Tmax: the bay leaves the active list, is STOPPING with reason
TIMEOUT, and a STOP is placed (R136); no other bay's record changes. HOLDOFF_END brings a bay's holdoff from its last minute
to 0 and changes nothing else. Taken with its condition gone, a moment only closes; one that is not open changes nothing. -/
def Obligations.TimeoutAndHoldoffMoments : Prop :=
  ∀ (s : State) (b : Bay),
    (.timeout b ∈ s.moments → (bayAt s b).defrost.state = .active →
      s.run.settings.tmax ≤ (bayAt s b).defrost.elapsed → noOrder s b →
      ∃ t, exec (.timeout b) s = .next t
        ∧ bayAt t b = { bayAt s b with defrost := { (bayAt s b).defrost with
            state := .stopping, reason := some .timeout, shedPending := false } }
        ∧ (∀ c, c ≠ b → bayAt t c = bayAt s c)
        ∧ t.arb = { s.arb with active := s.arb.active.filter (fun x => x ≠ b) }
        ∧ t.moments = s.moments.erase (.timeout b)
        ∧ stopOnItsWay t b ∧ t.run = s.run ∧ t.alert = s.alert ∧ t.port = s.port)
    ∧ (.timeout b ∈ s.moments →
        ((bayAt s b).defrost.state ≠ .active ∨ (bayAt s b).defrost.elapsed < s.run.settings.tmax) →
        exec (.timeout b) s = .next { s with moments := s.moments.erase (.timeout b) })
    ∧ (.timeout b ∉ s.moments → exec (.timeout b) s = .next s)
    ∧ (.holdoffEnd b ∈ s.moments → (bayAt s b).defrost.holdoff = 1 → exec (.holdoffEnd b) s = .next
        { withBayRecord b { bayAt s b with defrost := { (bayAt s b).defrost with holdoff := 0 } } s with
          moments := s.moments.erase (.holdoffEnd b) })
    ∧ (.holdoffEnd b ∈ s.moments → (bayAt s b).defrost.holdoff ≠ 1 →
        exec (.holdoffEnd b) s = .next { s with moments := s.moments.erase (.holdoffEnd b) })
    ∧ (.holdoffEnd b ∉ s.moments → exec (.holdoffEnd b) s = .next s)

/-- DOOR_LIMIT_REACHED and PERMIT_END (R104, R106) stand open from the count that reaches them until they are taken, once
(the model's list of open moments, notes/assumptions/5.md): with the opening timed and at or past the limit, no permit and no
alert given, DOOR is raised for the bay and door-alert-given set, and nothing else changes; otherwise nothing changes. -/
def Obligations.DoorMomentsRaiseOnce : Prop :=
  ∀ (s : State) (b : Bay) (i : Instr) (m : Moment),
    (i = .doorLimitReached b ∧ m = .doorLimit b ∨ i = .permitEnd b ∧ m = .permitEnd b) →
    let due := timed s.run.state (bayAt s b) ∧ s.run.settings.doorLimit ≤ (bayAt s b).door.openSeconds
      ∧ (bayAt s b).permit = 0 ∧ (bayAt s b).door.alertGiven = false
    (m ∈ s.moments → due → ∃ t, exec i s = .next t
      ∧ raised s.run.settings.nesting .door b.succ s.alert t.alert
      ∧ t = { withBayRecord b { bayAt s b with door := { (bayAt s b).door with alertGiven := true } } s with
              alert := t.alert, moments := s.moments.erase m })
    ∧ (m ∈ s.moments → ¬ due → exec i s = .next { s with moments := s.moments.erase m })
    ∧ (m ∉ s.moments → exec i s = .next s)

/-- SILENCE_RELEASE of a station whose silence count is 10 and whose stack is not empty: each entry's set joins its
category's pending set and latches it, the stack is empty, the lines are those of R153; nothing else changes (R160, R161).
Any other station's moment has not come: nothing changes. A minute tick counts every station's silence up to 10, releases
exactly the stacks then due and merges their sets back (R159, R160). -/
def Obligations.SilenceReleaseMergesBack : Prop :=
  (∀ (s : State) (st : Station), (alertAt s.alert st).silence = 10 → (alertAt s.alert st).stack ≠ [] →
      ∃ t, exec (.silenceRelease st) s = .next t ∧ t = { s with alert := t.alert }
        ∧ (alertAt t.alert st).stack = []
        ∧ (∀ c e, e ∈ (catAt t.alert c).pending ↔ e ∈ (catAt s.alert c).pending
            ∨ ∃ x ∈ (alertAt s.alert st).stack, x.category = c ∧ e ∈ x.set)
        ∧ (∀ c, (catAt t.alert c).latch = true ↔ (catAt s.alert c).latch = true
            ∨ ∃ x ∈ (alertAt s.alert st).stack, x.category = c)
        ∧ (∀ o, (alertAt t.alert o).mask = (alertAt s.alert o).mask
            ∧ (alertAt t.alert o).silence = (alertAt s.alert o).silence
            ∧ (o ≠ st → (alertAt t.alert o).stack = (alertAt s.alert o).stack))
        ∧ ∀ o, (alertAt t.alert o).line = true ↔ ∃ c, eligible s.run.settings.nesting t.alert o c = true)
    ∧ (∀ (s : State) (st : Station), ((alertAt s.alert st).silence ≠ 10 ∨ (alertAt s.alert st).stack = []) →
        exec (.silenceRelease st) s = .next s)
    ∧ ∀ s t : State, minuteDue s → exec .minuteTick s = .next t → minuteAlertSets s t ∧ ∀ st,
        (alertAt t.alert st).silence = min ((alertAt s.alert st).silence + 1) 10
        ∧ (alertAt t.alert st).mask = (alertAt s.alert st).mask
        ∧ (9 ≤ (alertAt s.alert st).silence → (alertAt t.alert st).stack = [])
        ∧ ((alertAt s.alert st).silence < 9 → (alertAt t.alert st).stack = (alertAt s.alert st).stack)

/-! ## Run states and rounds -/

/-- BEGIN ROUNDS from OFFICE (R23, R41, R55): from SETUP or HALTED the run state is RUNNING and a round start is made: the next
one lies one poll period ahead, and the first round begins at position 0, or ends at once where no bay is polled (R42, R43),
while an exchange still holds the loop; on a free loop with its first poll, or the head order, by the table of R52. Second, yard
minute, settings, bay records and arbiter stay. In RUNNING and HALTING it is refused. -/
def Obligations.BeginRoundsStartsTheSchedule : Prop :=
  (∀ s : State, (s.run.state = .setup ∨ s.run.state = .halted) → s.loop.round = none →
      ∃ t, exec (.beginRounds .office []) s = .next t ∧ (slotAt t .office).reply = ⟨.done, []⟩
        ∧ t.run = { s.run with state := .running } ∧ t.loop.nextRound = some s.run.settings.pollPeriod
        ∧ (∀ b, bayAt t b = bayAt s b) ∧ t.arb = s.arb ∧ t.alert = (told .office .done [] s).alert
        ∧ t.loop.overruns = s.loop.overruns ∧ roundStarted s t
        ∧ (s.loop.exchange.isSome = true → t.loop = { s.loop with
            nextRound := some s.run.settings.pollPeriod, round := if nothingAbove s 0 then none else some 0 })
        ∧ ∀ b, nextToPoll s 0 b → s.loop.exchange = none → s.loop.orders = [] →
            t.loop.round = some (b.val + 1) ∧ begun t b .poll)
    ∧ ∀ s : State, (s.run.state = .running ∨ s.run.state = .halting) →
        exec (.beginRounds .office []) s = .next (told .office .refusedState [] s)

/-- A round start (R41, R42, R44): the poll period is reloaded; with no round in progress a round begins at position 0, unless
no bay is polled (R43); with one in progress the start is skipped, the overrun count rises to at most 65535 and LINK is raised
for YARD; on a free loop in RUNNING the loop arbiter chooses at once, the first poll or the head order (R52). ROUND_START makes
it where it has fallen due; the SECONDS_TICK that counts the last second away makes the same one in its own change, on a free
loop or a held one. A start that is not due changes nothing (notes/assumptions/5.md). -/
def Obligations.RoundStartBeginsOrSkips : Prop :=
  (∀ s : State, s.loop.nextRound = some 0 →
      ∃ t, exec .roundStart s = .next t ∧ roundStarted s t
        ∧ (∀ b, bayAt t b = bayAt s b) ∧ t.arb = s.arb ∧ t.run = s.run ∧ t.port = s.port
        ∧ (s.loop.round = none → t.alert = s.alert)
        ∧ (s.loop.round ≠ none → raised s.run.settings.nesting .link 0 s.alert t.alert))
    ∧ (∀ (s : State) (n : Nat), s.loop.nextRound = some n → n ≤ 1 → s.run.minutePhase ≠ .issued →
        ∃ t u, exec .secondsTick s = .next t ∧ exec .roundStart { s with loop := { s.loop with nextRound := some 0 } } = .next u
          ∧ t.loop = u.loop ∧ catAt t.alert .link = catAt u.alert .link ∧ roundStarted s t
          ∧ (∀ e, e ∈ (catAt t.alert .link).pending
              ↔ e ∈ (catAt s.alert .link).pending ∨ (s.loop.round ≠ none ∧ e = 0))
          ∧ (s.loop.round ≠ none → (catAt t.alert .link).latch = true))
    ∧ ∀ s : State, s.loop.nextRound ≠ some 0 → exec .roundStart s = .next s

/-- HALT ROUNDS from OFFICE in RUNNING ends every bay's defrost business with reason HALT by the table of R145, in one
change, DEPARTING bays (R9) among them: the schedule and the round are over, no bay is left QUEUED or SHED, and the run state is HALTED at once exactly
when no order is left and no bay is STARTING or STOPPING (R24, R25, R146). In any other run state it is refused.
HALTED_ENTRY: in HALTING with those conditions the run state becomes HALTED and every door watch loses its knowledge
(R107), nothing else changing; otherwise its moment has not come and nothing changes. -/
def Obligations.HaltRoundsEndsAllBusiness : Prop :=
  (∀ s : State, atRest s → s.run.state = .running →
      ∃ t, exec (.haltRounds .office []) s = .next t ∧ (slotAt t .office).reply = ⟨.done, []⟩
        ∧ t.loop.nextRound = none ∧ t.loop.round = none ∧ t.run.settings = s.run.settings
        ∧ t.run.second = s.run.second ∧ t.run.yardMinute = s.run.yardMinute
        ∧ (∀ b, (bayAt t b).defrost.state ≠ .queued ∧ (bayAt t b).defrost.state ≠ .shed)
        ∧ (t.run.state = .halting ∨ t.run.state = .halted) ∧ (t.run.state = .halted ↔ haltReady t)
        ∧ (t.run.state = .halted → ∀ b, ¬ ((bayAt s b).occupancy = .departing ∧ endsAtOnce s b) →
            (bayAt t b).door = doorLost (bayAt s b).door)
        ∧ ∀ b, businessEnded .halt .halted s t b)
    ∧ (∀ s : State, s.run.state ≠ .running →
        exec (.haltRounds .office []) s = .next (told .office .refusedState [] s))
    ∧ ∀ s : State,
      (s.run.state = .halting → haltReady s → ∃ t, exec .haltedEntry s = .next t
        ∧ (∀ b, bayAt t b = { bayAt s b with door := doorLost (bayAt s b).door })
        ∧ t = { s with run := { s.run with state := .halted }, bays := t.bays })
      ∧ ((s.run.state ≠ .halting ∨ ¬ haltReady s) → exec .haltedEntry s = .next s)

/-! ## The bay loop -/

/-- REPLY_WINDOW_OPEN releases LDE, ends the frame on LTX and opens the reply window (R37); IDLE_GAP_END frees the loop and
the loop arbiter chooses by the table of R52: the head order, the next poll of the round, or nothing. -/
def Obligations.LoopPhasesFollowTheTable : Prop :=
  (∀ (s : State) (b : Bay) (k : ExchangeKind) (v : Bool), s.loop.exchange = some ⟨b, k, .sending, v⟩ →
      exec .replyWindowOpen s
        = .next { s with loop := { s.loop with exchange := some ⟨b, k, .awaiting, v⟩, lde := false, ltx := [] } })
    ∧ ∀ (s : State) (b : Bay) (k : ExchangeKind) (ms : Nat) (v : Bool), s.loop.exchange = some ⟨b, k, .gap ms, v⟩ →
      ∃ t, exec .idleGapEnd s = .next t ∧ t.arb = s.arb ∧ t.alert = s.alert ∧ t.port = s.port
        ∧ (s.run.state = .running → ∀ o rest, s.loop.orders = o :: rest → (s.loop.orderRun < 4 ∨ noPollLeft s) →
            begun t o.bay (.order o.kind) ∧ t.loop.orders = rest ∧ t.loop.orderRun = min (s.loop.orderRun + 1) 4
            ∧ t.loop.round = s.loop.round)
        ∧ (s.run.state = .running → ∀ c, hasPollLeft s c → (s.loop.orders = [] ∨ 4 ≤ s.loop.orderRun) →
            begun t c .poll ∧ t.loop.round = some (c.val + 1) ∧ t.loop.orderRun = 0 ∧ t.loop.orders = s.loop.orders)
        ∧ (s.run.state = .halting → ∀ o rest, s.loop.orders = o :: rest →
            begun t o.bay (.order o.kind) ∧ t.loop.orders = rest ∧ t.loop.orderRun = min (s.loop.orderRun + 1) 4)
        ∧ (((s.run.state = .running ∧ s.loop.orders = [] ∧ noPollLeft s)
              ∨ (s.run.state = .halting ∧ s.loop.orders = []) ∨ s.run.state = .setup ∨ s.run.state = .halted) →
            t.loop = { s.loop with exchange := none })

namespace Sys2Proof.Claims

/-- A command that ends the exchange x awaiting its reply with judged result j: a complete frame, a kind byte of neither
reply kind, or the close of the window (R38, R39). -/
def endsWith (x : Exchange) (j : Judged) (i : Instr) : Prop :=
  (∃ chars kind frame, i = .replyFrameComplete chars ∧ assembleReply chars = .complete kind frame ∧ judge x kind frame = j)
  ∨ (∃ kind, i = .wrongKindByte kind ∧ kind ≠ 0x81 ∧ kind ≠ 0x82 ∧ j = .failed .wrongReply)
  ∨ (i = .replyWindowClose ∧ j = .failed .noReply)

/-- The exchange awaiting its reply. -/
abbrev awaits (s : State) (b : Bay) (k : ExchangeKind) (voided : Bool) : Prop :=
  s.loop.exchange = some ⟨b, k, .awaiting, voided⟩

/-- The mode of an answered poll leaves a bay's episode as it is (R136, R139). -/
abbrev episodeGoesOn (r : BayRecord) (m : Mode) : Prop :=
  r.defrost.state = .active ∨ r.defrost.state = .hung → m = .defrost

/-- The mode of an answered poll ends a bay's episode (R136, R139). -/
abbrev endsByMode (r : BayRecord) (m : Mode) : Prop :=
  m ≠ .defrost ∧ (r.defrost.state = .active ∨ (r.defrost.state = .hung ∧ r.defrost.reason ≠ none))

/-- The run source of an answered poll moves the charge of a bay whose episode goes on (R148). -/
abbrev moves (s : State) (b : Bay) (snap : Snapshot) : Prop :=
  ((bayAt s b).defrost.state = .starting ∨ (bayAt s b).defrost.state = .active ∨ (bayAt s b).defrost.state = .hung
      ∨ ((bayAt s b).defrost.state = .stopping ∧ ¬ onAStack s b))
    ∧ ((snap.source = .diesel ∧ ∃ f : FeederIx, (bayAt s b).defrost.charge = .feeder f)
      ∨ (snap.source = .shore ∧ (bayAt s b).defrost.charge = .self ∧ (bayAt s b).feeder.isSome = true))

/-- A record after an answered poll (R45, R6), its arbiter and check fields apart. -/
abbrev answeredFields (snap : Snapshot) (r t : BayRecord) : Prop :=
  t.snapshot = some snap ∧ t.missCount = 0 ∧ t.link = .ok ∧ t.roundsSince = 0 ∧ t.lastExchange = .answered
    ∧ t.occupancy = .parked ∧ t.ident = r.ident ∧ t.arrival = r.arrival ∧ t.capacity = r.capacity
    ∧ t.feeder = r.feeder ∧ t.draw = r.draw ∧ t.departure = r.departure ∧ t.permit = r.permit ∧ t.hold = r.hold
    ∧ t.noDiesel = r.noDiesel

end Sys2Proof.Claims

/-- A poll ends ANSWERED (R45, R6): snapshot, miss count, link, rounds since and last outcome are written; the gap is 2 ms. An
ARRIVING or PARKED bay is PARKED; bay data, countdowns, HOLD and NO-DIESEL-DEFROST stay. A DEPARTING bay stays DEPARTING and is
not checked: only its defrost record can change further (R148), but for what HALTED entry makes of its door watch; where the
mode ends its episode it becomes VACANT (R9, R136). The snapshots and links of every other bay stay. -/
def Obligations.AnsweredPollWritesTheRecord : Prop :=
  ∀ (s : State) (b : Bay) (i : Instr) (snap : Snapshot), awaits s b .poll false →
    endsWith ⟨b, .poll, .awaiting, false⟩ (.telemetry snap) i →
    isPolled s b →
    ∃ t, exec i s = .next t
      ∧ ((bayAt s b).occupancy ≠ .departing → answeredFields snap (bayAt s b) (bayAt t b))
      ∧ ((bayAt s b).occupancy = .departing → ¬ endsByMode (bayAt s b) snap.mode →
          ¬ ((bayAt s b).defrost.state = .starting ∧ startWaits s b) →
          bayAt t b = { bayAt s b with
            snapshot := some snap, missCount := 0, link := .ok, roundsSince := 0, lastExchange := .answered,
            defrost := (bayAt t b).defrost, door := (bayAt t b).door }
          ∧ (t.run.state = s.run.state → (bayAt t b).door = (bayAt s b).door)
          ∧ (t.run.state ≠ s.run.state → (bayAt t b).door = doorLost (bayAt s b).door)
          ∧ (¬ moves s b snap → (∀ q ∈ s.arb.queue, q.bay ≠ b) → (bayAt s b).defrost.state ≠ .shed →
              (bayAt t b).defrost = (bayAt s b).defrost))
      ∧ ((bayAt s b).occupancy = .departing → endsByMode (bayAt s b) snap.mode →
          bayAt t b = emptiedRecord (bayAt s b))
      ∧ t.loop.exchange = some ⟨b, .poll, .gap 2, false⟩
      ∧ (∀ c, c ≠ b → (bayAt t c).snapshot = (bayAt s c).snapshot ∧ (bayAt t c).link = (bayAt s c).link
          ∧ (bayAt t c).missCount = (bayAt s c).missCount ∧ (bayAt t c).occupancy = (bayAt s c).occupancy)
      ∧ t.port = s.port ∧ t.run.settings = s.run.settings

/-- A poll ends NO-REPLY, BAD-CHECK or WRONG-REPLY (R46, R40): the snapshot stays, the outcome is written, rounds since rises
to at most 255, the miss count follows the link; at the loss limit the bay is LOST, LINK is raised for it, its door watch loses
its knowledge, and its defrost business ends with reason LINK by the table of R145; a DEPARTING bay whose business then ends at
once becomes VACANT (R9). The gap is 20 ms. The end of a voided exchange records nothing: every bay record, the arbiter and the
alert unit stay as they are; the gap starts (R40). -/
def Obligations.FailedPollsAndVoidedExchanges : Prop :=
  (∀ (s : State) (b : Bay) (i : Instr) (o : ExchangeOutcome), awaits s b .poll false →
    endsWith ⟨b, .poll, .awaiting, false⟩ (.failed o) i →
    let lostNow := (bayAt s b).link ≠ .lost ∧ s.run.settings.lossLimit ≤ (bayAt s b).missCount + 1
    let gone := lostNow ∧ (bayAt s b).occupancy = .departing ∧ endsAtOnce s b
    ∃ t, exec i s = .next t ∧ t.loop.exchange = some ⟨b, .poll, .gap 20, false⟩
      ∧ (¬ gone → (bayAt t b).snapshot = (bayAt s b).snapshot ∧ (bayAt t b).lastExchange = o
          ∧ (bayAt t b).roundsSince = min ((bayAt s b).roundsSince + 1) 255
          ∧ (bayAt t b).occupancy = (bayAt s b).occupancy)
      ∧ ((bayAt s b).link ≠ .lost → (bayAt s b).missCount + 1 < s.run.settings.lossLimit →
          (bayAt t b).missCount = (bayAt s b).missCount + 1 ∧ (bayAt t b).link = (bayAt s b).link
          ∧ t.alert = s.alert)
      ∧ (lostNow → (b.succ : Element) ∈ (catAt t.alert .link).pending ∧ (catAt t.alert .link).latch = true)
      ∧ (lostNow → ¬ gone → (bayAt t b).missCount = s.run.settings.lossLimit ∧ (bayAt t b).link = .lost
          ∧ (bayAt t b).door = doorLost (bayAt s b).door)
      ∧ (lostNow → atRest s → businessEnded .link .abortedLink s t b)
      ∧ ((bayAt s b).link = .lost → (bayAt t b).missCount = s.run.settings.lossLimit ∧ (bayAt t b).link = .lost
          ∧ t.alert = s.alert))
  ∧ ∀ (s : State) (b : Bay) (k : ExchangeKind) (i : Instr) (j : Judged), awaits s b k true →
    endsWith ⟨b, k, .awaiting, true⟩ j i → atRest s → s.run.state ≠ .halting →
    ∃ t, exec i s = .next t ∧ (∀ c, bayAt t c = bayAt s c) ∧ t.arb = s.arb ∧ t.alert = s.alert ∧ t.run = s.run
      ∧ t.loop.orders = s.loop.orders ∧ t.loop.exchange
          = some ⟨b, k, .gap (match j with
              | .failed _ => 20
              | _ => 2), true⟩

namespace Sys2Proof.Claims

/-- The requests and moments that name one bay. -/
def ofBay (b : Bay) : Instr → Prop
  | .doorLimitReached x => x = b
  | .permitEnd x => x = b
  | .holdoffEnd x => x = b
  | .timeout x => x = b
  | .readBay _ args => args.head? = some (bayByte b)
  | .arrive _ args => args.head? = some (bayByte b)
  | .depart _ args => args.head? = some (bayByte b)
  | .setDeparture _ args => args.head? = some (bayByte b)
  | .setBayData _ args => args.head? = some (bayByte b)
  | .closeBay _ args => args.head? = some (bayByte b)
  | .openBay _ args => args.head? = some (bayByte b)
  | .markSet _ args => args.head? = some (bayByte b)
  | .markTestSet _ args => args.head? = some (bayByte b)
  | .markClear _ args => args.head? = some (bayByte b)
  | .markTestClear _ args => args.head? = some (bayByte b)
  | .defrostNow _ args => args.head? = some (bayByte b)
  | .withdraw _ args => args.head? = some (bayByte b)
  | .forceRelease _ args => args.head? = some (bayByte b)
  | .doorPermit _ args => args.head? = some (bayByte b)
  | .clearFlagsBay _ args => args.head? = some (bayByte b)
  | _ => False

end Sys2Proof.Claims

/-- The frame of the commands about one bay, its exchanges among them: settings, ticks and budgets stay, the run state but
for HALTED entry; alerts are raised for that bay alone; every other bay keeps its record, but that the grant pass may make
it STARTING in RUNNING, and that HALTED entry ends what its door watch knows. -/
def Obligations.OneBayCommandsKeepTheRest : Prop :=
  ∀ (s t : State) (b : Bay) (i : Instr),
    (ofBay b i ∨ ∃ k v j, awaits s b k v ∧ endsWith ⟨b, k, .awaiting, v⟩ j i) → exec i s = .next t →
    t.run = { s.run with state := t.run.state }
    ∧ (t.run.state = s.run.state ∨ (s.run.state = .halting ∧ t.run.state = .halted))
    ∧ (∀ f, (feederAt t f).budget = (feederAt s f).budget)
    ∧ (∀ c e, e ∈ (catAt t.alert c).pending → e ∈ (catAt s.alert c).pending ∨ e = b.succ)
    ∧ ∀ c, c ≠ b → bayAt t c = { bayAt s c with defrost := (bayAt t c).defrost, door := (bayAt t c).door }
        ∧ (t.run.state = s.run.state → (bayAt t c).door = (bayAt s c).door)
        ∧ ((bayAt t c).defrost ≠ (bayAt s c).defrost →
            s.run.state = .running ∧ (bayAt t c).defrost.state = .starting)

namespace Sys2Proof.Claims

/-! ## Settings -/

/-- The values of settings 1 to 13 in order (section 2.3). -/
def numbers (g : Settings) : List Nat :=
  [g.pollPeriod, g.lossLimit, g.alpha, g.deadBand, g.frostGain, g.doorGain, g.meltGain, g.demandThreshold, g.tmax,
   g.holdoff, g.doorLimit, g.fuelMargin, g.lowFuel]

/-- The ranges of settings 1 to 13 in order (section 2.3). -/
def limits : List (Nat × Nat) :=
  [(15, 120), (2, 15), (1, 255), (0, 50), (0, 255), (0, 255), (0, 255), (1000, 60000), (10, 90), (0, 240), (30, 3600),
   (0, 600), (0, 1000)]

/-- The lower limit of a setting 1 to 13. -/
def lowest (id : Byte) : Nat := (limits.getD (id.toNat - 1) (0, 0)).1

/-- The upper limit of a setting 1 to 13. -/
def highest (id : Byte) : Nat := (limits.getD (id.toNat - 1) (0, 0)).2

/-- A state with its settings replaced. -/
def withSettings (g : Settings) (s : State) : State := { s with run := { s.run with settings := g } }

end Sys2Proof.Claims

/-- SET SETTING from OFFICE in every run state (R32): settings 1 to 13 stored within their ranges, the nesting mode and the
condition enables as the table gives, CLAMPED where the value was changed; nothing but the settings changes, the loss limit
(`LossLimitChange`) apart, and but for the ALERT lines, evaluated again when the nesting mode changes (R34). An id outside
1..15 is BAD-ARGUMENT. -/
def Obligations.SetSettingStores : Prop :=
  ∀ (s : State) (id v1 v0 : Byte),
    let v := number v1 v0
    let g := s.run.settings
    (1 ≤ id.toNat → id.toNat ≤ 13 → ∃ t, exec (.setSetting .office [id, v1, v0]) s = .next t
      ∧ (slotAt t .office).reply = ⟨doneUnless (v < lowest id ∨ highest id < v), []⟩
      ∧ numbers t.run.settings = (numbers g).set (id.toNat - 1) (max (lowest id) (min v (highest id)))
      ∧ t.run.settings.nesting = g.nesting ∧ t.run.settings.enables = g.enables
      ∧ ((id.toNat ≠ 2 ∨ max 2 (min v 15) = g.lossLimit) →
          t = told .office (doneUnless (v < lowest id ∨ highest id < v)) [] (withSettings t.run.settings s)))
    ∧ (id.toNat = 14 → ∃ t, exec (.setSetting .office [id, v1, v0]) s = .next t
      ∧ t = { told .office (doneUnless (1 < v)) []
                (withSettings { g with nesting := if v = 0 then .nested else .flat } s) with alert := t.alert }
      ∧ (∀ c, catAt t.alert c = catAt s.alert c) ∧ sameStations (told .office .done [] s).alert t.alert
      ∧ (g.nesting ≠ t.run.settings.nesting →
          ∀ st, (alertAt t.alert st).line = true ↔ ∃ c, eligible t.run.settings.nesting t.alert st c = true)
      ∧ (g.nesting = t.run.settings.nesting → t.alert = (told .office .done [] s).alert))
    ∧ (id.toNat = 15 → exec (.setSetting .office [id, v1, v0]) s = .next (told .office (doneUnless (16 ≤ v)) []
        (withSettings { g with enables := ⟨v.testBit 0, v.testBit 1, v.testBit 2, v.testBit 3⟩ } s)))
    ∧ ((id.toNat = 0 ∨ 16 ≤ id.toNat) →
        exec (.setSetting .office [id, v1, v0]) s = .next (told .office .badArgument [] s))

/-- R33: READ SETTING from any slot answers DONE with the id and the value held, and changes nothing; an id outside 1..15
is BAD-ARGUMENT; a value stored by an accepted SET SETTING is the one then read. -/
def Obligations.ReadSettingReadsTheStore : Prop :=
  ∀ (s : State) (st : Station) (id : Byte),
    (1 ≤ id.toNat → id.toNat ≤ 13 →
      exec (.readSetting st [id]) s
        = .next (told st .done (id :: two ((numbers s.run.settings).getD (id.toNat - 1) 0)) s))
    ∧ (id.toNat = 14 → exec (.readSetting st [id]) s = .next (told st .done [14, 0, match s.run.settings.nesting with
        | .nested => 0
        | .flat => 1] s))
    ∧ (id.toNat = 15 → exec (.readSetting st [id]) s = .next (told st .done [15, 0, BitVec.ofNat 8
        (s.run.settings.enables.invalid.toNat + 2 * s.run.settings.enables.range.toNat
          + 4 * s.run.settings.enables.saturate.toNat + 8 * s.run.settings.enables.norate.toNat)] s))
    ∧ ((id.toNat = 0 ∨ 16 ≤ id.toNat) → exec (.readSetting st [id]) s = .next (told st .badArgument [] s))
    ∧ ∀ (v1 v0 : Byte) (t u : State),
        exec (.setSetting .office [id, v1, v0]) s = .next t → exec (.readSetting st [id]) t = .next u →
        (1 ≤ id.toNat → id.toNat ≤ 13 →
          (slotAt u st).reply = ⟨.done, id :: two (max (lowest id) (min (number v1 v0) (highest id)))⟩)
        ∧ (id.toNat = 14 → (slotAt u st).reply = ⟨.done, [14, 0, if number v1 v0 = 0 then 0 else 1]⟩)
        ∧ (id.toNat = 15 → (slotAt u st).reply = ⟨.done, [15, 0, BitVec.ofNat 8 (number v1 v0 % 16)]⟩)

/-- A changed loss limit, by the table of R35: below the limit unchanged; at or above
it LOST at the new limit, with the door watch's knowledge lost and no demand or shed entry left; a LOST bay stays LOST at
the new limit. Where no pass is owed and the arbiter's collections are in step with the defrost states (R129), the defrost
business of each bay that becomes LOST ends with reason LINK by the table of R145, and every other bay keeps its defrost record,
but that the grant pass may make it STARTING in RUNNING. A DEPARTING bay that becomes LOST with business that ends at once becomes
VACANT (R9). LINK is raised for exactly the bays that become LOST. -/
def Obligations.LossLimitChange : Prop :=
  ∀ (s : State) (v1 v0 : Byte),
    let limit := max 2 (min (number v1 v0) 15)
    limit ≠ s.run.settings.lossLimit →
    ∃ t, exec (.setSetting .office [2, v1, v0]) s = .next t ∧ t.run.settings.lossLimit = limit
      ∧ (∀ b,
          let gone := (bayAt s b).occupancy = .departing ∧ endsAtOnce s b
          ((bayAt s b).link ≠ .lost → (bayAt s b).missCount < limit →
            (bayAt t b).link = (bayAt s b).link ∧ (bayAt t b).missCount = (bayAt s b).missCount)
          ∧ ((bayAt s b).link = .lost → (bayAt t b).link = .lost ∧ (bayAt t b).missCount = limit)
          ∧ ((bayAt s b).link ≠ .lost → limit ≤ (bayAt s b).missCount → gone →
            bayAt t b = emptiedRecord (bayAt s b))
          ∧ ((bayAt s b).link ≠ .lost → limit ≤ (bayAt s b).missCount → ¬ gone →
            (bayAt t b).link = .lost ∧ (bayAt t b).missCount = limit
            ∧ (bayAt t b).door = doorLost (bayAt s b).door
            ∧ (bayAt t b).defrost.state ≠ .queued ∧ (bayAt t b).defrost.state ≠ .shed))
      ∧ (atRest s → Safety.CollectionLaw s → ∀ b,
          ((bayAt s b).link ≠ .lost → limit ≤ (bayAt s b).missCount → businessEnded .link .abortedLink s t b)
          ∧ (((bayAt s b).link = .lost ∨ (bayAt s b).missCount < limit) →
              (bayAt t b).defrost = (bayAt s b).defrost
              ∨ (s.run.state = .running ∧ (bayAt t b).defrost.state = .starting
                ∧ ((bayAt s b).defrost.state = .queued ∨ (bayAt s b).defrost.state = .shed))))
      ∧ ∀ e, e ∈ (catAt t.alert .link).pending ↔ e ∈ (catAt s.alert .link).pending
          ∨ ∃ b : Bay, e = b.succ ∧ (bayAt s b).link ≠ .lost ∧ limit ≤ (bayAt s b).missCount

namespace Sys2Proof.Claims

/-! ## The check -/

/-- A command that ends a poll of an ARRIVING or PARKED bay ANSWERED with a snapshot in RUNNING: it brings a check
(R58). -/
def checkedBy (s : State) (b : Bay) (snap : Snapshot) (i : Instr) : Prop :=
  awaits s b .poll false ∧ endsWith ⟨b, .poll, .awaiting, false⟩ (.telemetry snap) i
    ∧ ((bayAt s b).occupancy = .arriving ∨ (bayAt s b).occupancy = .parked) ∧ s.run.state = .running

/-- The frost record a check begins with: an ACTIVE bay that no longer defrosts has ended COMPLETE before it, whose frost reset
is part of the same poll (R83, R136). -/
abbrev frostAtCheck (r : BayRecord) (m : Mode) : Frost :=
  if r.defrost.state = .active ∧ m ≠ .defrost ∧ m ≠ .fault then frostAfter .complete r.frost else r.frost

/-- The end of an episode by the mode of an answered poll raises FROST (R131, R136, R139). -/
abbrev endRaisesFrost (r : BayRecord) (m : Mode) : Prop :=
  (r.defrost.state = .active ∧ m = .fault)
    ∨ (r.defrost.state = .hung ∧ m ≠ .defrost ∧ r.defrost.reason = some .timeout)

/-- A temperature outside the working range (R62). -/
abbrev outside (h : Half) : Prop := h ≠ 0x8000 ∧ (h.toInt < -400 ∨ 500 < h.toInt)

/-- A working temperature, none for NAR (R62). -/
def reading (h : Half) : Option Int := if h = 0x8000 then none else some (max (-400) (min h.toInt 500))

/-- A working fuel level, none for NAR (R62). -/
def levelRead (h : Half) : Option Nat := if h = 0xFFFF then none else some (min h.toNat 1000)

/-- The excess of a raw excess (R76). -/
def excessOf (deadBand : Nat) (x : Int) : Nat := if x < deadBand then 0 else (min x 1000).toNat

/-- The frost index grown by an excess and the door term, capped (R77 to R79). -/
def grown (g : Settings) (doorOpen : Bool) (e : Nat) (f : Frost) : Frost :=
  { f with f := min (f.f + e * g.frostGain / 16 + if doorOpen then 8 * g.doorGain else 0) 60000 }

/-- The filtered split (R74). -/
def filtered (alpha : Nat) (s : Option Int) (d : Int) : Int :=
  match s with
  | none => d
  | some s0 => s0 + ((d - s0) * alpha).tdiv 256

/-- The frost record after a check (R72 to R80). -/
def frostMath (g : Settings) (m : Mode) (tc tr : Option Int) (doorOpen : Bool) (f : Frost) : Frost :=
  match m with
  | .defrost => { f with f := f.f - 64 * g.meltGain }
  | .cool =>
    match tc, tr with
    | some c, some r =>
      let s := filtered g.alpha f.s (r - c)
      match f.b with
      | none =>
        let k := if c ≤ 20 then min (f.k + 1) 3 else f.k
        grown g doorOpen 0 { f with s := some s, k := k, b := if c ≤ 20 ∧ k = 3 then some s else none }
      | some b => grown g doorOpen (if c ≤ 20 then excessOf g.deadBand (s - b) else 0) { f with s := some s }
    | _, _ =>
      grown g doorOpen (match f.s, f.b with
        | some s, some b => excessOf g.deadBand (s - b)
        | _, _ => 0) f
  | _ => grown g doorOpen 0 f

/-- The raw excess that a check grows the index by, 0 where none is formed (R75, R76). -/
def rawExcess (g : Settings) (m : Mode) (tc tr : Option Int) (f : Frost) : Int :=
  match m, tc, tr, f.s, f.b with
  | .cool, some c, some r, s, some b => if c ≤ 20 then filtered g.alpha s (r - c) - b else 0
  | .cool, some _, none, some s, some b => s - b
  | .cool, none, _, some s, some b => s - b
  | _, _, _, _, _ => 0

/-- A check limits the excess or caps the index (R76, R79). -/
abbrev frostLimited (g : Settings) (m : Mode) (tc tr : Option Int) (doorOpen : Bool) (f : Frost) : Prop :=
  1000 < rawExcess g m tc tr f
    ∨ (m ≠ .defrost ∧ 60000 < f.f + excessOf g.deadBand (rawExcess g m tc tr f) * g.frostGain / 16
        + if doorOpen then 8 * g.doorGain else 0)

/-- The fuel window after a volume (R89 to R91). -/
def windowMath (v : Nat) (f : Fuel) : Fuel :=
  match f.vref with
  | none => { f with v := some v, vref := some v, w := 0 }
  | some x =>
    if x + 50 ≤ v then { f with v := some v, vref := some v, w := 0, refuels := min (f.refuels + 1) 255 }
    else if v + 20 ≤ x ∧ 10 ≤ f.w then { f with v := some v, vref := some v, w := 0, r := max 1 ((x - v) * 60 / f.w) }
    else { f with v := some v }

/-- The fuel record after a check (R87 to R95). -/
def fuelMath (g : Settings) (level : Option Nat) (capacity : Nat) (source : Source) (departure : Option Nat) (f : Fuel) :
    Fuel :=
  match level with
  | none => f
  | some p =>
    if capacity = 0 then f
    else
      let v := p * capacity / 100
      let w := windowMath v f
      let e := if w.r = 0 then 65535 else min (v * 60 / w.r) 65535
      { w with e := e, low := decide (v < g.lowFuel),
               short := decide (source = .diesel ∧ e < departure.getD 0 + g.fuelMargin) }

/-- A check takes the volume as a refuel (R90). -/
abbrev refuelTaken (level : Option Nat) (capacity : Nat) (f : Fuel) : Prop :=
  capacity ≠ 0 ∧ ∃ p ∈ level, ∃ x ∈ f.vref, x + 50 ≤ p * capacity / 100

/-- The door record after a report (R100 to R102). -/
def doorMath (report : DoorReport) (d : Door) : Door :=
  let opening := { d with confirmed := .opened, pending := none, openings := min (d.openings + 1) 255, openSeconds := 0,
                          alertGiven := false }
  match report, d.confirmed with
  | .nar, _ => { d with pending := none }
  | .closed, .unknown => { d with confirmed := .closed, pending := none }
  | .closed, .closed => { d with pending := none }
  | .closed, .opened =>
    if d.pending = some .closed then { d with confirmed := .closed, pending := none, lastOpen := d.openSeconds }
    else { d with pending := some .closed }
  | .opened, .unknown => opening
  | .opened, .closed => if d.pending = some .opened then opening else { d with pending := some .opened }
  | .opened, .opened => { d with pending := none }

end Sys2Proof.Claims

/-- The conditions of a check (R62, R66, R68 to R70): RANGE, INVALID and NORATE stand in the cause set exactly in their
cases, and SATURATE, within the ranges, exactly when the excess or the index is limited or the endurance saturates, the frost
record being that of the episode's end where this poll ended one (R83); the sticky flag set gains the causes; CHECK is raised for the bay exactly when the causes meet the
enables. -/
def Obligations.CheckConditionsAndRaise : Prop :=
  ∀ (s : State) (b : Bay) (snap : Snapshot) (i : Instr), checkedBy s b snap i → ∃ t, exec i s = .next t
    ∧ ((bayAt t b).causes.range = true ↔ outside snap.tc ∨ outside snap.tr ∨ (snap.p ≠ 0xFFFF ∧ 1000 < snap.p.toNat))
    ∧ ((bayAt t b).causes.invalid = true ↔ snap.door = .nar ∨ (snap.mode = .cool ∧ (snap.tc = 0x8000 ∨ snap.tr = 0x8000))
        ∨ snap.p = 0xFFFF ∨ (bayAt s b).capacity = 0)
    ∧ ((bayAt t b).causes.norate = true ↔ snap.p ≠ 0xFFFF ∧ (bayAt s b).capacity ≠ 0 ∧ (bayAt t b).fuel.r = 0)
    ∧ (Safety.SettingsInRange s.run.settings → Safety.FrostInRange (bayAt s b).frost → (bayAt s b).capacity ≤ 600 →
        (bayAt s b).fuel.vref.getD 0 ≤ 6000 →
        ((bayAt t b).causes.saturate = true
          ↔ frostLimited s.run.settings snap.mode (reading snap.tc) (reading snap.tr)
              (decide ((bayAt t b).door.confirmed = .opened)) (frostAtCheck (bayAt s b) snap.mode)
            ∨ ((bayAt s b).capacity ≠ 0 ∧ (bayAt t b).fuel.r ≠ 0
              ∧ ∃ p ∈ levelRead snap.p, 65535 < p * (bayAt s b).capacity / 100 * 60 / (bayAt t b).fuel.r)))
    ∧ (bayAt t b).sticky = ⟨(bayAt s b).sticky.invalid || (bayAt t b).causes.invalid,
        (bayAt s b).sticky.range || (bayAt t b).causes.range, (bayAt s b).sticky.saturate || (bayAt t b).causes.saturate,
        (bayAt s b).sticky.norate || (bayAt t b).causes.norate⟩
    ∧ ∀ e, e ∈ (catAt t.alert .check).pending ↔ e ∈ (catAt s.alert .check).pending ∨ (e = b.succ
        ∧ (((bayAt t b).causes.invalid && s.run.settings.enables.invalid)
          || ((bayAt t b).causes.range && s.run.settings.enables.range)
          || ((bayAt t b).causes.saturate && s.run.settings.enables.saturate)
          || ((bayAt t b).causes.norate && s.run.settings.enables.norate)) = true)

/-- The frost stage (R72 to R81), in exact arithmetic, on a bay within its ranges: filter, first sample, reference, excess,
growth, door term, cap, melt, from the frost record that the end of an episode by the same poll leaves (R83). FROST is raised
for the bay exactly when the index comes to 60000 from below, or the poll ended its episode FAILED or TIMED-OUT (R131). -/
def Obligations.FrostStageOfACheck : Prop :=
  ∀ (s : State) (b : Bay) (snap : Snapshot) (i : Instr), checkedBy s b snap i →
    Safety.SettingsInRange s.run.settings → Safety.FrostInRange (bayAt s b).frost →
    ∃ t, exec i s = .next t
      ∧ (bayAt t b).frost = frostMath s.run.settings snap.mode (reading snap.tc) (reading snap.tr)
          (decide ((bayAt t b).door.confirmed = .opened)) (frostAtCheck (bayAt s b) snap.mode)
      ∧ ∀ e, e ∈ (catAt t.alert .frost).pending ↔ e ∈ (catAt s.alert .frost).pending
          ∨ (e = b.succ ∧ (endRaisesFrost (bayAt s b) snap.mode
            ∨ ((frostAtCheck (bayAt s b) snap.mode).f < 60000 ∧ (bayAt t b).frost.f = 60000)))

/-- The fuel stage (R86 to R96), in exact arithmetic, for a tank of at most 600 litres and a reference of at most
6000 decilitres: volume, capture, refuel, rate, endurance, low and short; a refuel clears FUEL-ORDERED (R18); FUEL is raised
for the bay exactly when low or short turns true with FUEL-ORDERED clear. -/
def Obligations.FuelStageOfACheck : Prop :=
  ∀ (s : State) (b : Bay) (snap : Snapshot) (i : Instr), checkedBy s b snap i →
    (bayAt s b).capacity ≤ 600 → (bayAt s b).fuel.vref.getD 0 ≤ 6000 →
    ∃ t, exec i s = .next t
      ∧ (bayAt t b).fuel = fuelMath s.run.settings (levelRead snap.p) (bayAt s b).capacity snap.source
          (bayAt s b).departure (bayAt s b).fuel
      ∧ ((bayAt t b).fuelOrdered = true ↔ (bayAt s b).fuelOrdered = true
          ∧ ¬ refuelTaken (levelRead snap.p) (bayAt s b).capacity (bayAt s b).fuel)
      ∧ ∀ e, e ∈ (catAt t.alert .fuel).pending ↔ e ∈ (catAt s.alert .fuel).pending
          ∨ (e = b.succ ∧ (bayAt t b).fuelOrdered = false
            ∧ (((bayAt t b).fuel.low = true ∧ (bayAt s b).fuel.low = false)
              ∨ ((bayAt t b).fuel.short = true ∧ (bayAt s b).fuel.short = false)))

/-- The door stage (R100 to R102) by its table, and "door opened": the bay's defrost business ends with reason DOOR by the
table of R145, where the same poll neither ends the episode nor moves its charge (R136, R148); a QUEUED or SHED bay's always,
with outcome ABORTED-DOOR and the bay in none of the arbiter's collections. -/
def Obligations.DoorStageOfACheck : Prop :=
  ∀ (s : State) (b : Bay) (snap : Snapshot) (i : Instr), checkedBy s b snap i → ∃ t, exec i s = .next t
    ∧ (bayAt t b).door = doorMath snap.door (bayAt s b).door
    ∧ (((bayAt s b).defrost.state = .queued ∨ (bayAt s b).defrost.state = .shed) →
        (bayAt s b).door.confirmed ≠ .opened → (bayAt t b).door.confirmed = .opened →
        (bayAt t b).defrost = afterOutcome s.run.settings.holdoff .abortedDoor (bayAt s b).defrost
        ∧ inNoCollection t b)
    ∧ (atRest s → ¬ moves s b snap → episodeGoesOn (bayAt s b) snap.mode →
        (bayAt s b).door.confirmed ≠ .opened → (bayAt t b).door.confirmed = .opened →
        businessEnded .door .abortedDoor s t b)

/-- R66 with R65: the product of two 16-bit magnitudes in two halves; the quotient and remainder of a 32-bit dividend by a
16-bit divisor, saturated at 65535 exactly when the high half is at or above the divisor, that is when the true quotient
exceeds 65535; a signed quotient truncates toward zero. What the remainder half holds after a saturation is left free. -/
def Obligations.DivideSaturatesAtTheHighHalf : Prop :=
  (∀ a b : Nat, a < 65536 → b < 65536 → accValue (multiply a b) = a * b ∧ (multiply a b).hi < 65536
      ∧ (multiply a b).lo < 65536)
    ∧ (∀ (a : Acc) (d : Nat), a.hi < 65536 → a.lo < 65536 → 1 ≤ d → d < 65536 →
        ((divide a d).saturated = true ↔ d ≤ a.hi) ∧ (d ≤ a.hi ↔ 65535 < accValue a / d)
        ∧ (d ≤ a.hi → (divide a d).acc.lo = 65535)
        ∧ (¬ d ≤ a.hi → (divide a d).acc.lo = accValue a / d ∧ (divide a d).acc.hi = accValue a % d))
    ∧ ∀ (x : Int) (m d : Nat), 1 ≤ d →
        withSign (decide (x * m < 0)) (x.natAbs * m / d) = (x * m).tdiv d

namespace Sys2Proof.Claims

/-- A demand of a bay stands in the queue as its newest entry, which is the last (R116), or the grant pass of the same change
has granted it. -/
abbrev demandStands (origin : Origin) (minute : Nat) (t : State) (b : Bay) : Prop :=
  (bayAt t b).defrost.origin = some origin
  ∧ (((bayAt t b).defrost.state = .queued
        ∧ ∃ older q, t.arb.queue = older ++ [q] ∧ (∀ p ∈ older, p.bay ≠ b) ∧ q.bay = b ∧ q.origin = origin ∧ q.joined = minute ∧ q.passOver ≤ 1)
      ∨ ((bayAt t b).defrost.state = .starting ∧ (bayAt t b).defrost.elapsed = 0
          ∧ (bayAt t b).defrost.draw = (bayAt t b).draw ∧ b ∈ t.arb.active
          ∧ ((⟨b, .start false⟩ : Order) ∈ t.loop.orders
              ∨ t.loop.exchange = some ⟨b, .order (.start false), .sending, false⟩)))

/-- The conditions of DEFROST NOW (R118). -/
abbrev mayDefrost (s : State) (b : Bay) : Prop :=
  s.run.state = .running ∧ (bayAt s b).occupancy = .parked ∧ (bayAt s b).defrost.state = .idle ∧ (bayAt s b).hold = none
    ∧ (bayAt s b).door.confirmed ≠ .opened ∧ (bayAt s b).link = .ok

end Sys2Proof.Claims

/-- A demand joins the queue as its newest entry, or is granted by the pass it brings: DEFROST NOW under its conditions,
refused otherwise (R118), and the demand test at the end of a check, by its six conditions (R82, R117). -/
def Obligations.DemandsJoinTheQueue : Prop :=
  (∀ (s : State) (st : Station), (st = .office ∨ st = .service) →
    (∀ b, mayDefrost s b → inNoCollection s b → ∃ t, exec (.defrostNow st [bayByte b]) s = .next t
        ∧ (slotAt t st).reply = ⟨.done, []⟩ ∧ demandStands .manual s.run.yardMinute t b)
    ∧ (∀ b, ¬ mayDefrost s b → exec (.defrostNow st [bayByte b]) s = .next (told st .refusedState [] s))
    ∧ ∀ x : Byte, noBay x → exec (.defrostNow st [x]) s = .next (told st .badArgument [] s))
  ∧ ∀ (s : State) (b : Bay) (snap : Snapshot) (i : Instr), checkedBy s b snap i → (bayAt s b).defrost.state = .idle →
      inNoCollection s b → ∃ t, exec i s = .next t
        ∧ ((s.run.settings.demandThreshold ≤ (bayAt t b).frost.f ∧ (bayAt s b).defrost.holdoff = 0
              ∧ (bayAt s b).hold = none ∧ (bayAt t b).door.confirmed ≠ .opened) →
            demandStands .estimate s.run.yardMinute t b)
        ∧ (¬ (s.run.settings.demandThreshold ≤ (bayAt t b).frost.f ∧ (bayAt s b).defrost.holdoff = 0
              ∧ (bayAt s b).hold = none ∧ (bayAt t b).door.confirmed ≠ .opened) →
            (bayAt t b).defrost = (bayAt s b).defrost)

/-- WITHDRAW from OFFICE or SERVICE (R119, R147) and FORCE RELEASE from FEEDER (R140): what ends at once ends with outcome
WITHDRAWN or FORCED and is in no collection; the draw that a HUNG bay gives back to a feeder brings a grant pass (R120); a STARTING bay whose START is sent keeps the reason; an ACTIVE one is stopped;
bays in any other defrost state are refused. -/
def Obligations.WithdrawAndForceRelease : Prop :=
  (∀ (s : State) (st : Station), (st = .office ∨ st = .service) →
    (∀ b, (bayAt s b).occupancy ≠ .departing →
      ((bayAt s b).defrost.state = .queued ∨ (bayAt s b).defrost.state = .shed
        ∨ ((bayAt s b).defrost.state = .starting ∧ startWaits s b)) →
      ∃ t, exec (.withdraw st [bayByte b]) s = .next t ∧ (slotAt t st).reply = ⟨.done, []⟩
        ∧ (bayAt t b).defrost = afterOutcome s.run.settings.holdoff .withdrawn (bayAt s b).defrost ∧ inNoCollection t b)
    ∧ (∀ b, atRest s → (bayAt s b).defrost.state = .starting → ¬ startWaits s b →
      ∃ t, exec (.withdraw st [bayByte b]) s = .next t ∧ (slotAt t st).reply = ⟨.done, []⟩
        ∧ (bayAt t b).defrost = { (bayAt s b).defrost with reason := some .withdraw } ∧ t.arb = s.arb)
    ∧ (∀ b, atRest s → (bayAt s b).defrost.state = .active → noOrder s b →
      ∃ t, exec (.withdraw st [bayByte b]) s = .next t ∧ (slotAt t st).reply = ⟨.done, []⟩
        ∧ (bayAt t b).defrost
            = { (bayAt s b).defrost with state := .stopping, reason := some .withdraw, shedPending := false }
        ∧ t.arb = { s.arb with active := s.arb.active.filter (fun x => x ≠ b) } ∧ stopOnItsWay t b)
    ∧ (∀ b, ((bayAt s b).defrost.state = .idle ∨ (bayAt s b).defrost.state = .stopping
        ∨ (bayAt s b).defrost.state = .hung) → exec (.withdraw st [bayByte b]) s = .next (told st .refusedState [] s))
    ∧ ∀ x : Byte, noBay x → exec (.withdraw st [x]) s = .next (told st .badArgument [] s))
  ∧ ∀ s : State,
    (∀ b, (bayAt s b).defrost.state = .hung → ∃ t, exec (.forceRelease .feeder [bayByte b]) s = .next t
        ∧ (slotAt t .feeder).reply = ⟨.done, []⟩ ∧ inNoCollection t b
        ∧ ((bayAt s b).occupancy ≠ .departing →
            (bayAt t b).defrost = afterOutcome s.run.settings.holdoff .forced (bayAt s b).defrost
            ∧ (bayAt t b).frost = (bayAt s b).frost)
        ∧ ((bayAt s b).occupancy = .departing → bayAt t b = emptiedRecord (bayAt s b))
        ∧ settled (endEpisode b .forced (taking .feeder s)) t
        ∧ ∀ f, (bayAt s b).defrost.charge = .feeder f → (endEpisode b .forced (taking .feeder s)).passDue = true)
    ∧ (∀ b, (bayAt s b).defrost.state ≠ .hung →
        exec (.forceRelease .feeder [bayByte b]) s = .next (told .feeder .refusedState [] s))
    ∧ ∀ x : Byte, noBay x → exec (.forceRelease .feeder [x]) s = .next (told .feeder .badArgument [] s)

/-! ## Budgets, shedding and the grant pass -/

/-- FEEDER BUDGET from FEEDER (R111, R113): one budget, or all four, stored up to 250 A and CLAMPED above; the budgets not
named stay; a lowered budget brings its feeder's shedding walk and a raised one, or a walk that frees current, a grant pass in
RUNNING (R112, R120); budgets written over equal ones have no effect; a feeder outside 1..4 is BAD-ARGUMENT. -/
def Obligations.BudgetsStored : Prop :=
  ∀ s : State,
    (∀ (f : FeederIx) (v1 v0 : Byte), ∃ t, exec (.feederBudgetSingle .feeder [feederByte f, v1, v0]) s = .next t
        ∧ (slotAt t .feeder).reply = ⟨doneUnless (250 < number v1 v0), []⟩
        ∧ (feederAt t f).budget = min (number v1 v0) 250
        ∧ (∀ g, g ≠ f → (feederAt t g).budget = (feederAt s g).budget)
        ∧ (min (number v1 v0) 250 = (feederAt s f).budget →
            t = told .feeder (doneUnless (250 < number v1 v0)) [] s)
        ∧ (min (number v1 v0) 250 ≠ (feederAt s f).budget →
            budgetChange (fun g => (feederAt t g).budget) (taking .feeder s) t))
    ∧ (∀ x v1 v0 : Byte, noFeeder x →
        exec (.feederBudgetSingle .feeder [x, v1, v0]) s = .next (told .feeder .badArgument [] s))
    ∧ ∀ a1 a0 b1 b0 c1 c0 d1 d0 : Byte,
        ∃ t, exec (.feederBudgetAll .feeder [a1, a0, b1, b0, c1, c0, d1, d0]) s = .next t
        ∧ (slotAt t .feeder).reply = ⟨doneUnless (250 < number a1 a0 ∨ 250 < number b1 b0 ∨ 250 < number c1 c0
            ∨ 250 < number d1 d0), []⟩
        ∧ (feederAt t 0).budget = min (number a1 a0) 250 ∧ (feederAt t 1).budget = min (number b1 b0) 250
        ∧ (feederAt t 2).budget = min (number c1 c0) 250 ∧ (feederAt t 3).budget = min (number d1 d0) 250
        ∧ ((∀ f, (feederAt t f).budget = (feederAt s f).budget) → ∀ b, bayAt t b = bayAt s b)
        ∧ ((∃ f, (feederAt t f).budget ≠ (feederAt s f).budget) →
            budgetChange (fun f => (feederAt t f).budget) (taking .feeder s) t)

namespace Sys2Proof.Claims

/-- A bay's draw counts in a feeder's admitted current (R110). -/
abbrev admittedOn (s : State) (f : FeederIx) (b : Bay) : Prop :=
  (bayAt s b).defrost.charge = .feeder f ∧ ((bayAt s b).defrost.state = .active
    ∨ ((bayAt s b).defrost.state = .starting ∧ (bayAt s b).defrost.shedPending = false))

/-- The charge that a grant pass decides for a queued bay (R122), none where its entry waits. -/
def chargeNow (r : BayRecord) : Charge :=
  match r.snapshot with
  | none => .none
  | some x => if x.source = .diesel then .self else r.feeder.elim .none .feeder

/-- A barrier of a feeder waits in the queue (R123). -/
abbrev barrierWaits (s : State) (f : FeederIx) : Prop :=
  ∃ p ∈ s.arb.queue, p.passOver = 4 ∧ chargeNow (bayAt s p.bay) = .feeder f

/-- The next entry of the walk, charged to feeder f, reaches the fit test (R123), u being the state at its turn. -/
abbrev reachesFit (u : State) (f : FeederIx) : Prop := (feederAt u f).stack = [] ∧ ¬ barrierWaits u f

/-- The end of a bay's business is a trigger of R120: its draw leaves a committed current, its entry leaves a shed stack, or
an entry of it with pass-over count 4 leaves the queue. -/
abbrev endFreesRoom (s : State) (b : Bay) : Prop :=
  ((∃ f : FeederIx, (bayAt s b).defrost.charge = .feeder f)
      ∧ ((bayAt s b).defrost.state = .starting ∨ (bayAt s b).defrost.state = .active
        ∨ (bayAt s b).defrost.state = .stopping ∨ (bayAt s b).defrost.state = .hung))
    ∨ onAStack s b ∨ ∃ q ∈ s.arb.queue, q.bay = b ∧ q.passOver = 4

/-- The state in which the outcome of an exchange awaiting its reply is taken: the exchange has ended with judged result j and
its gap has begun (R37). -/
def atEnd (b : Bay) (k : ExchangeKind) (j : Judged) (s : State) : State :=
  let gap := match j with
    | .failed _ => 20
    | _ => 2
  { s with loop := { s.loop with exchange := some ⟨b, k, .gap gap, false⟩ } }

/-- What the outcome of an exchange of bay b brings, before the end of the change. -/
def broughtBy (b : Bay) (k : ExchangeKind) (j : Judged) (s : State) : State := exchangeResult ⟨b, k, .awaiting, false⟩ j s

end Sys2Proof.Claims

/-- The shedding walk (R112), where every admitted bay of the feeder is in the active list: it ends with the admitted
current within the budget; it takes the newest bays first, so that no bay newer than a shed one stays admitted; the bays
that were not admitted on the feeder keep their defrost records. -/
def Obligations.ShedWalkTakesNewestFirst : Prop :=
  ∀ (s : State) (f : FeederIx), (∀ b, admittedOn s f b → b ∈ s.arb.active) → s.arb.active.Nodup →
    let t := shedWalk f s
    admitted t f ≤ (feederAt t f).budget ∧ (feederAt t f).budget = (feederAt s f).budget
    ∧ (admitted s f ≤ (feederAt s f).budget → t = s)
    ∧ (∀ b, ¬ admittedOn s f b → (bayAt t b).defrost = (bayAt s b).defrost)
    ∧ ∀ older newer b, s.arb.active = older ++ b :: newer → admittedOn s f b → ¬ admittedOn t f b →
        ∀ c ∈ newer, ¬ admittedOn t f c

/-- The grant pass (R120 to R124), where every queued bay is QUEUED, waits once, and every shed entry is charged to its
feeder. Bounds: committed current rises within the budget and never falls; stacks lose resumed entries from the top only; the
queue keeps its order. Completeness: no SHED entry that fits is left on top of a stack; each queue entry, at its turn, waits or
is granted by the tests of R123 in order, and its pass-over count rises by 1, to at most 4, exactly when it reaches the fit test
and does not fit; a granted bay is STARTING with its charge and draw captured. The end of a change makes the pass owed, in
RUNNING; so does the end of an exchange. Its triggers owe it: a demand that joins; an end that frees current, a stack's entry or a
barrier (R110, R116, R143); a charge that moves to SELF (R148); a bay that becomes SHED, by the shed of an unsent START or by
STOPPED on a stack (R137, R141); an unanswered STOP that takes an entry off its stack, or ends a DEPARTING bay (R138, R143); the
DEPART of a HUNG bay (R139); an answered poll that changes a QUEUED bay's run source; a NO-DIESEL-DEFROST cleared with its record
(notes/assumptions/13.md). A raised budget is in `BudgetsStored`, SET BAY DATA of a QUEUED bay in `SetBayDataStores`,
NO-DIESEL-DEFROST cleared by MARK in `MarkClearAndTestClear`. -/
def Obligations.GrantPassKeepsBudgetsAndOrder : Prop :=
  (∀ s, settled s (settle s) ∧ (settle s).passDue = false)
  ∧ (∀ (s : State) (b : Bay) (k : ExchangeKind) (i : Instr) (j : Judged), awaits s b k false →
      endsWith ⟨b, k, .awaiting, false⟩ j i →
      ∃ t, exec i s = .next t ∧ settled (broughtBy b k j (atEnd b k j s)) t ∧ t.passDue = false)
  ∧ (∀ (s : State) (b : Bay),
      (∀ snap, (bayAt s b).defrost.state = .queued → (∃ x ∈ (bayAt s b).snapshot, x.source ≠ snap.source) →
        (broughtBy b .poll (.telemetry snap) s).passDue = true)
      ∧ ((bayAt s b).defrost.state = .stopping → (bayAt s b).defrost.reason = some .shed →
          (broughtBy b (.order .stop) (.ack .stopped) s).passDue = true)
      ∧ (∀ o, (bayAt s b).defrost.state = .stopping →
          (onAStack s b ∨ ((bayAt s b).occupancy = .departing ∧ ∃ f : FeederIx, (bayAt s b).defrost.charge = .feeder f)) →
          (broughtBy b (.order .stop) (.failed o) s).passDue = true)
      ∧ (∀ f : FeederIx, (bayAt s b).defrost.state = .hung → (bayAt s b).defrost.charge = .feeder f →
          (departHung b s).passDue = true)
      ∧ ((bayAt s b).noDiesel = true → (becomeVacant b s).passDue = true))
  ∧ (∀ (s : State) (b : Bay), (∀ o, (joinQueue b o s).passDue = true)
      ∧ (endFreesRoom s b → ∀ o, (endEpisode b o s).passDue = true)
      ∧ (∀ f : FeederIx, (bayAt s b).defrost.charge = .feeder f →
          ((bayAt s b).defrost.state = .starting ∨ (bayAt s b).defrost.state = .active
            ∨ (bayAt s b).defrost.state = .hung ∨ ((bayAt s b).defrost.state = .stopping ∧ ¬ onAStack s b)) →
          (sourceStep b .diesel s).passDue = true)
      ∧ ∀ f : FeederIx, (bayAt s b).defrost.charge = .feeder f → (bayAt s b).defrost.state = .starting →
          startWaits s b → (shed f b s).passDue = true)
  ∧ ∀ s : State, (s.arb.queue.map fun q => q.bay).Nodup → (∀ q ∈ s.arb.queue, (bayAt s q.bay).defrost.state = .queued) →
    (∀ f, ∀ e ∈ (feederAt s f).stack, (bayAt s e.bay).defrost.charge = .feeder f) →
    let t := grantPass s
    let stays := fun b => b ∈ t.arb.queue.map fun q => q.bay
    (∀ f, committed s f ≤ committed t f ∧ committed t f ≤ max (committed s f) (feederAt s f).budget
        ∧ (feederAt t f).budget = (feederAt s f).budget)
    ∧ (∀ f, ∃ resumed, (feederAt s f).stack = resumed ++ (feederAt t f).stack
        ∧ ∀ e ∈ resumed, (bayAt t e.bay).defrost.state = .starting
            ∧ (bayAt t e.bay).defrost.draw = (bayAt s e.bay).defrost.draw ∧ e.bay ∈ t.arb.active)
    ∧ (t.arb.queue.map fun q => q.bay).Sublist (s.arb.queue.map fun q => q.bay)
    ∧ (∀ q ∈ t.arb.queue, ∃ p ∈ s.arb.queue, p.bay = q.bay ∧ p.origin = q.origin ∧ p.joined = q.joined
        ∧ (q.passOver = p.passOver ∨ q.passOver = min (p.passOver + 1) 4))
    ∧ (∀ q ∈ s.arb.queue, ¬ stays q.bay → (bayAt t q.bay).defrost.state = .starting
        ∧ (bayAt t q.bay).defrost.draw = (bayAt s q.bay).draw ∧ (bayAt t q.bay).defrost.elapsed = 0
        ∧ q.bay ∈ t.arb.active ∧ (bayAt t q.bay).defrost.charge = chargeNow (bayAt s q.bay)
        ∧ chargeNow (bayAt s q.bay) ≠ .none
        ∧ ∀ f, chargeNow (bayAt s q.bay) = .feeder f → (feederAt t f).stack = [])
    ∧ (∀ front middle back p q f, s.arb.queue = front ++ p :: middle ++ q :: back → p.passOver = 4 →
        chargeNow (bayAt s p.bay) = .feeder f → chargeNow (bayAt s q.bay) = .feeder f → stays p.bay → stays q.bay)
    ∧ (∀ f top rest, (feederAt t f).stack = top :: rest → (bayAt t top.bay).defrost.state = .shed →
        (feederAt t f).budget < committed t f + (bayAt t top.bay).defrost.draw)
    ∧ ∀ front q back, s.arb.queue = front ++ q :: back →
        let u := grantPass { s with arb := { s.arb with queue := front } }
        (chargeNow (bayAt s q.bay) = .none → q ∈ t.arb.queue)
        ∧ (chargeNow (bayAt s q.bay) = .self →
            ((bayAt s q.bay).noDiesel = true → q ∈ t.arb.queue)
            ∧ ((bayAt s q.bay).noDiesel = false → ¬ stays q.bay))
        ∧ ∀ f, chargeNow (bayAt s q.bay) = .feeder f →
            (¬ reachesFit u f → q ∈ t.arb.queue)
            ∧ (reachesFit u f → committed u f + (bayAt s q.bay).draw ≤ (feederAt s f).budget → ¬ stays q.bay)
            ∧ (reachesFit u f → (feederAt s f).budget < committed u f + (bayAt s q.bay).draw →
                { q with passOver := min (q.passOver + 1) 4 } ∈ t.arb.queue)

/-! ## Episodes -/

/-- A START's exchange for a STARTING bay (R134, R135): TAKEN gives ACTIVE, or STOPPING with the reason written meanwhile,
or the shed that waited; a refusal ends the episode with its outcome, and a DEPARTING bay then becomes VACANT (R9); an
unanswered START gives STOPPING with reason UNCONFIRMED. -/
def Obligations.StartOrderOutcomes : Prop :=
  ∀ (s : State) (b : Bay) (resume : Bool) (i : Instr) (j : Judged), awaits s b (.order (.start resume)) false →
    endsWith ⟨b, .order (.start resume), .awaiting, false⟩ j i → (bayAt s b).defrost.state = .starting → atRest s →
    ∃ t, exec i s = .next t
      ∧ (j = .ack .taken → (bayAt t b).lastExchange = .answered)
      ∧ (j = .ack .taken → (bayAt s b).defrost.reason = none → (bayAt s b).defrost.shedPending = false →
          (bayAt t b).defrost = { (bayAt s b).defrost with state := .active } ∧ t.arb = s.arb)
      ∧ (∀ r, j = .ack .taken → (bayAt s b).defrost.reason = some r → noOrder s b →
          (bayAt t b).defrost = { (bayAt s b).defrost with state := .stopping, shedPending := false }
          ∧ t.arb = { s.arb with active := s.arb.active.filter (fun x => x ≠ b) }
          ∧ (⟨b, .stop⟩ : Order) ∈ t.loop.orders)
      ∧ (∀ f, j = .ack .taken → (bayAt s b).defrost.reason = none → (bayAt s b).defrost.shedPending = true →
          (bayAt s b).defrost.charge = .feeder f → noOrder s b →
          b ∉ t.arb.active ∧ (⟨b, .stop⟩ : Order) ∈ t.loop.orders
          ∧ ((feederAt s f).stack.length < 8 →
              (bayAt t b).defrost
                = { (bayAt s b).defrost with state := .stopping, reason := some .shed, shedPending := false }
              ∧ (feederAt t f).stack = ⟨b, none⟩ :: (feederAt s f).stack
              ∧ (feederAt t f).nearFull = ((feederAt s f).nearFull || decide ((feederAt s f).stack.length = 6))
              ∧ ((feederAt s f).stack.length = 6 → (b.succ : Element) ∈ (catAt t.alert .power).pending))
          ∧ (8 ≤ (feederAt s f).stack.length →
              (bayAt t b).defrost
                = { (bayAt s b).defrost with state := .stopping, reason := some .overflow, shedPending := false }
              ∧ (feederAt t f).stack = (feederAt s f).stack ∧ (feederAt t f).overflow = true
              ∧ (b.succ : Element) ∈ (catAt t.alert .power).pending))
      ∧ (∀ r o, j = .ack r → (r = .refusedWarm ∧ o = .notNeeded ∨ r = .refusedDoor ∧ o = .abortedDoor
            ∨ r = .refusedFault ∧ o = .failed) → (bayAt s b).occupancy ≠ .departing →
          (bayAt t b).defrost = afterOutcome s.run.settings.holdoff o (bayAt s b).defrost
          ∧ (bayAt t b).frost = frostAfter o (bayAt s b).frost ∧ inNoCollection t b
          ∧ (r = .refusedFault → (b.succ : Element) ∈ (catAt t.alert .frost).pending))
      ∧ (∀ r, j = .ack r → r ≠ .taken → (bayAt s b).occupancy = .departing →
          bayAt t b = emptiedRecord (bayAt s b) ∧ inNoCollection t b
          ∧ (r = .refusedFault → (b.succ : Element) ∈ (catAt t.alert .frost).pending))
      ∧ ∀ o, j = .failed o → noOrder s b →
          (bayAt t b).defrost
            = { (bayAt s b).defrost with state := .stopping, reason := some .unconfirmed, shedPending := false }
          ∧ (bayAt t b).lastExchange = o ∧ b ∉ t.arb.active ∧ (⟨b, .stop⟩ : Order) ∈ t.loop.orders

/-- A STOP's exchange for a STOPPING bay that waits in no queue (R137, R138): STOPPED ends the episode with the outcome of
its stop reason, or of the end recorded on its stack entry, or makes it SHED; unanswered it is HUNG off the stacks with the
reason kept, or the end recorded on its entry as its reason, and POWER raised; a DEPARTING bay becomes VACANT either way. -/
def Obligations.StopOrderOutcomes : Prop :=
  ∀ (s : State) (b : Bay) (i : Instr) (j : Judged), awaits s b (.order .stop) false →
    endsWith ⟨b, .order .stop, .awaiting, false⟩ j i → (bayAt s b).defrost.state = .stopping →
    (∀ q ∈ s.arb.queue, q.bay ≠ b) →
    ∃ t, exec i s = .next t
      ∧ (∀ r o, j = .ack .stopped → (bayAt s b).defrost.reason = some r → outcomeFor r = some o →
          inNoCollection t b
          ∧ ((bayAt s b).occupancy ≠ .departing →
              (bayAt t b).defrost = afterOutcome s.run.settings.holdoff o (bayAt s b).defrost
              ∧ (bayAt t b).frost = (bayAt s b).frost
              ∧ (r = .timeout → (b.succ : Element) ∈ (catAt t.alert .frost).pending))
          ∧ ((bayAt s b).occupancy = .departing → bayAt t b = emptiedRecord (bayAt s b)))
      ∧ (∀ r o, j = .ack .stopped → (bayAt s b).defrost.reason = some .shed → onAStack s b →
          (∀ f, ∀ e ∈ (feederAt s f).stack, e.bay = b → e.ended = some r) → outcomeFor r = some o → inNoCollection t b
          ∧ ((bayAt s b).occupancy ≠ .departing →
              (bayAt t b).defrost = afterOutcome s.run.settings.holdoff o (bayAt s b).defrost
              ∧ (bayAt t b).frost = (bayAt s b).frost)
          ∧ ((bayAt s b).occupancy = .departing → bayAt t b = emptiedRecord (bayAt s b)))
      ∧ (j = .ack .stopped → (bayAt s b).defrost.reason = some .shed →
          (∀ f, ∀ e ∈ (feederAt s f).stack, e.bay = b → e.ended = none) →
          (bayAt t b).defrost.reason = none
          ∧ ((bayAt t b).defrost.state = .shed ∨ (s.run.state = .running ∧ (bayAt t b).defrost.state = .starting))
          ∧ (bayAt t b).defrost.charge = (bayAt s b).defrost.charge
          ∧ (bayAt t b).defrost.draw = (bayAt s b).defrost.draw)
      ∧ (∀ o, j = .failed o → (bayAt s b).occupancy ≠ .departing →
          ((bayAt s b).defrost.reason ≠ some .shed →
            (bayAt t b).defrost = { (bayAt s b).defrost with state := .hung })
          ∧ ((bayAt s b).defrost.reason = some .shed →
              (∀ f, ∀ e ∈ (feederAt s f).stack, e.bay = b → e.ended = none) →
              (bayAt t b).defrost = { (bayAt s b).defrost with state := .hung, reason := some .unconfirmed })
          ∧ (∀ r, (bayAt s b).defrost.reason = some .shed → onAStack s b →
              (∀ f, ∀ e ∈ (feederAt s f).stack, e.bay = b → e.ended = some r) →
              (bayAt t b).defrost = { (bayAt s b).defrost with state := .hung, reason := some r })
          ∧ (bayAt t b).lastExchange = o ∧ ¬ onAStack t b
          ∧ (b.succ : Element) ∈ (catAt t.alert .power).pending)
      ∧ ∀ o, j = .failed o → (bayAt s b).occupancy = .departing → bayAt t b = emptiedRecord (bayAt s b)

/-- What an answered poll does to the episode of a polled bay. Its mode (R136, R139): an ACTIVE bay that no longer
defrosts has ended COMPLETE, one in FAULT has FAILED with FROST raised, one in DEFROST stays ACTIVE; a HUNG bay that no longer
defrosts ends with the outcome of its reason, one that still does stays HUNG; a DEPARTING bay whose episode so ends becomes VACANT
(R9). Its run source (R148), where the mode ends nothing
and the door is not newly OPEN: a feeder's charge becomes SELF on DIESEL; on SHORE a SELF charge moves to the bay's feeder, and
a STARTING or ACTIVE bay that does not fit is shed; one whose unsent START is cancelled is SHED where, as the collections' law
of `StepKeepsBudgets` has it for every STARTING bay (R129), it stands on no shed stack. -/
def Obligations.PollModeEndsEpisodes : Prop :=
  ∀ (s : State) (b : Bay) (snap : Snapshot) (i : Instr), awaits s b .poll false →
    endsWith ⟨b, .poll, .awaiting, false⟩ (.telemetry snap) i →
    isPolled s b →
    ∃ t, exec i s = .next t
      ∧ ((bayAt s b).occupancy = .departing → endsByMode (bayAt s b) snap.mode → bayAt t b = emptiedRecord (bayAt s b)
          ∧ (snap.mode = .fault → (bayAt s b).defrost.state = .active →
              (b.succ : Element) ∈ (catAt t.alert .frost).pending))
      ∧ ((bayAt s b).occupancy ≠ .departing →
          (bayAt s b).defrost.state = .active → snap.mode ≠ .defrost → snap.mode ≠ .fault →
          (bayAt t b).defrost.outcome = some .complete
          ∧ (bayAt t b).defrost.count = min ((bayAt s b).defrost.count + 1) 255
          ∧ (bayAt t b).defrost.holdoff = s.run.settings.holdoff ∧ (bayAt t b).defrost.state ≠ .active
          ∧ (bayAt t b).defrost.reason = none)
      ∧ ((bayAt s b).occupancy ≠ .departing → (bayAt s b).defrost.state = .active → snap.mode = .fault →
          (bayAt t b).defrost.outcome = some .failed ∧ (bayAt t b).defrost.count = (bayAt s b).defrost.count
          ∧ (bayAt t b).defrost.holdoff = (bayAt s b).defrost.holdoff ∧ (bayAt t b).defrost.state ≠ .active
          ∧ (b.succ : Element) ∈ (catAt t.alert .frost).pending)
      ∧ (∀ r o, (bayAt s b).occupancy ≠ .departing → (bayAt s b).defrost.state = .hung → snap.mode ≠ .defrost →
          (bayAt s b).defrost.reason = some r → outcomeFor r = some o → (bayAt t b).defrost.outcome = some o ∧ (bayAt t b).defrost.state ≠ .hung)
      ∧ ((bayAt s b).defrost.state = .hung → snap.mode = .defrost → (∀ q ∈ s.arb.queue, q.bay ≠ b) →
          (bayAt t b).defrost.state = .hung ∧ (bayAt t b).defrost.reason = (bayAt s b).defrost.reason
          ∧ (bayAt t b).defrost.draw = (bayAt s b).defrost.draw)
      ∧ ((∀ q ∈ s.arb.queue, q.bay ≠ b) → episodeGoesOn (bayAt s b) snap.mode →
          ((bayAt t b).door.confirmed = .opened → (bayAt s b).door.confirmed = .opened) →
          let d := (bayAt s b).defrost
          (d.state = .active → ¬ moves s b snap → (bayAt t b).defrost = d)
          ∧ (moves s b snap → snap.source = .diesel →
              (bayAt t b).defrost = { d with charge := .self, shedPending := false })
          ∧ ∀ f, (bayAt s b).feeder = some f → moves s b snap → snap.source = .shore →
              let fits := committed s f + d.draw ≤ (feederAt s f).budget
              ((fits ∨ d.state = .stopping ∨ d.state = .hung) →
                (bayAt t b).defrost = { d with charge := .feeder f })
              ∧ (¬ fits → d.state = .starting → ¬ startWaits s b →
                (bayAt t b).defrost = { d with charge := .feeder f, shedPending := true })
              ∧ (¬ fits → d.state = .starting → startWaits s b → ¬ onAStack s b → (feederAt s f).stack.length < 8 →
                (bayAt t b).defrost
                  = { d with charge := .feeder f, state := .shed, reason := none, shedPending := false }
                ∧ (feederAt t f).stack = ⟨b, none⟩ :: (feederAt s f).stack ∧ b ∉ t.arb.active)
              ∧ (¬ fits → d.state = .starting → startWaits s b → 8 ≤ (feederAt s f).stack.length →
                ((bayAt s b).occupancy ≠ .departing → (bayAt t b).defrost.outcome = some .abortedOverflow)
                ∧ ((bayAt s b).occupancy = .departing → bayAt t b = emptiedRecord (bayAt s b))
                ∧ (feederAt t f).overflow = true
                ∧ (b.succ : Element) ∈ (catAt t.alert .power).pending)
              ∧ (¬ fits → d.state = .active → (feederAt s f).stack.length < 8 →
                (bayAt t b).defrost
                  = { d with charge := .feeder f, state := .stopping, reason := some .shed, shedPending := false }
                ∧ (feederAt t f).stack = ⟨b, none⟩ :: (feederAt s f).stack
                ∧ b ∉ t.arb.active ∧ (noOrder s b → stopOnItsWay t b))
              ∧ (¬ fits → d.state = .active → 8 ≤ (feederAt s f).stack.length →
                (bayAt t b).defrost
                  = { d with charge := .feeder f, state := .stopping, reason := some .overflow, shedPending := false }
                ∧ (feederAt t f).overflow = true ∧ (b.succ : Element) ∈ (catAt t.alert .power).pending
                ∧ b ∉ t.arb.active ∧ (noOrder s b → stopOnItsWay t b)))

/-! ## Alerts -/

/-- TAKE ALERT, RELEASE ALERT and ALERT MASK from any slot (R152 to R156). A category is eligible exactly when it is latched,
not masked, in service nowhere and past the nesting test (R153, R154). The eligible category of highest priority goes
onto the station's stack with its whole pending set, which the reply sends bit by bit, or NONE with the empty set; the top
entry is released only under its own name; the mask is replaced; the lines are evaluated; nothing else changes. -/
def Obligations.TakeReleaseAndMask : Prop :=
  ∀ (s : State) (st : Station),
    let mode := s.run.settings.nesting
    let lit := fun t : State => ∀ o, (alertAt t.alert o).line = true ↔ ∃ c, eligible mode t.alert o c = true
    let others := fun t : State => ∀ o, o ≠ st → (alertAt t.alert o).mask = (alertAt s.alert o).mask
      ∧ (alertAt t.alert o).stack = (alertAt s.alert o).stack
      ∧ (alertAt t.alert o).silence = (alertAt s.alert o).silence
    (∀ (u : AlertUnit) c, eligible mode u st c = true ↔ mayTake mode u st c)
    ∧ ((∀ c, eligible mode s.alert st c = false) →
      exec (.takeAlert st []) s = .next (told st .done [0, 0, 0, 0, 0, 0, 0] s))
    ∧ (∀ c, eligible mode s.alert st c = true → (∀ d, eligible mode s.alert st d = true →
          numberOf c ≤ numberOf d) → (catAt s.alert c).pending.Pairwise (· < ·) →
        ∃ t bits, exec (.takeAlert st []) s = .next t
          ∧ t = { told st .done (BitVec.ofNat 8 (numberOf c) :: bits) s with alert := t.alert }
          ∧ bits.length = 6
          ∧ (∀ e : Element, (bits.getD (e.val / 8) 0).getLsbD (e.val % 8) = decide (e ∈ (catAt s.alert c).pending))
          ∧ (alertAt t.alert st).stack = ⟨c, (catAt s.alert c).pending⟩ :: (alertAt s.alert st).stack
          ∧ (alertAt t.alert st).mask = (alertAt s.alert st).mask ∧ (alertAt t.alert st).silence = 0
          ∧ catAt t.alert c = ⟨false, []⟩ ∧ (∀ d, d ≠ c → catAt t.alert d = catAt s.alert d) ∧ others t ∧ lit t)
    ∧ (∀ (c : Category) (set : List Element) (rest : List ServiceEntry),
        (alertAt s.alert st).stack = ⟨c, set⟩ :: rest →
        ∃ t, exec (.releaseAlert st [BitVec.ofNat 8 (numberOf c)]) s = .next t
          ∧ t = { told st .done [] s with alert := t.alert }
          ∧ (alertAt t.alert st).stack = rest ∧ (alertAt t.alert st).mask = (alertAt s.alert st).mask
          ∧ (∀ d, catAt t.alert d = catAt s.alert d) ∧ others t ∧ lit t)
    ∧ (∀ c, ((alertAt s.alert st).stack.head?.map fun e => e.category) ≠ some c →
        exec (.releaseAlert st [BitVec.ofNat 8 (numberOf c)]) s = .next (told st .refusedState [] s))
    ∧ (∀ x : Byte, (x.toNat = 0 ∨ 7 ≤ x.toNat) →
        exec (.releaseAlert st [x]) s = .next (told st .badArgument [] s))
    ∧ (∀ x : Byte, x.toNat < 64 → ∃ t, exec (.alertMask st [x]) s = .next t
        ∧ t = { told st .done [] s with alert := t.alert }
        ∧ (∀ c, c ∈ (alertAt t.alert st).mask ↔ x.getLsbD (numberOf c - 1) = true)
        ∧ (alertAt t.alert st).stack = (alertAt s.alert st).stack
        ∧ (∀ d, catAt t.alert d = catAt s.alert d) ∧ others t ∧ lit t)
    ∧ ∀ x : Byte, 64 ≤ x.toNat → exec (.alertMask st [x]) s = .next (told st .badArgument [] s)

namespace Sys2Proof.Claims

/-! ## Invariants -/

/-- What the arbiter, the loop and the bay table keep of the defrost business: the collections are in step with the defrost
states (R116, R129), orders with them (R49), admitted current is within the budget (R110), no OPEN bay is QUEUED or SHED (R145),
nothing waits for a grant outside RUNNING, no defrost but a HUNG one is left in SETUP and HALTED (R22, R116, R146), HALTING lasts
only while an order waits or a bay is STARTING or STOPPING (R25), and a VACANT or OUT-OF-SERVICE bay holds its reset values (R3, R10). The last three laws say why: SHED is written only with a push
(R141), an ended bay cannot start again (R145), an exchange in flight is with a polled bay (R3, R7). -/
def BudgetInv (s : State) : Prop :=
  Safety.CollectionLaw s ∧ Safety.OrderLaw s ∧ Safety.BudgetLaw s ∧ Safety.DoorLaw s ∧ Safety.RunLaw s
    ∧ Safety.EmptyLaw s ∧ Safety.ReasonLaw s ∧ Safety.EndedLaw s ∧ Safety.ExchangeLaw s

/-- Idents have 8 characters, shed stacks at most 8 entries, and each reply buffer at most 62 data bytes (R5, R142, R166). -/
def BuffersFit (s : State) : Prop :=
  (∀ b, ∀ i ∈ (bayAt s b).ident, i.length = 8) ∧ Safety.StacksBounded s
    ∧ ∀ st, (slotAt s st).reply.data.length ≤ 62

end Sys2Proof.Claims

/-- Every law that the statements below keep holds after reset. -/
def Obligations.LawsHoldAtReset : Prop :=
  Safety.RangesLaw State.reset ∧ Safety.IdentLaw State.reset ∧ Safety.MissLaw State.reset
    ∧ Safety.AlertLaw State.reset.alert ∧ Safety.LineLaw State.reset ∧ Safety.LoopLaw State.reset
    ∧ BudgetInv State.reset ∧ BuffersFit State.reset ∧ Safety.RestLaw State.reset

/-- Every step keeps the ranges of settings, clock and records; the laws of idents and of miss counts; and the bounds of
idents, shed stacks and reply buffers. -/
def Obligations.StepKeepsRecordLaws : Prop :=
  (∀ s t : State, Safety.RangesLaw s → step s = .next t → Safety.RangesLaw t)
    ∧ (∀ s t : State, Safety.IdentLaw s → Safety.MissLaw s → step s = .next t → Safety.IdentLaw t ∧ Safety.MissLaw t)
    ∧ ∀ s t : State, BuffersFit s → step s = .next t → BuffersFit t

/-- Every step keeps the alert unit's laws and the meaning of the ALERT lines, and the loop controller's laws. -/
def Obligations.StepKeepsAlertAndLoopLaws : Prop :=
  (∀ s t : State, Safety.AlertLaw s.alert → Safety.LineLaw s → step s = .next t →
      Safety.AlertLaw t.alert ∧ Safety.LineLaw t)
    ∧ ∀ s t : State, Safety.LoopLaw s → step s = .next t → Safety.LoopLaw t

/-- Every step keeps the laws of the defrost business together: the arbiter's collections in step with the defrost states and
the orders, each feeder's admitted current within its budget, the laws of open doors, of run states (the change in HALTING after
which neither order nor STARTING or STOPPING bay is left enters HALTED, R25) and of empty records. Every step also ends with no grant pass owed, no moment open and no request in progress (the model's own fields,
notes/assumptions/5.md, 6.md and 8.md). -/
def Obligations.StepKeepsBudgets : Prop :=
  (∀ s t : State, BudgetInv s → step s = .next t → BudgetInv t)
    ∧ ∀ s t : State, Safety.RestLaw s → step s = .next t → Safety.RestLaw t
end

