-- ==== Sys2Proof/Laws/State.lean ====
section
/-! SUPPORT. One lemma per field per update of the state: what an update of the state's plain operations leaves as it was, and
what is read back from the place it wrote. -/

namespace Sys2Proof.Machine

/-! ## Fields an update leaves as they were -/

@[simp] theorem setBay_run (b : Bay) (r : BayRecord) (s : State) : (setBay b r s).run = s.run := rfl
@[simp] theorem setBay_loop (b : Bay) (r : BayRecord) (s : State) : (setBay b r s).loop = s.loop := rfl
@[simp] theorem setBay_arb (b : Bay) (r : BayRecord) (s : State) : (setBay b r s).arb = s.arb := rfl
@[simp] theorem setBay_alert (b : Bay) (r : BayRecord) (s : State) : (setBay b r s).alert = s.alert := rfl
@[simp] theorem setBay_port (b : Bay) (r : BayRecord) (s : State) : (setBay b r s).port = s.port := rfl
@[simp] theorem setBay_passDue (b : Bay) (r : BayRecord) (s : State) : (setBay b r s).passDue = s.passDue := rfl
@[simp] theorem setBay_freeDraws (b : Bay) (r : BayRecord) (s : State) : (setBay b r s).freeDraws = s.freeDraws := rfl
@[simp] theorem setBay_moments (b : Bay) (r : BayRecord) (s : State) : (setBay b r s).moments = s.moments := rfl
@[simp] theorem setBay_pending (b : Bay) (r : BayRecord) (s : State) : (setBay b r s).pending = s.pending := rfl

@[simp] theorem modBay_run (b : Bay) (g : BayRecord → BayRecord) (s : State) : (modBay b g s).run = s.run := rfl
@[simp] theorem modBay_loop (b : Bay) (g : BayRecord → BayRecord) (s : State) : (modBay b g s).loop = s.loop := rfl
@[simp] theorem modBay_arb (b : Bay) (g : BayRecord → BayRecord) (s : State) : (modBay b g s).arb = s.arb := rfl
@[simp] theorem modBay_alert (b : Bay) (g : BayRecord → BayRecord) (s : State) : (modBay b g s).alert = s.alert := rfl
@[simp] theorem modBay_port (b : Bay) (g : BayRecord → BayRecord) (s : State) : (modBay b g s).port = s.port := rfl
@[simp] theorem modBay_passDue (b : Bay) (g : BayRecord → BayRecord) (s : State) : (modBay b g s).passDue = s.passDue := rfl
@[simp] theorem modBay_freeDraws (b : Bay) (g : BayRecord → BayRecord) (s : State) : (modBay b g s).freeDraws = s.freeDraws := rfl
@[simp] theorem modBay_moments (b : Bay) (g : BayRecord → BayRecord) (s : State) : (modBay b g s).moments = s.moments := rfl
@[simp] theorem modBay_pending (b : Bay) (g : BayRecord → BayRecord) (s : State) : (modBay b g s).pending = s.pending := rfl

@[simp] theorem modDefrost_run (b : Bay) (g : Defrost → Defrost) (s : State) : (modDefrost b g s).run = s.run := rfl
@[simp] theorem modDefrost_loop (b : Bay) (g : Defrost → Defrost) (s : State) : (modDefrost b g s).loop = s.loop := rfl
@[simp] theorem modDefrost_arb (b : Bay) (g : Defrost → Defrost) (s : State) : (modDefrost b g s).arb = s.arb := rfl
@[simp] theorem modDefrost_alert (b : Bay) (g : Defrost → Defrost) (s : State) : (modDefrost b g s).alert = s.alert := rfl
@[simp] theorem modDefrost_port (b : Bay) (g : Defrost → Defrost) (s : State) : (modDefrost b g s).port = s.port := rfl
@[simp] theorem modDefrost_passDue (b : Bay) (g : Defrost → Defrost) (s : State) : (modDefrost b g s).passDue = s.passDue := rfl
@[simp] theorem modDefrost_freeDraws (b : Bay) (g : Defrost → Defrost) (s : State) : (modDefrost b g s).freeDraws = s.freeDraws := rfl
@[simp] theorem modDefrost_moments (b : Bay) (g : Defrost → Defrost) (s : State) : (modDefrost b g s).moments = s.moments := rfl
@[simp] theorem modDefrost_pending (b : Bay) (g : Defrost → Defrost) (s : State) : (modDefrost b g s).pending = s.pending := rfl

@[simp] theorem mapBays_run (g : BayRecord → BayRecord) (s : State) : (mapBays g s).run = s.run := by
  unfold mapBays; rfl
@[simp] theorem mapBays_loop (g : BayRecord → BayRecord) (s : State) : (mapBays g s).loop = s.loop := by
  unfold mapBays; rfl
@[simp] theorem mapBays_arb (g : BayRecord → BayRecord) (s : State) : (mapBays g s).arb = s.arb := by
  unfold mapBays; rfl
@[simp] theorem mapBays_alert (g : BayRecord → BayRecord) (s : State) : (mapBays g s).alert = s.alert := by
  unfold mapBays; rfl
@[simp] theorem mapBays_port (g : BayRecord → BayRecord) (s : State) : (mapBays g s).port = s.port := by
  unfold mapBays; rfl
@[simp] theorem mapBays_passDue (g : BayRecord → BayRecord) (s : State) : (mapBays g s).passDue = s.passDue := by
  unfold mapBays; rfl
@[simp] theorem mapBays_freeDraws (g : BayRecord → BayRecord) (s : State) : (mapBays g s).freeDraws = s.freeDraws := by
  unfold mapBays; rfl
@[simp] theorem mapBays_moments (g : BayRecord → BayRecord) (s : State) : (mapBays g s).moments = s.moments := by
  unfold mapBays; rfl
@[simp] theorem mapBays_pending (g : BayRecord → BayRecord) (s : State) : (mapBays g s).pending = s.pending := by
  unfold mapBays; rfl

@[simp] theorem setFeeder_run (f : FeederIx) (r : Feeder) (s : State) : (setFeeder f r s).run = s.run := rfl
@[simp] theorem setFeeder_bays (f : FeederIx) (r : Feeder) (s : State) : (setFeeder f r s).bays = s.bays := rfl
@[simp] theorem setFeeder_loop (f : FeederIx) (r : Feeder) (s : State) : (setFeeder f r s).loop = s.loop := rfl
@[simp] theorem setFeeder_alert (f : FeederIx) (r : Feeder) (s : State) : (setFeeder f r s).alert = s.alert := rfl
@[simp] theorem setFeeder_port (f : FeederIx) (r : Feeder) (s : State) : (setFeeder f r s).port = s.port := rfl
@[simp] theorem setFeeder_passDue (f : FeederIx) (r : Feeder) (s : State) : (setFeeder f r s).passDue = s.passDue := rfl
@[simp] theorem setFeeder_freeDraws (f : FeederIx) (r : Feeder) (s : State) : (setFeeder f r s).freeDraws = s.freeDraws := rfl
@[simp] theorem setFeeder_moments (f : FeederIx) (r : Feeder) (s : State) : (setFeeder f r s).moments = s.moments := rfl
@[simp] theorem setFeeder_pending (f : FeederIx) (r : Feeder) (s : State) : (setFeeder f r s).pending = s.pending := rfl

@[simp] theorem raiseAlert_run (c : Category) (e : Element) (s : State) : (raiseAlert c e s).run = s.run := rfl
@[simp] theorem raiseAlert_bays (c : Category) (e : Element) (s : State) : (raiseAlert c e s).bays = s.bays := rfl
@[simp] theorem raiseAlert_loop (c : Category) (e : Element) (s : State) : (raiseAlert c e s).loop = s.loop := rfl
@[simp] theorem raiseAlert_arb (c : Category) (e : Element) (s : State) : (raiseAlert c e s).arb = s.arb := rfl
@[simp] theorem raiseAlert_port (c : Category) (e : Element) (s : State) : (raiseAlert c e s).port = s.port := rfl
@[simp] theorem raiseAlert_passDue (c : Category) (e : Element) (s : State) : (raiseAlert c e s).passDue = s.passDue := rfl
@[simp] theorem raiseAlert_freeDraws (c : Category) (e : Element) (s : State) : (raiseAlert c e s).freeDraws = s.freeDraws := rfl
@[simp] theorem raiseAlert_moments (c : Category) (e : Element) (s : State) : (raiseAlert c e s).moments = s.moments := rfl
@[simp] theorem raiseAlert_pending (c : Category) (e : Element) (s : State) : (raiseAlert c e s).pending = s.pending := rfl

@[simp] theorem owePass_run (s : State) : (owePass s).run = s.run := rfl
@[simp] theorem owePass_bays (s : State) : (owePass s).bays = s.bays := rfl
@[simp] theorem owePass_loop (s : State) : (owePass s).loop = s.loop := rfl
@[simp] theorem owePass_arb (s : State) : (owePass s).arb = s.arb := rfl
@[simp] theorem owePass_alert (s : State) : (owePass s).alert = s.alert := rfl
@[simp] theorem owePass_port (s : State) : (owePass s).port = s.port := rfl
@[simp] theorem owePass_freeDraws (s : State) : (owePass s).freeDraws = s.freeDraws := rfl
@[simp] theorem owePass_moments (s : State) : (owePass s).moments = s.moments := rfl
@[simp] theorem owePass_pending (s : State) : (owePass s).pending = s.pending := rfl

@[simp] theorem setOrders_run (q : List Order) (s : State) : (setOrders q s).run = s.run := rfl
@[simp] theorem setOrders_bays (q : List Order) (s : State) : (setOrders q s).bays = s.bays := rfl
@[simp] theorem setOrders_arb (q : List Order) (s : State) : (setOrders q s).arb = s.arb := rfl
@[simp] theorem setOrders_alert (q : List Order) (s : State) : (setOrders q s).alert = s.alert := rfl
@[simp] theorem setOrders_port (q : List Order) (s : State) : (setOrders q s).port = s.port := rfl
@[simp] theorem setOrders_passDue (q : List Order) (s : State) : (setOrders q s).passDue = s.passDue := rfl
@[simp] theorem setOrders_freeDraws (q : List Order) (s : State) : (setOrders q s).freeDraws = s.freeDraws := rfl
@[simp] theorem setOrders_moments (q : List Order) (s : State) : (setOrders q s).moments = s.moments := rfl
@[simp] theorem setOrders_pending (q : List Order) (s : State) : (setOrders q s).pending = s.pending := rfl

@[simp] theorem placeStart_run (b : Bay) (r : Bool) (s : State) : (placeStart b r s).run = s.run := rfl
@[simp] theorem placeStart_bays (b : Bay) (r : Bool) (s : State) : (placeStart b r s).bays = s.bays := rfl
@[simp] theorem placeStart_arb (b : Bay) (r : Bool) (s : State) : (placeStart b r s).arb = s.arb := rfl
@[simp] theorem placeStart_alert (b : Bay) (r : Bool) (s : State) : (placeStart b r s).alert = s.alert := rfl
@[simp] theorem placeStart_port (b : Bay) (r : Bool) (s : State) : (placeStart b r s).port = s.port := rfl
@[simp] theorem placeStart_passDue (b : Bay) (r : Bool) (s : State) : (placeStart b r s).passDue = s.passDue := rfl
@[simp] theorem placeStart_freeDraws (b : Bay) (r : Bool) (s : State) : (placeStart b r s).freeDraws = s.freeDraws := rfl
@[simp] theorem placeStart_moments (b : Bay) (r : Bool) (s : State) : (placeStart b r s).moments = s.moments := rfl
@[simp] theorem placeStart_pending (b : Bay) (r : Bool) (s : State) : (placeStart b r s).pending = s.pending := rfl

@[simp] theorem beginExchange_run (b : Bay) (k : ExchangeKind) (s : State) : (beginExchange b k s).run = s.run := rfl
@[simp] theorem beginExchange_bays (b : Bay) (k : ExchangeKind) (s : State) : (beginExchange b k s).bays = s.bays := rfl
@[simp] theorem beginExchange_arb (b : Bay) (k : ExchangeKind) (s : State) : (beginExchange b k s).arb = s.arb := rfl
@[simp] theorem beginExchange_alert (b : Bay) (k : ExchangeKind) (s : State) : (beginExchange b k s).alert = s.alert := rfl
@[simp] theorem beginExchange_port (b : Bay) (k : ExchangeKind) (s : State) : (beginExchange b k s).port = s.port := rfl
@[simp] theorem beginExchange_passDue (b : Bay) (k : ExchangeKind) (s : State) : (beginExchange b k s).passDue = s.passDue := rfl
@[simp] theorem beginExchange_freeDraws (b : Bay) (k : ExchangeKind) (s : State) : (beginExchange b k s).freeDraws = s.freeDraws := rfl
@[simp] theorem beginExchange_moments (b : Bay) (k : ExchangeKind) (s : State) : (beginExchange b k s).moments = s.moments := rfl
@[simp] theorem beginExchange_pending (b : Bay) (k : ExchangeKind) (s : State) : (beginExchange b k s).pending = s.pending := rfl

@[simp] theorem takePoll_run (b : Bay) (s : State) : (takePoll b s).run = s.run := rfl
@[simp] theorem takePoll_bays (b : Bay) (s : State) : (takePoll b s).bays = s.bays := rfl
@[simp] theorem takePoll_arb (b : Bay) (s : State) : (takePoll b s).arb = s.arb := rfl
@[simp] theorem takePoll_alert (b : Bay) (s : State) : (takePoll b s).alert = s.alert := rfl
@[simp] theorem takePoll_port (b : Bay) (s : State) : (takePoll b s).port = s.port := rfl
@[simp] theorem takePoll_passDue (b : Bay) (s : State) : (takePoll b s).passDue = s.passDue := rfl
@[simp] theorem takePoll_freeDraws (b : Bay) (s : State) : (takePoll b s).freeDraws = s.freeDraws := rfl
@[simp] theorem takePoll_moments (b : Bay) (s : State) : (takePoll b s).moments = s.moments := rfl
@[simp] theorem takePoll_pending (b : Bay) (s : State) : (takePoll b s).pending = s.pending := rfl

@[simp] theorem leaveActive_run (b : Bay) (s : State) : (leaveActive b s).run = s.run := rfl
@[simp] theorem leaveActive_bays (b : Bay) (s : State) : (leaveActive b s).bays = s.bays := rfl
@[simp] theorem leaveActive_loop (b : Bay) (s : State) : (leaveActive b s).loop = s.loop := rfl
@[simp] theorem leaveActive_alert (b : Bay) (s : State) : (leaveActive b s).alert = s.alert := rfl
@[simp] theorem leaveActive_port (b : Bay) (s : State) : (leaveActive b s).port = s.port := rfl
@[simp] theorem leaveActive_passDue (b : Bay) (s : State) : (leaveActive b s).passDue = s.passDue := rfl
@[simp] theorem leaveActive_freeDraws (b : Bay) (s : State) : (leaveActive b s).freeDraws = s.freeDraws := rfl
@[simp] theorem leaveActive_moments (b : Bay) (s : State) : (leaveActive b s).moments = s.moments := rfl
@[simp] theorem leaveActive_pending (b : Bay) (s : State) : (leaveActive b s).pending = s.pending := rfl

@[simp] theorem joinActive_run (b : Bay) (s : State) : (joinActive b s).run = s.run := rfl
@[simp] theorem joinActive_bays (b : Bay) (s : State) : (joinActive b s).bays = s.bays := rfl
@[simp] theorem joinActive_loop (b : Bay) (s : State) : (joinActive b s).loop = s.loop := rfl
@[simp] theorem joinActive_alert (b : Bay) (s : State) : (joinActive b s).alert = s.alert := rfl
@[simp] theorem joinActive_port (b : Bay) (s : State) : (joinActive b s).port = s.port := rfl
@[simp] theorem joinActive_passDue (b : Bay) (s : State) : (joinActive b s).passDue = s.passDue := rfl
@[simp] theorem joinActive_freeDraws (b : Bay) (s : State) : (joinActive b s).freeDraws = s.freeDraws := rfl
@[simp] theorem joinActive_moments (b : Bay) (s : State) : (joinActive b s).moments = s.moments := rfl
@[simp] theorem joinActive_pending (b : Bay) (s : State) : (joinActive b s).pending = s.pending := rfl

@[simp] theorem leaveQueue_run (b : Bay) (s : State) : (leaveQueue b s).run = s.run := rfl
@[simp] theorem leaveQueue_bays (b : Bay) (s : State) : (leaveQueue b s).bays = s.bays := rfl
@[simp] theorem leaveQueue_loop (b : Bay) (s : State) : (leaveQueue b s).loop = s.loop := rfl
@[simp] theorem leaveQueue_alert (b : Bay) (s : State) : (leaveQueue b s).alert = s.alert := rfl
@[simp] theorem leaveQueue_port (b : Bay) (s : State) : (leaveQueue b s).port = s.port := rfl
@[simp] theorem leaveQueue_passDue (b : Bay) (s : State) : (leaveQueue b s).passDue = s.passDue := rfl
@[simp] theorem leaveQueue_freeDraws (b : Bay) (s : State) : (leaveQueue b s).freeDraws = s.freeDraws := rfl
@[simp] theorem leaveQueue_moments (b : Bay) (s : State) : (leaveQueue b s).moments = s.moments := rfl
@[simp] theorem leaveQueue_pending (b : Bay) (s : State) : (leaveQueue b s).pending = s.pending := rfl

@[simp] theorem leaveStacks_run (b : Bay) (s : State) : (leaveStacks b s).run = s.run := rfl
@[simp] theorem leaveStacks_bays (b : Bay) (s : State) : (leaveStacks b s).bays = s.bays := rfl
@[simp] theorem leaveStacks_loop (b : Bay) (s : State) : (leaveStacks b s).loop = s.loop := rfl
@[simp] theorem leaveStacks_alert (b : Bay) (s : State) : (leaveStacks b s).alert = s.alert := rfl
@[simp] theorem leaveStacks_port (b : Bay) (s : State) : (leaveStacks b s).port = s.port := rfl
@[simp] theorem leaveStacks_passDue (b : Bay) (s : State) : (leaveStacks b s).passDue = s.passDue := rfl
@[simp] theorem leaveStacks_freeDraws (b : Bay) (s : State) : (leaveStacks b s).freeDraws = s.freeDraws := rfl
@[simp] theorem leaveStacks_moments (b : Bay) (s : State) : (leaveStacks b s).moments = s.moments := rfl
@[simp] theorem leaveStacks_pending (b : Bay) (s : State) : (leaveStacks b s).pending = s.pending := rfl

@[simp] theorem leaveCollections_run (b : Bay) (s : State) : (leaveCollections b s).run = s.run := rfl
@[simp] theorem leaveCollections_bays (b : Bay) (s : State) : (leaveCollections b s).bays = s.bays := rfl
@[simp] theorem leaveCollections_loop (b : Bay) (s : State) : (leaveCollections b s).loop = s.loop := rfl
@[simp] theorem leaveCollections_alert (b : Bay) (s : State) : (leaveCollections b s).alert = s.alert := rfl
@[simp] theorem leaveCollections_port (b : Bay) (s : State) : (leaveCollections b s).port = s.port := rfl
@[simp] theorem leaveCollections_passDue (b : Bay) (s : State) : (leaveCollections b s).passDue = s.passDue := rfl
@[simp] theorem leaveCollections_freeDraws (b : Bay) (s : State) : (leaveCollections b s).freeDraws = s.freeDraws := rfl
@[simp] theorem leaveCollections_moments (b : Bay) (s : State) : (leaveCollections b s).moments = s.moments := rfl
@[simp] theorem leaveCollections_pending (b : Bay) (s : State) : (leaveCollections b s).pending = s.pending := rfl

@[simp] theorem recordEnd_run (b : Bay) (r : StopReason) (s : State) : (recordEnd b r s).run = s.run := rfl
@[simp] theorem recordEnd_bays (b : Bay) (r : StopReason) (s : State) : (recordEnd b r s).bays = s.bays := rfl
@[simp] theorem recordEnd_loop (b : Bay) (r : StopReason) (s : State) : (recordEnd b r s).loop = s.loop := rfl
@[simp] theorem recordEnd_alert (b : Bay) (r : StopReason) (s : State) : (recordEnd b r s).alert = s.alert := rfl
@[simp] theorem recordEnd_port (b : Bay) (r : StopReason) (s : State) : (recordEnd b r s).port = s.port := rfl
@[simp] theorem recordEnd_passDue (b : Bay) (r : StopReason) (s : State) : (recordEnd b r s).passDue = s.passDue := rfl
@[simp] theorem recordEnd_freeDraws (b : Bay) (r : StopReason) (s : State) : (recordEnd b r s).freeDraws = s.freeDraws := rfl
@[simp] theorem recordEnd_moments (b : Bay) (r : StopReason) (s : State) : (recordEnd b r s).moments = s.moments := rfl
@[simp] theorem recordEnd_pending (b : Bay) (r : StopReason) (s : State) : (recordEnd b r s).pending = s.pending := rfl

@[simp] theorem emptyRecord_run (b : Bay) (s : State) : (emptyRecord b s).run = s.run := rfl
@[simp] theorem emptyRecord_arb (b : Bay) (s : State) : (emptyRecord b s).arb = s.arb := rfl
@[simp] theorem emptyRecord_alert (b : Bay) (s : State) : (emptyRecord b s).alert = s.alert := rfl
@[simp] theorem emptyRecord_port (b : Bay) (s : State) : (emptyRecord b s).port = s.port := rfl
@[simp] theorem emptyRecord_passDue (b : Bay) (s : State) : (emptyRecord b s).passDue = s.passDue := rfl
@[simp] theorem emptyRecord_freeDraws (b : Bay) (s : State) : (emptyRecord b s).freeDraws = s.freeDraws := rfl
@[simp] theorem emptyRecord_moments (b : Bay) (s : State) : (emptyRecord b s).moments = s.moments := rfl
@[simp] theorem emptyRecord_pending (b : Bay) (s : State) : (emptyRecord b s).pending = s.pending := rfl

@[simp] theorem setBudget_run (f : FeederIx) (v : Nat) (s : State) : (setBudget f v s).run = s.run := rfl
@[simp] theorem setBudget_bays (f : FeederIx) (v : Nat) (s : State) : (setBudget f v s).bays = s.bays := rfl
@[simp] theorem setBudget_loop (f : FeederIx) (v : Nat) (s : State) : (setBudget f v s).loop = s.loop := rfl
@[simp] theorem setBudget_alert (f : FeederIx) (v : Nat) (s : State) : (setBudget f v s).alert = s.alert := rfl
@[simp] theorem setBudget_port (f : FeederIx) (v : Nat) (s : State) : (setBudget f v s).port = s.port := rfl
@[simp] theorem setBudget_passDue (f : FeederIx) (v : Nat) (s : State) : (setBudget f v s).passDue = s.passDue := rfl
@[simp] theorem setBudget_freeDraws (f : FeederIx) (v : Nat) (s : State) : (setBudget f v s).freeDraws = s.freeDraws := rfl
@[simp] theorem setBudget_moments (f : FeederIx) (v : Nat) (s : State) : (setBudget f v s).moments = s.moments := rfl
@[simp] theorem setBudget_pending (f : FeederIx) (v : Nat) (s : State) : (setBudget f v s).pending = s.pending := rfl

@[simp] theorem setRunState_bays (x : RunState) (s : State) : (setRunState x s).bays = s.bays := rfl
@[simp] theorem setRunState_loop (x : RunState) (s : State) : (setRunState x s).loop = s.loop := rfl
@[simp] theorem setRunState_arb (x : RunState) (s : State) : (setRunState x s).arb = s.arb := rfl
@[simp] theorem setRunState_alert (x : RunState) (s : State) : (setRunState x s).alert = s.alert := rfl
@[simp] theorem setRunState_port (x : RunState) (s : State) : (setRunState x s).port = s.port := rfl
@[simp] theorem setRunState_passDue (x : RunState) (s : State) : (setRunState x s).passDue = s.passDue := rfl
@[simp] theorem setRunState_freeDraws (x : RunState) (s : State) : (setRunState x s).freeDraws = s.freeDraws := rfl
@[simp] theorem setRunState_moments (x : RunState) (s : State) : (setRunState x s).moments = s.moments := rfl
@[simp] theorem setRunState_pending (x : RunState) (s : State) : (setRunState x s).pending = s.pending := rfl

@[simp] theorem stopSchedule_run (s : State) : (stopSchedule s).run = s.run := rfl
@[simp] theorem stopSchedule_bays (s : State) : (stopSchedule s).bays = s.bays := rfl
@[simp] theorem stopSchedule_arb (s : State) : (stopSchedule s).arb = s.arb := rfl
@[simp] theorem stopSchedule_alert (s : State) : (stopSchedule s).alert = s.alert := rfl
@[simp] theorem stopSchedule_port (s : State) : (stopSchedule s).port = s.port := rfl
@[simp] theorem stopSchedule_passDue (s : State) : (stopSchedule s).passDue = s.passDue := rfl
@[simp] theorem stopSchedule_freeDraws (s : State) : (stopSchedule s).freeDraws = s.freeDraws := rfl
@[simp] theorem stopSchedule_moments (s : State) : (stopSchedule s).moments = s.moments := rfl
@[simp] theorem stopSchedule_pending (s : State) : (stopSchedule s).pending = s.pending := rfl

@[simp] theorem setSlot_run (st : Station) (x : Slot) (s : State) : (setSlot st x s).run = s.run := rfl
@[simp] theorem setSlot_bays (st : Station) (x : Slot) (s : State) : (setSlot st x s).bays = s.bays := rfl
@[simp] theorem setSlot_loop (st : Station) (x : Slot) (s : State) : (setSlot st x s).loop = s.loop := rfl
@[simp] theorem setSlot_arb (st : Station) (x : Slot) (s : State) : (setSlot st x s).arb = s.arb := rfl
@[simp] theorem setSlot_alert (st : Station) (x : Slot) (s : State) : (setSlot st x s).alert = s.alert := rfl
@[simp] theorem setSlot_passDue (st : Station) (x : Slot) (s : State) : (setSlot st x s).passDue = s.passDue := rfl
@[simp] theorem setSlot_freeDraws (st : Station) (x : Slot) (s : State) : (setSlot st x s).freeDraws = s.freeDraws := rfl
@[simp] theorem setSlot_moments (st : Station) (x : Slot) (s : State) : (setSlot st x s).moments = s.moments := rfl
@[simp] theorem setSlot_pending (st : Station) (x : Slot) (s : State) : (setSlot st x s).pending = s.pending := rfl
@[simp] theorem setSlot_assembly (st : Station) (x : Slot) (s : State) :
    (setSlot st x s).port.assembly = s.port.assembly := rfl
@[simp] theorem setSlot_addrHigh (st : Station) (x : Slot) (s : State) :
    (setSlot st x s).port.addrHigh = s.port.addrHigh := rfl

@[simp] theorem receiveRequest_run (st : Station) (s : State) : (receiveRequest st s).run = s.run := rfl
@[simp] theorem receiveRequest_bays (st : Station) (s : State) : (receiveRequest st s).bays = s.bays := rfl
@[simp] theorem receiveRequest_loop (st : Station) (s : State) : (receiveRequest st s).loop = s.loop := rfl
@[simp] theorem receiveRequest_arb (st : Station) (s : State) : (receiveRequest st s).arb = s.arb := rfl
@[simp] theorem receiveRequest_passDue (st : Station) (s : State) : (receiveRequest st s).passDue = s.passDue := rfl
@[simp] theorem receiveRequest_freeDraws (st : Station) (s : State) : (receiveRequest st s).freeDraws = s.freeDraws := rfl
@[simp] theorem receiveRequest_moments (st : Station) (s : State) : (receiveRequest st s).moments = s.moments := rfl
@[simp] theorem receiveRequest_pending (st : Station) (s : State) : (receiveRequest st s).pending = s.pending := rfl
@[simp] theorem receiveRequest_assembly (st : Station) (s : State) :
    (receiveRequest st s).port.assembly = s.port.assembly := rfl
@[simp] theorem receiveRequest_addrHigh (st : Station) (s : State) :
    (receiveRequest st s).port.addrHigh = s.port.addrHigh := rfl

@[simp] theorem writeReply_run (st : Station) (r : Reply) (s : State) : (writeReply st r s).run = s.run := rfl
@[simp] theorem writeReply_bays (st : Station) (r : Reply) (s : State) : (writeReply st r s).bays = s.bays := rfl
@[simp] theorem writeReply_loop (st : Station) (r : Reply) (s : State) : (writeReply st r s).loop = s.loop := rfl
@[simp] theorem writeReply_arb (st : Station) (r : Reply) (s : State) : (writeReply st r s).arb = s.arb := rfl
@[simp] theorem writeReply_alert (st : Station) (r : Reply) (s : State) : (writeReply st r s).alert = s.alert := rfl
@[simp] theorem writeReply_passDue (st : Station) (r : Reply) (s : State) : (writeReply st r s).passDue = s.passDue := rfl
@[simp] theorem writeReply_freeDraws (st : Station) (r : Reply) (s : State) : (writeReply st r s).freeDraws = s.freeDraws := rfl
@[simp] theorem writeReply_moments (st : Station) (r : Reply) (s : State) : (writeReply st r s).moments = s.moments := rfl
@[simp] theorem writeReply_pending (st : Station) (r : Reply) (s : State) : (writeReply st r s).pending = s.pending := rfl
@[simp] theorem writeReply_assembly (st : Station) (r : Reply) (s : State) :
    (writeReply st r s).port.assembly = s.port.assembly := rfl
@[simp] theorem writeReply_addrHigh (st : Station) (r : Reply) (s : State) :
    (writeReply st r s).port.addrHigh = s.port.addrHigh := rfl

/-! ## Updates with a test: the fields no branch writes -/

theorem owePassIf_cases (x : Bool) (s : State) : owePassIf x s = owePass s ∨ owePassIf x s = s := by
  cases x
  · exact .inr rfl
  · exact .inl rfl

@[simp] theorem owePassIf_run (x : Bool) (s : State) : (owePassIf x s).run = s.run := by cases x <;> rfl
@[simp] theorem owePassIf_bays (x : Bool) (s : State) : (owePassIf x s).bays = s.bays := by cases x <;> rfl
@[simp] theorem owePassIf_loop (x : Bool) (s : State) : (owePassIf x s).loop = s.loop := by cases x <;> rfl
@[simp] theorem owePassIf_arb (x : Bool) (s : State) : (owePassIf x s).arb = s.arb := by cases x <;> rfl
@[simp] theorem owePassIf_alert (x : Bool) (s : State) : (owePassIf x s).alert = s.alert := by cases x <;> rfl
@[simp] theorem owePassIf_port (x : Bool) (s : State) : (owePassIf x s).port = s.port := by cases x <;> rfl
@[simp] theorem owePassIf_freeDraws (x : Bool) (s : State) : (owePassIf x s).freeDraws = s.freeDraws := by cases x <;> rfl
@[simp] theorem owePassIf_moments (x : Bool) (s : State) : (owePassIf x s).moments = s.moments := by cases x <;> rfl
@[simp] theorem owePassIf_pending (x : Bool) (s : State) : (owePassIf x s).pending = s.pending := by cases x <;> rfl

/-- Becoming VACANT is the emptying of the record, and a pass owed where that clears a NO-DIESEL-DEFROST (R3, R18, R120). -/
theorem becomeVacant_cases (b : Bay) (s : State) :
    ((bayAt s b).noDiesel = true ∧ becomeVacant b s = owePass (emptyRecord b s))
      ∨ ((bayAt s b).noDiesel = false ∧ becomeVacant b s = emptyRecord b s) := by
  unfold becomeVacant
  cases (bayAt s b).noDiesel
  · exact .inr ⟨rfl, rfl⟩
  · exact .inl ⟨rfl, rfl⟩

@[simp] theorem becomeVacant_run (b : Bay) (s : State) : (becomeVacant b s).run = s.run := owePassIf_run _ _
@[simp] theorem becomeVacant_bays (b : Bay) (s : State) : (becomeVacant b s).bays = (emptyRecord b s).bays := owePassIf_bays _ _
@[simp] theorem becomeVacant_loop (b : Bay) (s : State) : (becomeVacant b s).loop = (emptyRecord b s).loop := owePassIf_loop _ _
@[simp] theorem becomeVacant_arb (b : Bay) (s : State) : (becomeVacant b s).arb = s.arb := owePassIf_arb _ _
@[simp] theorem becomeVacant_alert (b : Bay) (s : State) : (becomeVacant b s).alert = s.alert := owePassIf_alert _ _
@[simp] theorem becomeVacant_port (b : Bay) (s : State) : (becomeVacant b s).port = s.port := owePassIf_port _ _
@[simp] theorem becomeVacant_freeDraws (b : Bay) (s : State) : (becomeVacant b s).freeDraws = s.freeDraws := owePassIf_freeDraws _ _
@[simp] theorem becomeVacant_moments (b : Bay) (s : State) : (becomeVacant b s).moments = s.moments := owePassIf_moments _ _
@[simp] theorem becomeVacant_pending (b : Bay) (s : State) : (becomeVacant b s).pending = s.pending := owePassIf_pending _ _
@[simp] theorem becomeVacant_passDue (b : Bay) (s : State) :
    (becomeVacant b s).passDue = ((bayAt s b).noDiesel || s.passDue) := by
  unfold becomeVacant
  cases (bayAt s b).noDiesel <;> rfl

/-- A STOP placed changes the order queue alone (R49). -/
theorem placeStop_eq (b : Bay) (s : State) : ∃ q, placeStop b s = setOrders q s := by
  unfold placeStop
  split
  · exact ⟨_, rfl⟩
  · split
    · exact ⟨s.loop.orders, rfl⟩
    · exact ⟨_, rfl⟩

@[simp] theorem placeStop_run (b : Bay) (s : State) : (placeStop b s).run = s.run := by
  obtain ⟨q, h⟩ := placeStop_eq b s
  rw [h]
  rfl
@[simp] theorem placeStop_bays (b : Bay) (s : State) : (placeStop b s).bays = s.bays := by
  obtain ⟨q, h⟩ := placeStop_eq b s
  rw [h]
  rfl
@[simp] theorem placeStop_arb (b : Bay) (s : State) : (placeStop b s).arb = s.arb := by
  obtain ⟨q, h⟩ := placeStop_eq b s
  rw [h]
  rfl
@[simp] theorem placeStop_alert (b : Bay) (s : State) : (placeStop b s).alert = s.alert := by
  obtain ⟨q, h⟩ := placeStop_eq b s
  rw [h]
  rfl
@[simp] theorem placeStop_port (b : Bay) (s : State) : (placeStop b s).port = s.port := by
  obtain ⟨q, h⟩ := placeStop_eq b s
  rw [h]
  rfl
@[simp] theorem placeStop_passDue (b : Bay) (s : State) : (placeStop b s).passDue = s.passDue := by
  obtain ⟨q, h⟩ := placeStop_eq b s
  rw [h]
  rfl
@[simp] theorem placeStop_freeDraws (b : Bay) (s : State) : (placeStop b s).freeDraws = s.freeDraws := by
  obtain ⟨q, h⟩ := placeStop_eq b s
  rw [h]
  rfl
@[simp] theorem placeStop_moments (b : Bay) (s : State) : (placeStop b s).moments = s.moments := by
  obtain ⟨q, h⟩ := placeStop_eq b s
  rw [h]
  rfl
@[simp] theorem placeStop_pending (b : Bay) (s : State) : (placeStop b s).pending = s.pending := by
  obtain ⟨q, h⟩ := placeStop_eq b s
  rw [h]
  rfl
@[simp] theorem placeStop_exchange (b : Bay) (s : State) : (placeStop b s).loop.exchange = s.loop.exchange := by
  obtain ⟨q, h⟩ := placeStop_eq b s
  rw [h]
  rfl

/-! ## Reading back what was written -/

/-- A bay record is read from the records alone. -/
theorem bayAt_congr {s t : State} (h : t.bays = s.bays) (b : Bay) : bayAt t b = bayAt s b := by
  unfold bayAt
  simp [h]

/-- A feeder record is read from the arbiter alone. -/
theorem feederAt_congr {s t : State} (h : t.arb = s.arb) (f : FeederIx) : feederAt t f = feederAt s f := by
  unfold feederAt
  simp [h]

@[simp] theorem bayAt_setBay_same (b : Bay) (r : BayRecord) (s : State) : bayAt (setBay b r s) b = r := by
  simp [bayAt, setBay]

theorem bayAt_setBay_ne {b c : Bay} (h : c ≠ b) (r : BayRecord) (s : State) : bayAt (setBay b r s) c = bayAt s c := by
  have : b.val ≠ c.val := fun e => h (Fin.ext e.symm)
  simp [bayAt, setBay, this]

theorem bayAt_setBay (b c : Bay) (r : BayRecord) (s : State) : bayAt (setBay b r s) c = if c = b then r else bayAt s c := by
  split
  · next h => subst h; exact bayAt_setBay_same c r s
  · next h => exact bayAt_setBay_ne h r s

theorem bayAt_modBay (b c : Bay) (g : BayRecord → BayRecord) (s : State) :
    bayAt (modBay b g s) c = if c = b then g (bayAt s b) else bayAt s c := bayAt_setBay b c _ s

@[simp] theorem bayAt_modBay_same (b : Bay) (g : BayRecord → BayRecord) (s : State) :
    bayAt (modBay b g s) b = g (bayAt s b) := bayAt_setBay_same b _ s

theorem bayAt_modBay_ne {b c : Bay} (h : c ≠ b) (g : BayRecord → BayRecord) (s : State) :
    bayAt (modBay b g s) c = bayAt s c := bayAt_setBay_ne h _ s

theorem bayAt_modDefrost (b c : Bay) (g : Defrost → Defrost) (s : State) :
    bayAt (modDefrost b g s) c
      = if c = b then { bayAt s b with defrost := g (bayAt s b).defrost } else bayAt s c := bayAt_modBay b c _ s

@[simp] theorem bayAt_mapBays (g : BayRecord → BayRecord) (s : State) (b : Bay) : bayAt (mapBays g s) b = g (bayAt s b) := by
  simp [bayAt, mapBays]

theorem bayAt_emptyRecord (b c : Bay) (s : State) :
    bayAt (emptyRecord b s) c = if c = b then emptied (bayAt s b) else bayAt s c := bayAt_modBay b c emptied s

theorem bayAt_becomeVacant (b c : Bay) (s : State) :
    bayAt (becomeVacant b s) c = if c = b then emptied (bayAt s b) else bayAt s c := by
  rw [← bayAt_emptyRecord, bayAt, becomeVacant_bays, bayAt]

@[simp] theorem feederAt_setFeeder_same (f : FeederIx) (r : Feeder) (s : State) : feederAt (setFeeder f r s) f = r := by
  simp [feederAt, setFeeder]

theorem feederAt_setFeeder (f g : FeederIx) (r : Feeder) (s : State) :
    feederAt (setFeeder f r s) g = if g = f then r else feederAt s g := by
  split
  · next h => subst h; exact feederAt_setFeeder_same g r s
  · next h =>
    have : f.val ≠ g.val := fun e => h (Fin.ext e.symm)
    simp [feederAt, setFeeder, this]

@[simp] theorem slotAt_setSlot_same (st : Station) (x : Slot) (s : State) : slotAt (setSlot st x s) st = x := by
  simp [slotAt, setSlot]

theorem stationIx_inj {a b : Station} (h : stationIx a = stationIx b) : a = b := by
  cases a <;> cases b <;> first | rfl | simp [stationIx] at h

theorem slotAt_setSlot (st u : Station) (x : Slot) (s : State) :
    slotAt (setSlot st x s) u = if u = st then x else slotAt s u := by
  split
  · next h => subst h; exact slotAt_setSlot_same u x s
  · next h =>
    have : (stationIx st).val ≠ (stationIx u).val := fun e => h (stationIx_inj (Fin.ext e.symm))
    simp [slotAt, setSlot, this]

@[simp] theorem alertAt_setAlertAt_same (st : Station) (r : AlertStation) (u : AlertUnit) :
    alertAt (setAlertAt st r u) st = r := by
  simp [alertAt, setAlertAt]

theorem alertAt_setAlertAt (st v : Station) (r : AlertStation) (u : AlertUnit) :
    alertAt (setAlertAt st r u) v = if v = st then r else alertAt u v := by
  split
  · next h => subst h; exact alertAt_setAlertAt_same v r u
  · next h =>
    have : (stationIx st).val ≠ (stationIx v).val := fun e => h (stationIx_inj (Fin.ext e.symm))
    simp [alertAt, setAlertAt, this]

theorem categoryIx_inj {a b : Category} (h : categoryIx a = categoryIx b) : a = b := by
  cases a <;> cases b <;> first | rfl | simp [categoryIx] at h

@[simp] theorem catAt_setCat_same (c : Category) (r : CategoryRecord) (u : AlertUnit) : catAt (setCat c r u) c = r := by
  simp [catAt, setCat]

theorem catAt_setCat (c d : Category) (r : CategoryRecord) (u : AlertUnit) :
    catAt (setCat c r u) d = if d = c then r else catAt u d := by
  split
  · next h => subst h; exact catAt_setCat_same d r u
  · next h =>
    have : (categoryIx c).val ≠ (categoryIx d).val := fun e => h (categoryIx_inj (Fin.ext e.symm))
    simp [catAt, setCat, this]

@[simp] theorem catAt_setAlertAt (st : Station) (r : AlertStation) (u : AlertUnit) (c : Category) :
    catAt (setAlertAt st r u) c = catAt u c := rfl

@[simp] theorem alertAt_setCat (c : Category) (r : CategoryRecord) (u : AlertUnit) (st : Station) :
    alertAt (setCat c r u) st = alertAt u st := rfl

end Sys2Proof.Machine
end

