-- ==== Sys2Proof/Laws/Ops.lean ====
section
/-! SUPPORT. What each shared operation can do, said once: the alert unit's updates, what every operation of a change keeps
(`Keeps`), which bays an operation about one bay leaves alone (`KeepsOthers`), and one case lemma for each operation that
chooses. -/

namespace Sys2Proof.Machine

set_option Elab.async false

/-! ## The alert unit -/

theorem catAt_evalLine (mode : Nesting) (st : Station) (u : AlertUnit) (c : Category) :
    catAt (evalLine mode st u) c = catAt u c := rfl

theorem alertAt_evalLine (mode : Nesting) (st v : Station) (u : AlertUnit) :
    alertAt (evalLine mode st u) v
      = if v = st then { alertAt u st with line := allCategories.any fun c => eligible mode u st c } else alertAt u v :=
  alertAt_setAlertAt st v _ u

/-- Eligibility is read from latches, masks and service stacks alone (R153). -/
theorem eligible_congr {mode : Nesting} {u v : AlertUnit} (hc : ∀ c, (catAt v c).latch = (catAt u c).latch)
    (hs : ∀ st, (alertAt v st).mask = (alertAt u st).mask ∧ (alertAt v st).stack = (alertAt u st).stack)
    (st : Station) (c : Category) : eligible mode v st c = eligible mode u st c := by
  simp [eligible, inService, inServiceAt, hc, hs]

/-- Evaluating the lines changes the lines alone (R153). -/
theorem alertAt_evalLines (mode : Nesting) (u : AlertUnit) (st : Station) :
    alertAt (evalLines mode u) st
      = { alertAt u st with line := allCategories.any fun c => eligible mode u st c } := by
  have key : ∀ (l : List Station) (v : AlertUnit),
      (∀ c, catAt v c = catAt u c) →
      (∀ x, (alertAt v x).mask = (alertAt u x).mask ∧ (alertAt v x).stack = (alertAt u x).stack
        ∧ (alertAt v x).silence = (alertAt u x).silence) →
      (st ∉ l → alertAt v st = { alertAt u st with line := allCategories.any fun c => eligible mode u st c }) →
      alertAt (l.foldl (fun u st => evalLine mode st u) v) st
        = { alertAt u st with line := allCategories.any fun c => eligible mode u st c } := by
    intro l
    induction l with
    | nil => intro v _ _ h; exact h (by simp)
    | cons x xs ih =>
      intro v hc hs h
      have he : ∀ y c, eligible mode v y c = eligible mode u y c := fun y c =>
        eligible_congr (fun c => by rw [hc]) (fun z => ⟨(hs z).1, (hs z).2.1⟩) y c
      rw [List.foldl_cons]
      apply ih
      · intro c; rw [catAt_evalLine, hc]
      · intro y
        rw [alertAt_evalLine]
        split
        · next e => subst e; exact hs y
        · exact hs y
      · intro hx
        rw [alertAt_evalLine]
        split
        · next e =>
          subst e
          obtain ⟨h1, h2, h3⟩ := hs st
          simp [he, h1, h2, h3]
        · next e => exact h (by simp [e, hx])
  exact key allStations u (fun _ => rfl) (fun _ => ⟨rfl, rfl, rfl⟩) (fun h => by cases st <;> simp [allStations] at h)

@[simp] theorem catAt_evalLines (mode : Nesting) (u : AlertUnit) (c : Category) :
    catAt (evalLines mode u) c = catAt u c := by
  simp [evalLines, allStations, catAt_evalLine]

/-- An evaluated line is asserted exactly when a category is eligible after the evaluation (R153). -/
theorem line_evalLines (mode : Nesting) (u : AlertUnit) (st : Station) :
    (alertAt (evalLines mode u) st).line = true ↔ ∃ c, eligible mode (evalLines mode u) st c = true := by
  have he : ∀ c, eligible mode (evalLines mode u) st c = eligible mode u st c := fun c =>
    eligible_congr (fun c => by rw [catAt_evalLines]) (fun x => by rw [alertAt_evalLines]; exact ⟨rfl, rfl⟩) st c
  rw [alertAt_evalLines]
  simp only [he, List.any_eq_true]
  constructor
  · rintro ⟨c, -, h⟩; exact ⟨c, h⟩
  · rintro ⟨c, h⟩; exact ⟨c, by cases c <;> simp [allCategories], h⟩

theorem mem_insertElement (e x : Element) (l : List Element) : x ∈ insertElement e l ↔ x = e ∨ x ∈ l := by
  induction l with
  | nil => simp [insertElement]
  | cons y ys ih =>
    unfold insertElement
    split
    · simp
    · split
      · next h => subst h; simp
      · simp only [List.mem_cons, ih]; tauto

theorem mem_unionElements (x : Element) (a b : List Element) : x ∈ unionElements a b ↔ x ∈ a ∨ x ∈ b := by
  induction a with
  | nil => simp [unionElements]
  | cons y ys ih =>
    have : unionElements (y :: ys) b = insertElement y (unionElements ys b) := rfl
    rw [this, mem_insertElement, ih, List.mem_cons]
    tauto

/-- The categories after a raise (R151). -/
theorem catAt_raiseIn (mode : Nesting) (c d : Category) (e : Element) (u : AlertUnit) :
    catAt (raiseIn mode c e u) d
      = if d = c then { latch := true, pending := insertElement e (catAt u c).pending } else catAt u d := by
  rw [raiseIn, catAt_evalLines, catAt_setCat]

/-- A raise leaves every station's mask, service stack and silence count (R151). -/
theorem alertAt_raiseIn (mode : Nesting) (c : Category) (e : Element) (u : AlertUnit) (st : Station) :
    (alertAt (raiseIn mode c e u) st).mask = (alertAt u st).mask
      ∧ (alertAt (raiseIn mode c e u) st).stack = (alertAt u st).stack
      ∧ (alertAt (raiseIn mode c e u) st).silence = (alertAt u st).silence := by
  rw [raiseIn, alertAt_evalLines]
  exact ⟨rfl, rfl, rfl⟩

theorem line_raiseIn (mode : Nesting) (c : Category) (e : Element) (u : AlertUnit) (st : Station) :
    (alertAt (raiseIn mode c e u) st).line = true ↔ ∃ d, eligible mode (raiseIn mode c e u) st d = true :=
  line_evalLines mode _ st

/-! ## What every operation of a change keeps -/

/-- What no notice within a change touches: the waiting commands, the open moments, the port, settings and clock, the
budgets, and every station's mask, service stack and silence count; a pending set only grows. -/
structure Keeps (s t : State) : Prop where
  pending : t.pending = s.pending
  moments : t.moments = s.moments
  port : t.port = s.port
  settings : t.run.settings = s.run.settings
  second : t.run.second = s.run.second
  minutePhase : t.run.minutePhase = s.run.minutePhase
  yardMinute : t.run.yardMinute = s.run.yardMinute
  budget : ∀ f, (feederAt t f).budget = (feederAt s f).budget
  stations : ∀ st, (alertAt t.alert st).mask = (alertAt s.alert st).mask
    ∧ (alertAt t.alert st).stack = (alertAt s.alert st).stack
    ∧ (alertAt t.alert st).silence = (alertAt s.alert st).silence
  raised : ∀ c e, e ∈ (catAt s.alert c).pending → e ∈ (catAt t.alert c).pending

/-- Every bay but one keeps its record. -/
def KeepsOthers (b : Bay) (s t : State) : Prop := ∀ c, c ≠ b → bayAt t c = bayAt s c

theorem Keeps.refl (s : State) : Keeps s s :=
  ⟨rfl, rfl, rfl, rfl, rfl, rfl, rfl, fun _ => rfl, fun _ => ⟨rfl, rfl, rfl⟩, fun _ _ h => h⟩

theorem Keeps.trans {s t u : State} (h : Keeps s t) (k : Keeps t u) : Keeps s u :=
  ⟨k.pending.trans h.pending, k.moments.trans h.moments, k.port.trans h.port, k.settings.trans h.settings, k.second.trans h.second,
    k.minutePhase.trans h.minutePhase, k.yardMinute.trans h.yardMinute, fun f => (k.budget f).trans (h.budget f),
    fun st => ⟨(k.stations st).1.trans (h.stations st).1, (k.stations st).2.1.trans (h.stations st).2.1,
      (k.stations st).2.2.trans (h.stations st).2.2⟩, fun c e x => k.raised c e (h.raised c e x)⟩

theorem KeepsOthers.refl (b : Bay) (s : State) : KeepsOthers b s s := fun _ _ => rfl

theorem KeepsOthers.trans {b : Bay} {s t u : State} (h : KeepsOthers b s t) (k : KeepsOthers b t u) : KeepsOthers b s u :=
  fun c e => (k c e).trans (h c e)

theorem KeepsOthers.of_bays {b : Bay} {s t : State} (h : t.bays = s.bays) : KeepsOthers b s t :=
  fun c _ => bayAt_congr h c

/-- An update of bays, loop or the model's own fields keeps all of it. -/
theorem Keeps.of_eq {s t : State} (hp : t.pending = s.pending) (hq : t.port = s.port) (hr : t.run = s.run)
    (ha : t.arb = s.arb) (hu : t.alert = s.alert) (hm : t.moments = s.moments := by rfl) : Keeps s t := by
  refine ⟨hp, hm, hq, by rw [hr], by rw [hr], by rw [hr], by rw [hr], fun f => by rw [feederAt_congr ha], fun st => ?_,
    fun c e h => ?_⟩
  · rw [hu]; exact ⟨rfl, rfl, rfl⟩
  · rw [hu]; exact h

/-- An update of the arbiter that keeps the budgets keeps all of it. -/
theorem Keeps.of_arb {s t : State} (hp : t.pending = s.pending) (hq : t.port = s.port) (hr : t.run = s.run)
    (hb : ∀ f, (feederAt t f).budget = (feederAt s f).budget) (hu : t.alert = s.alert)
    (hm : t.moments = s.moments := by rfl) : Keeps s t := by
  refine ⟨hp, hm, hq, by rw [hr], by rw [hr], by rw [hr], by rw [hr], hb, fun st => ?_, fun c e h => ?_⟩
  · rw [hu]; exact ⟨rfl, rfl, rfl⟩
  · rw [hu]; exact h

theorem Keeps.foldl {α : Type} {g : State → α → State} (h : ∀ s a, Keeps s (g s a)) (l : List α) (s : State) :
    Keeps s (l.foldl g s) := by
  induction l generalizing s with
  | nil => exact Keeps.refl s
  | cons a l ih => exact (h s a).trans (ih (g s a))

theorem Keeps.forBays {g : Bay → State → State} (h : ∀ b s, Keeps s (g b s)) (s : State) : Keeps s (forBays g s) :=
  Keeps.foldl (fun s b => h b s) allBays s

theorem modBay_keeps (b : Bay) (g : BayRecord → BayRecord) (s : State) : Keeps s (modBay b g s) :=
  .of_eq rfl rfl rfl rfl rfl

theorem modBay_others (b : Bay) (g : BayRecord → BayRecord) (s : State) : KeepsOthers b s (modBay b g s) :=
  fun _ h => bayAt_modBay_ne h g s

theorem modDefrost_keeps (b : Bay) (g : Defrost → Defrost) (s : State) : Keeps s (modDefrost b g s) := modBay_keeps b _ s

theorem modDefrost_others (b : Bay) (g : Defrost → Defrost) (s : State) : KeepsOthers b s (modDefrost b g s) :=
  modBay_others b _ s

theorem modDefrost_others_of {b : Bay} {g : Defrost → Defrost} {s t : State} (h : t.bays = s.bays) :
    KeepsOthers b s (modDefrost b g t) := (KeepsOthers.of_bays h).trans (modDefrost_others b g t)

theorem KeepsOthers.owed {b : Bay} {s t : State} (h : KeepsOthers b s t) : KeepsOthers b s (owePass t) := h

theorem KeepsOthers.raised {b : Bay} {s t : State} {c : Category} {e : Element} (h : KeepsOthers b s t) :
    KeepsOthers b s (raiseAlert c e t) := h

theorem KeepsOthers.placed {b c d : Bay} {resume : Bool} {s t : State} (h : KeepsOthers b s t) :
    KeepsOthers b s (placeStart c resume (joinActive d t)) := h

theorem mapBays_keeps (g : BayRecord → BayRecord) (s : State) : Keeps s (mapBays g s) :=
  .of_eq (mapBays_pending g s) (mapBays_port g s) (mapBays_run g s) (mapBays_arb g s) (mapBays_alert g s)
    (mapBays_moments g s)

theorem raiseAlert_keeps (c : Category) (e : Element) (s : State) : Keeps s (raiseAlert c e s) := by
  refine ⟨rfl, rfl, rfl, rfl, rfl, rfl, rfl, fun _ => rfl, fun st => alertAt_raiseIn _ c e s.alert st, fun d x h => ?_⟩
  show x ∈ (catAt (raiseIn _ c e s.alert) d).pending
  rw [catAt_raiseIn]
  split
  · next hd => subst hd; exact (mem_insertElement e x _).mpr (.inr h)
  · exact h

theorem owePass_keeps (s : State) : Keeps s (owePass s) := .of_eq rfl rfl rfl rfl rfl

theorem owePassIf_keeps (x : Bool) (s : State) : Keeps s (owePassIf x s) := by
  rcases owePassIf_cases x s with h | h <;> rw [h]
  · exact owePass_keeps s
  · exact .refl s

theorem setOrders_keeps (q : List Order) (s : State) : Keeps s (setOrders q s) := .of_eq rfl rfl rfl rfl rfl

theorem placeStop_keeps (b : Bay) (s : State) : Keeps s (placeStop b s) := by
  obtain ⟨q, h⟩ := placeStop_eq b s
  rw [h]
  exact setOrders_keeps q s

theorem leaveActive_keeps (b : Bay) (s : State) : Keeps s (leaveActive b s) := .of_arb rfl rfl rfl (fun _ => rfl) rfl

theorem joinActive_keeps (b : Bay) (s : State) : Keeps s (joinActive b s) := .of_arb rfl rfl rfl (fun _ => rfl) rfl

theorem leaveQueue_keeps (b : Bay) (s : State) : Keeps s (leaveQueue b s) := .of_arb rfl rfl rfl (fun _ => rfl) rfl

@[simp] theorem feederAt_leaveStacks (b : Bay) (s : State) (f : FeederIx) :
    feederAt (leaveStacks b s) f = { feederAt s f with stack := stackWithout b (feederAt s f).stack } := by
  simp [feederAt, leaveStacks]

@[simp] theorem feederAt_recordEnd (b : Bay) (r : StopReason) (s : State) (f : FeederIx) :
    feederAt (recordEnd b r s) f = { feederAt s f with
      stack := (feederAt s f).stack.map fun e => if e.bay = b then { e with ended := some r } else e } := by
  simp [feederAt, recordEnd]

theorem leaveStacks_keeps (b : Bay) (s : State) : Keeps s (leaveStacks b s) :=
  .of_arb rfl rfl rfl (fun f => by rw [feederAt_leaveStacks]) rfl

theorem recordEnd_keeps (b : Bay) (r : StopReason) (s : State) : Keeps s (recordEnd b r s) :=
  .of_arb rfl rfl rfl (fun f => by rw [feederAt_recordEnd]) rfl

theorem setFeeder_keeps (f : FeederIx) (r : Feeder) (s : State) (h : r.budget = (feederAt s f).budget) :
    Keeps s (setFeeder f r s) := by
  refine .of_arb rfl rfl rfl (fun g => ?_) rfl
  rw [feederAt_setFeeder]
  split
  · next e => subst e; exact h
  · rfl

theorem leaveCollections_keeps (b : Bay) (s : State) : Keeps s (leaveCollections b s) :=
  ((leaveActive_keeps b s).trans (leaveQueue_keeps b _)).trans (leaveStacks_keeps b _)

theorem emptyRecord_keeps (b : Bay) (s : State) : Keeps s (emptyRecord b s) := .of_eq rfl rfl rfl rfl rfl

theorem emptyRecord_others (b : Bay) (s : State) : KeepsOthers b s (emptyRecord b s) := modBay_others b emptied s

theorem becomeVacant_keeps (b : Bay) (s : State) : Keeps s (becomeVacant b s) :=
  (emptyRecord_keeps b s).trans (owePassIf_keeps _ _)

theorem becomeVacant_others (b : Bay) (s : State) : KeepsOthers b s (becomeVacant b s) :=
  (emptyRecord_others b s).trans (.of_bays (owePassIf_bays _ _))

/-! ## The course of an episode -/

/-- What an outcome does, the bay not being DEPARTING: the bay leaves its collections, its record is that of R131, FROST is
raised where told, and a pass is owed where one of R120's triggers was met. -/
theorem endEpisode_cases (b : Bay) (o : DefrostOutcome) (s : State) :
    let t := owePassIf (endTriggers s b) (if raisesFrost o then
      raiseAlert .frost (bayElement b) (modBay b (endedRecord s.run.settings.holdoff o) (leaveCollections b s))
      else modBay b (endedRecord s.run.settings.holdoff o) (leaveCollections b s))
    endEpisode b o s = if (bayAt s b).occupancy = .departing then becomeVacant b t else t := by
  intro t
  have h : (bayAt t b).occupancy = (bayAt s b).occupancy := by
    have e : bayAt t b = endedRecord s.run.settings.holdoff o (bayAt s b) := by
      have e1 : t.bays = (modBay b (endedRecord s.run.settings.holdoff o) (leaveCollections b s)).bays := by
        simp only [t, owePassIf_bays]
        split <;> rfl
      rw [bayAt_congr e1, bayAt_modBay_same]
      exact congrArg _ (bayAt_congr (t := leaveCollections b s) rfl b)
    rw [e]
    rfl
  rw [← h]
  rfl

theorem endEpisode_keeps (b : Bay) (o : DefrostOutcome) (s : State) : Keeps s (endEpisode b o s) := by
  have h1 := (leaveCollections_keeps b s).trans (modBay_keeps b (endedRecord s.run.settings.holdoff o) _)
  have h2 := h1.trans (raiseAlert_keeps .frost (bayElement b) _)
  unfold endEpisode
  dsimp only
  split <;> split
  · exact (h2.trans (owePassIf_keeps _ _)).trans (becomeVacant_keeps b _)
  · exact h2.trans (owePassIf_keeps _ _)
  · exact (h1.trans (owePassIf_keeps _ _)).trans (becomeVacant_keeps b _)
  · exact h1.trans (owePassIf_keeps _ _)

theorem endEpisode_others (b : Bay) (o : DefrostOutcome) (s : State) : KeepsOthers b s (endEpisode b o s) := by
  have h1 : KeepsOthers b s (modBay b (endedRecord s.run.settings.holdoff o) (leaveCollections b s)) :=
    modBay_others b _ (leaveCollections b s)
  have h2 : ∀ x, KeepsOthers b s (owePassIf x (if raisesFrost o then
      raiseAlert .frost (bayElement b) (modBay b (endedRecord s.run.settings.holdoff o) (leaveCollections b s))
      else modBay b (endedRecord s.run.settings.holdoff o) (leaveCollections b s))) := by
    intro x
    refine h1.trans (.of_bays ?_)
    rw [owePassIf_bays]
    split <;> rfl
  rw [endEpisode_cases]
  split
  · exact (h2 _).trans (becomeVacant_others b _)
  · exact h2 _

theorem stopEpisode_keeps (b : Bay) (r : StopReason) (s : State) : Keeps s (stopEpisode b r s) :=
  ((leaveActive_keeps b s).trans (modDefrost_keeps b _ _)).trans (placeStop_keeps b _)

theorem stopEpisode_others (b : Bay) (r : StopReason) (s : State) : KeepsOthers b s (stopEpisode b r s) :=
  (modDefrost_others b _ (leaveActive b s)).trans (.of_bays (placeStop_bays b _))

/-- What an end event makes of the bay's business, by its defrost state (R145). -/
theorem endBusiness_cases (b : Bay) (r : StopReason) (s : State) :
    endBusiness b r s = s
      ∨ endBusiness b r s = endEpisode b (outcomeOf r) s
      ∨ (startUnsent s b = true ∧ endBusiness b r s = endEpisode b (outcomeOf r) (placeStop b s))
      ∨ ((bayAt s b).defrost.state = .active ∧ endBusiness b r s = stopEpisode b r s)
      ∨ (onStack s b = true ∧ endBusiness b r s = recordEnd b r s)
      ∨ endBusiness b r s = modDefrost b (fun d => { d with reason := some r }) s := by
  unfold endBusiness
  split
  · exact .inl rfl
  · exact .inr (.inl rfl)
  · split
    · next h => exact .inr (.inr (.inl ⟨h, rfl⟩))
    · exact .inr (.inr (.inr (.inr (.inr rfl))))
  · next h => exact .inr (.inr (.inr (.inl ⟨h, rfl⟩)))
  · split
    · next h => exact .inr (.inr (.inr (.inr (.inl ⟨h, rfl⟩))))
    · exact .inr (.inr (.inr (.inr (.inr rfl))))
  · exact .inr (.inl rfl)
  · exact .inl rfl

theorem endBusiness_keeps (b : Bay) (r : StopReason) (s : State) : Keeps s (endBusiness b r s) := by
  rcases endBusiness_cases b r s with h | h | ⟨-, h⟩ | ⟨-, h⟩ | ⟨-, h⟩ | h <;> rw [h]
  · exact .refl s
  · exact endEpisode_keeps b _ s
  · exact (placeStop_keeps b s).trans (endEpisode_keeps b _ _)
  · exact stopEpisode_keeps b r s
  · exact recordEnd_keeps b r s
  · exact modDefrost_keeps b _ s

theorem endBusiness_others (b : Bay) (r : StopReason) (s : State) : KeepsOthers b s (endBusiness b r s) := by
  rcases endBusiness_cases b r s with h | h | ⟨-, h⟩ | ⟨-, h⟩ | ⟨-, h⟩ | h <;> rw [h]
  · exact .refl b s
  · exact endEpisode_others b _ s
  · exact (KeepsOthers.of_bays (placeStop_bays b s)).trans (endEpisode_others b _ _)
  · exact stopEpisode_others b r s
  · exact .of_bays rfl
  · exact modDefrost_others b _ s

/-! ## Shedding -/

theorem pushShed_keeps (f : FeederIx) (b : Bay) (s : State) : Keeps s (pushShed f b s) := by
  unfold pushShed
  dsimp only
  split
  · exact (setFeeder_keeps f { feederAt s f with stack := ⟨b, none⟩ :: (feederAt s f).stack, nearFull := true } s rfl).trans
      (raiseAlert_keeps _ _ _)
  · exact setFeeder_keeps f _ s rfl

@[simp] theorem pushShed_bays (f : FeederIx) (b : Bay) (s : State) : (pushShed f b s).bays = s.bays := by
  unfold pushShed
  dsimp only
  split <;> rfl

theorem refusePush_keeps (f : FeederIx) (b : Bay) (s : State) : Keeps s (refusePush f b s) :=
  (setFeeder_keeps f { feederAt s f with overflow := true } s rfl).trans (raiseAlert_keeps _ _ _)

@[simp] theorem refusePush_bays (f : FeederIx) (b : Bay) (s : State) : (refusePush f b s).bays = s.bays := rfl

theorem shedRunning_keeps (f : FeederIx) (b : Bay) (s : State) : Keeps s (shedRunning f b s) := by
  unfold shedRunning
  split
  · exact (pushShed_keeps f b s).trans (stopEpisode_keeps b _ _)
  · exact (refusePush_keeps f b s).trans (stopEpisode_keeps b _ _)

theorem shedRunning_others (f : FeederIx) (b : Bay) (s : State) : KeepsOthers b s (shedRunning f b s) := by
  unfold shedRunning
  split
  · exact (KeepsOthers.of_bays (pushShed_bays f b s)).trans (stopEpisode_others b _ _)
  · exact (KeepsOthers.of_bays (refusePush_bays f b s)).trans (stopEpisode_others b _ _)

theorem shedUnsent_keeps (f : FeederIx) (b : Bay) (s : State) : Keeps s (shedUnsent f b s) := by
  unfold shedUnsent
  split
  · exact ((((placeStop_keeps b s).trans (leaveActive_keeps b _)).trans (pushShed_keeps f b _)).trans
      (modDefrost_keeps b _ _)).trans (owePass_keeps _)
  · exact ((placeStop_keeps b s).trans (refusePush_keeps f b _)).trans (endEpisode_keeps b _ _)

theorem shedUnsent_others (f : FeederIx) (b : Bay) (s : State) : KeepsOthers b s (shedUnsent f b s) := by
  have h0 : (placeStop b s).bays = s.bays := placeStop_bays b s
  unfold shedUnsent
  split
  · exact ((KeepsOthers.of_bays ((pushShed_bays f b (leaveActive b (placeStop b s))).trans h0)).trans
      (modDefrost_others b _ _)).trans (.of_bays (owePass_bays _))
  · exact (KeepsOthers.of_bays ((refusePush_bays f b (placeStop b s)).trans h0)).trans (endEpisode_others b _ _)

/-- A shed acts on a STARTING or ACTIVE bay alone (R141). -/
theorem shed_cases (f : FeederIx) (b : Bay) (s : State) :
    (startUnsent s b = true ∧ (bayAt s b).defrost.state = .starting ∧ shed f b s = shedUnsent f b s)
      ∨ ((bayAt s b).defrost.state = .starting
          ∧ shed f b s = modDefrost b (fun d => { d with shedPending := true }) s)
      ∨ ((bayAt s b).defrost.state = .active ∧ shed f b s = shedRunning f b s) ∨ shed f b s = s := by
  unfold shed
  split
  · next h =>
    split
    · next k => exact .inl ⟨k, h, rfl⟩
    · exact .inr (.inl ⟨h, rfl⟩)
  · next h => exact .inr (.inr (.inl ⟨h, rfl⟩))
  · exact .inr (.inr (.inr rfl))

theorem shed_keeps (f : FeederIx) (b : Bay) (s : State) : Keeps s (shed f b s) := by
  rcases shed_cases f b s with ⟨-, -, h⟩ | ⟨-, h⟩ | ⟨-, h⟩ | h <;> rw [h]
  · exact shedUnsent_keeps f b s
  · exact modDefrost_keeps b _ s
  · exact shedRunning_keeps f b s
  · exact .refl s

theorem shed_others (f : FeederIx) (b : Bay) (s : State) : KeepsOthers b s (shed f b s) := by
  rcases shed_cases f b s with ⟨-, -, h⟩ | ⟨-, h⟩ | ⟨-, h⟩ | h <;> rw [h]
  · exact shedUnsent_others f b s
  · exact modDefrost_others b _ s
  · exact shedRunning_others f b s
  · exact .refl b s

theorem walkStep_keeps (f : FeederIx) (s : State) (b : Bay) : Keeps s (walkStep f s b) := by
  unfold walkStep
  dsimp only
  split
  · exact .refl s
  · split
    · exact shed_keeps f b s
    · exact .refl s

theorem shedWalk_keeps (f : FeederIx) (s : State) : Keeps s (shedWalk f s) := Keeps.foldl (walkStep_keeps f) _ s

/-! ## The grant pass -/

theorem placeStart_keeps (b : Bay) (resume : Bool) (s : State) : Keeps s (placeStart b resume s) := setOrders_keeps _ s

theorem grant_keeps (b : Bay) (c : Charge) (s : State) : Keeps s (grant b c s) :=
  ((modDefrost_keeps b _ s).trans (joinActive_keeps b _)).trans (placeStart_keeps b _ _)

theorem grant_others (b : Bay) (c : Charge) (s : State) : KeepsOthers b s (grant b c s) := by
  unfold grant
  dsimp only
  exact (modDefrost_others b _ s).placed

theorem resumeTop_keeps (f : FeederIx) (b : Bay) (rest : List ShedEntry) (s : State) : Keeps s (resumeTop f b rest s) :=
  (((setFeeder_keeps f { feederAt s f with stack := rest } s rfl).trans (modDefrost_keeps b _ _)).trans
    (joinActive_keeps b _)).trans (placeStart_keeps b _ _)

theorem resumeTop_others (f : FeederIx) (b : Bay) (rest : List ShedEntry) (s : State) :
    KeepsOthers b s (resumeTop f b rest s) := by
  unfold resumeTop
  exact (modDefrost_others_of (setFeeder_bays f _ s)).placed

/-- One resume, or nothing (R121). -/
theorem resumeFeeder_succ (f : FeederIx) (n : Nat) (s : State) :
    resumeFeeder f (n + 1) s = s
      ∨ ∃ top rest, (feederAt s f).stack = top :: rest ∧ (bayAt s top.bay).defrost.state = .shed
          ∧ committed s f + (bayAt s top.bay).defrost.draw ≤ (feederAt s f).budget
          ∧ resumeFeeder f (n + 1) s = resumeFeeder f n (resumeTop f top.bay rest s) := by
  rw [resumeFeeder]
  split
  · exact .inl rfl
  · next top rest h =>
    dsimp only
    split
    · next k => exact .inr ⟨top, rest, h, k.1, k.2, rfl⟩
    · exact .inl rfl

theorem resumeFeeder_keeps (f : FeederIx) (n : Nat) (s : State) : Keeps s (resumeFeeder f n s) := by
  induction n generalizing s with
  | zero => exact .refl s
  | succ n ih =>
    rcases resumeFeeder_succ f n s with h | ⟨top, rest, -, -, -, h⟩ <;> rw [h]
    · exact .refl s
    · exact (resumeTop_keeps f top.bay rest s).trans (ih _)

theorem resumeAll_keeps (s : State) : Keeps s (resumeAll s) :=
  Keeps.foldl (fun s f => resumeFeeder_keeps f _ s) allFeeders s

/-- One entry of the walk of the queue: it waits as it is, waits with a raised pass-over count, or is granted (R123). -/
theorem walkEntry_cases (w : QueueWalk) (q : QueueEntry) :
    walkEntry w q = keepEntry w q
      ∨ (∃ f, passCharge (bayAt w.state q.bay) = .feeder f ∧ (feederAt w.state f).stack = [] ∧ f ∉ w.barriers
          ∧ (feederAt w.state f).budget < committed w.state f + (bayAt w.state q.bay).draw
          ∧ walkEntry w q = passOverEntry w f q)
      ∨ (passCharge (bayAt w.state q.bay) = .self ∧ (bayAt w.state q.bay).noDiesel = false
          ∧ walkEntry w q = { w with state := grant q.bay .self w.state })
      ∨ ∃ f, passCharge (bayAt w.state q.bay) = .feeder f ∧ (feederAt w.state f).stack = [] ∧ f ∉ w.barriers
          ∧ committed w.state f + (bayAt w.state q.bay).draw ≤ (feederAt w.state f).budget
          ∧ walkEntry w q = { w with state := grant q.bay (.feeder f) w.state } := by
  unfold walkEntry
  dsimp only
  split
  · exact .inl rfl
  · next h =>
    split
    · exact .inl rfl
    · next k => exact .inr (.inr (.inl ⟨h, by simpa using k, rfl⟩))
  · next f h =>
    split
    · exact .inl rfl
    · next hs =>
      split
      · exact .inl rfl
      · next hb =>
        have hs' : (feederAt w.state f).stack = [] := by simpa using hs
        have hb' : f ∉ w.barriers := by simpa using hb
        split
        · next k => exact .inr (.inr (.inr ⟨f, h, hs', hb', k, rfl⟩))
        · next k => exact .inr (.inl ⟨f, h, hs', hb', by omega, rfl⟩)

theorem walkEntry_keeps (w : QueueWalk) (q : QueueEntry) : Keeps w.state (walkEntry w q).state := by
  rcases walkEntry_cases w q with h | ⟨f, -, -, -, -, h⟩ | ⟨-, -, h⟩ | ⟨f, -, -, -, -, h⟩ <;> rw [h]
  · exact .refl _
  · exact .refl _
  · exact grant_keeps q.bay _ _
  · exact grant_keeps q.bay _ _

theorem walkQueue_keeps (l : List QueueEntry) (w : QueueWalk) : Keeps w.state (l.foldl walkEntry w).state := by
  induction l generalizing w with
  | nil => exact .refl _
  | cons q l ih => exact (walkEntry_keeps w q).trans (ih _)

theorem grantQueue_keeps (s : State) : Keeps s (grantQueue s) :=
  (walkQueue_keeps s.arb.queue ⟨s, [], []⟩).trans (.of_arb rfl rfl rfl (fun _ => rfl) rfl)

theorem grantPass_keeps (s : State) : Keeps s (grantPass s) := (resumeAll_keeps s).trans (grantQueue_keeps _)

/-- The pass owed is made in RUNNING, dropped in any other run state (R120). -/
theorem runPass_cases (s : State) :
    (s.passDue = false ∧ runPass s = s)
      ∨ (s.passDue = true ∧ s.run.state = .running ∧ runPass s = grantPass { s with passDue := false })
      ∨ (s.passDue = true ∧ s.run.state ≠ .running ∧ runPass s = { s with passDue := false }) := by
  unfold runPass
  split
  · next h =>
    dsimp only
    split
    · next k => exact .inr (.inl ⟨h, by simpa [isRunning] using k, rfl⟩)
    · next k => exact .inr (.inr ⟨h, by simpa [isRunning] using k, rfl⟩)
  · next h => exact .inl ⟨by simpa using h, rfl⟩

theorem runPass_keeps (s : State) : Keeps s (runPass s) := by
  have h0 : Keeps s { s with passDue := false } := .of_eq rfl rfl rfl rfl rfl
  rcases runPass_cases s with ⟨-, h⟩ | ⟨-, -, h⟩ | ⟨-, -, h⟩ <;> rw [h]
  · exact .refl s
  · exact h0.trans (grantPass_keeps _)
  · exact h0

/-! ## The loop -/

theorem endRound_cases (s : State) :
    endRound s = s
      ∨ ∃ p, s.loop.round = some p ∧ nextPoll s p = none ∧ roundPollInFlight s p = false
          ∧ endRound s = { s with loop := { s.loop with round := none } } := by
  unfold endRound
  split
  · exact .inl rfl
  · next p h =>
    split
    · next k => exact .inr ⟨p, h, by simpa using k.1, k.2, rfl⟩
    · exact .inl rfl

theorem endRound_keeps (s : State) : Keeps s (endRound s) := by
  rcases endRound_cases s with h | ⟨_, -, -, -, h⟩ <;> rw [h]
  · exact .refl s
  · exact .of_eq rfl rfl rfl rfl rfl

@[simp] theorem endRound_bays (s : State) : (endRound s).bays = s.bays := by
  rcases endRound_cases s with h | ⟨_, -, -, -, h⟩ <;> rw [h]

/-- The loop arbiter's choice (R52): nothing, the head order, or the next poll of the round. -/
theorem serveLoop_cases (s : State) :
    serveLoop s = s
      ∨ (∃ o rest, s.loop.exchange = none ∧ (s.run.state = .running ∨ s.run.state = .halting)
          ∧ s.loop.orders = o :: rest
          ∧ serveLoop s = beginExchange o.bay (.order o.kind)
              { s with loop := { s.loop with orders := rest, orderRun := min (s.loop.orderRun + 1) 4 } })
      ∨ ∃ b, s.loop.exchange = none ∧ s.run.state = .running ∧ pollLeft s = some b
          ∧ (s.loop.orders = [] ∨ 4 ≤ s.loop.orderRun) ∧ serveLoop s = takePoll b s := by
  have ho : s.loop.exchange = none → (s.run.state = .running ∨ s.run.state = .halting) → takeOrder s = s
      ∨ ∃ o rest, s.loop.exchange = none ∧ (s.run.state = .running ∨ s.run.state = .halting)
          ∧ s.loop.orders = o :: rest
          ∧ takeOrder s = beginExchange o.bay (.order o.kind)
              { s with loop := { s.loop with orders := rest, orderRun := min (s.loop.orderRun + 1) 4 } } := by
    intro h r
    unfold takeOrder
    split
    · exact .inl rfl
    · next o rest k => exact .inr ⟨o, rest, h, r, k, rfl⟩
  unfold serveLoop
  split
  · exact .inl rfl
  · next h =>
    split
    · next r =>
      split
      · next b hb =>
        split
        · rcases ho h (.inl r) with k | k
          · exact .inl k
          · exact .inr (.inl k)
        · next hn =>
          refine .inr (.inr ⟨b, h, r, hb, ?_, rfl⟩)
          by_cases e : s.loop.orders = []
          · exact .inl e
          · exact .inr (by_contra fun c => hn ⟨e, by omega⟩)
      · rcases ho h (.inl r) with k | k
        · exact .inl k
        · exact .inr (.inl k)
    · next r =>
      rcases ho h (.inr r) with k | k
      · exact .inl k
      · exact .inr (.inl k)
    · exact .inl rfl
    · exact .inl rfl

theorem serveLoop_keeps (s : State) : Keeps s (serveLoop s) := by
  rcases serveLoop_cases s with h | ⟨_, _, -, -, -, h⟩ | ⟨_, -, -, -, -, h⟩ <;> rw [h]
  · exact .refl s
  · exact .of_eq rfl rfl rfl rfl rfl
  · exact .of_eq rfl rfl rfl rfl rfl

@[simp] theorem serveLoop_bays (s : State) : (serveLoop s).bays = s.bays := by
  rcases serveLoop_cases s with h | ⟨_, _, -, -, -, h⟩ | ⟨_, -, -, -, -, h⟩ <;> rw [h] <;> rfl

@[simp] theorem serveLoop_arb (s : State) : (serveLoop s).arb = s.arb := by
  rcases serveLoop_cases s with h | ⟨_, _, -, -, -, h⟩ | ⟨_, -, -, -, -, h⟩ <;> rw [h] <;> rfl

@[simp] theorem serveLoop_alert (s : State) : (serveLoop s).alert = s.alert := by
  rcases serveLoop_cases s with h | ⟨_, _, -, -, -, h⟩ | ⟨_, -, -, -, -, h⟩ <;> rw [h] <;> rfl

@[simp] theorem serveLoop_run (s : State) : (serveLoop s).run = s.run := by
  rcases serveLoop_cases s with h | ⟨_, _, -, -, -, h⟩ | ⟨_, -, -, -, -, h⟩ <;> rw [h] <;> rfl

theorem startRound_keeps (s : State) : Keeps s (startRound s) := by
  unfold startRound
  dsimp only
  split
  · refine Keeps.trans (Keeps.of_eq ?_ ?_ ?_ ?_ ?_) (endRound_keeps _) <;> rfl
  · refine Keeps.trans (Keeps.of_eq ?_ ?_ ?_ ?_ ?_) (raiseAlert_keeps _ _ _) <;> rfl

/-! ## The end of a change -/

theorem haltTest_cases (s : State) :
    haltTest s = s
      ∨ (s.run.state = .halting ∧ haltDone s = true
          ∧ haltTest s = mapBays loseDoorOf { s with run := { s.run with state := .halted } }) := by
  unfold haltTest
  split
  · next h => exact .inr ⟨h.1, h.2, rfl⟩
  · exact .inl rfl

theorem haltTest_keeps (s : State) : Keeps s (haltTest s) := by
  rcases haltTest_cases s with h | ⟨-, -, h⟩ <;> rw [h]
  · exact .refl s
  · refine Keeps.trans ?_ (mapBays_keeps loseDoorOf _)
    exact ⟨rfl, rfl, rfl, rfl, rfl, rfl, rfl, fun _ => rfl, fun _ => ⟨rfl, rfl, rfl⟩, fun _ _ h => h⟩

theorem settle_keeps (s : State) : Keeps s (settle s) :=
  (((runPass_keeps s).trans (endRound_keeps _)).trans (serveLoop_keeps _)).trans (haltTest_keeps _)

theorem becomeLost_keeps (b : Bay) (s : State) : Keeps s (becomeLost b s) :=
  ((raiseAlert_keeps _ _ s).trans (modBay_keeps b _ _)).trans (endBusiness_keeps b _ _)

theorem becomeLost_others (b : Bay) (s : State) : KeepsOthers b s (becomeLost b s) :=
  (modBay_others b loseDoorOf (raiseAlert .link (bayElement b) s)).trans (endBusiness_others b _ _)

theorem joinQueue_keeps (b : Bay) (o : Origin) (s : State) : Keeps s (joinQueue b o s) := by
  unfold joinQueue
  dsimp only
  refine Keeps.trans (Keeps.of_arb ?_ ?_ ?_ (fun _ => ?_) ?_) ((modDefrost_keeps b _ _).trans (owePass_keeps _)) <;> rfl

theorem joinQueue_others (b : Bay) (o : Origin) (s : State) : KeepsOthers b s (joinQueue b o s) := by
  unfold joinQueue
  dsimp only
  exact (modDefrost_others_of rfl).owed

/-! ## Orders the manual leaves open -/

theorem perm_insertByRank (n : Nat) (o : Order) (q : List Order) : (insertByRank n o q).Perm (o :: q) := by
  induction q with
  | nil => exact .refl _
  | cons x xs ih =>
    unfold insertByRank
    split
    · exact .refl _
    · exact (ih.cons x).trans (.swap o x xs)

/-- The free order is a rearrangement: no order is lost or doubled (notes/assumptions/7.md). -/
theorem perm_freeOrder (n : Nat) (q : List Order) : (freeOrder n q).Perm q := by
  induction q with
  | nil => exact .refl _
  | cons o q ih => exact (perm_insertByRank n o (freeOrder n q)).trans (ih.cons o)

/-- A change with a free order does what it does, but for the order of the queue and the model's counter. -/
theorem withFreeOrder_cases (g : State → State) (s : State) :
    withFreeOrder g s = g s
      ∨ ∃ q, q.Perm (g s).loop.orders
          ∧ withFreeOrder g s = { setOrders q (g s) with freeDraws := (g s).freeDraws + 1 } := by
  unfold withFreeOrder
  dsimp only
  split
  · exact .inl rfl
  · exact .inr ⟨_, ((perm_freeOrder _ _).append_left _).trans (List.filter_append_perm _ _), rfl⟩

theorem withFreeOrder_keeps {g : State → State} (h : ∀ s, Keeps s (g s)) (s : State) : Keeps s (withFreeOrder g s) := by
  rcases withFreeOrder_cases g s with k | ⟨q, -, k⟩ <;> rw [k]
  · exact h s
  · exact (h s).trans (.of_eq rfl rfl rfl rfl rfl)

/-! ## Exchanges -/

theorem startTaken_cases (b : Bay) (s : State) :
    (∃ r, (bayAt s b).defrost.reason = some r ∧ startTaken b s = stopEpisode b r s)
      ∨ (∃ f, (bayAt s b).defrost.reason = none ∧ (bayAt s b).defrost.shedPending = true
          ∧ (bayAt s b).defrost.charge = .feeder f ∧ startTaken b s = shedRunning f b s)
      ∨ ((bayAt s b).defrost.reason = none
          ∧ startTaken b s = modDefrost b (fun d => { d with state := .active, shedPending := false }) s) := by
  unfold startTaken
  dsimp only
  split
  · next r h => exact .inl ⟨r, h, rfl⟩
  · next h =>
    split
    · next f hp hf => exact .inr (.inl ⟨f, h, hp, hf, rfl⟩)
    · exact .inr (.inr ⟨h, rfl⟩)

theorem startTaken_keeps (b : Bay) (s : State) : Keeps s (startTaken b s) := by
  rcases startTaken_cases b s with ⟨_, -, h⟩ | ⟨_, -, -, -, h⟩ | ⟨-, h⟩ <;> rw [h]
  · exact stopEpisode_keeps b _ s
  · exact shedRunning_keeps _ b s
  · exact modDefrost_keeps b _ s

theorem startTaken_others (b : Bay) (s : State) : KeepsOthers b s (startTaken b s) := by
  rcases startTaken_cases b s with ⟨_, -, h⟩ | ⟨_, -, -, -, h⟩ | ⟨-, h⟩ <;> rw [h]
  · exact stopEpisode_others b _ s
  · exact shedRunning_others _ b s
  · exact modDefrost_others b _ s

theorem startAnswered_cases (b : Bay) (r : AckResult) (s : State) :
    (r = .taken ∧ startAnswered b r s = startTaken b s)
      ∨ (r ≠ .taken ∧ startAnswered b r s = endEpisode b (refusalOutcome r) s) := by
  cases r <;> simp [startAnswered]

theorem stopAnswered_cases (b : Bay) (s : State) :
    (∃ r, stopAnswered b s = endEpisode b (outcomeOf r) s)
      ∨ ((bayAt s b).defrost.reason = some .shed
          ∧ stopAnswered b s = owePass (modDefrost b (fun d => { d with state := .shed, reason := none }) s))
      ∨ ((bayAt s b).defrost.reason = none ∧ stopAnswered b s = s) := by
  unfold stopAnswered
  split
  · next h =>
    split
    · next r _ => exact .inl ⟨r, rfl⟩
    · exact .inr (.inl ⟨h, rfl⟩)
  · next r _ _ => exact .inl ⟨r, rfl⟩
  · next h => exact .inr (.inr ⟨h, rfl⟩)

theorem stopUnanswered_keeps (b : Bay) (s : State) : Keeps s (stopUnanswered b s) := by
  have h := (((leaveStacks_keeps b s).trans (owePassIf_keeps (onStack s b) _)).trans
    (modDefrost_keeps b (fun d => { d with state := .hung, reason := hungReason s b }) _)).trans
    (raiseAlert_keeps .power (bayElement b) _)
  unfold stopUnanswered
  dsimp only
  split
  · exact (h.trans (owePassIf_keeps _ _)).trans (becomeVacant_keeps b _)
  · exact h

theorem stopUnanswered_others (b : Bay) (s : State) : KeepsOthers b s (stopUnanswered b s) := by
  have h : KeepsOthers b s (raiseAlert .power (bayElement b)
      (modDefrost b (fun d => { d with state := .hung, reason := hungReason s b })
        (owePassIf (onStack s b) (leaveStacks b s)))) :=
    (modDefrost_others_of (owePassIf_bays _ (leaveStacks b s))).raised
  unfold stopUnanswered
  dsimp only
  split
  · exact (h.trans (.of_bays (owePassIf_bays _ _))).trans (becomeVacant_others b _)
  · exact h

/-- An order's outcome acts on a STARTING bay for a START, on a STOPPING one for a STOP (R51). -/
theorem orderOutcome_cases (b : Bay) (o : OrderKind) (r : Option AckResult) (s : State) :
    (∃ resume a, o = .start resume ∧ r = some a ∧ (bayAt s b).defrost.state = .starting
        ∧ orderOutcome b o r s = startAnswered b a s)
      ∨ (∃ resume, o = .start resume ∧ r = none ∧ (bayAt s b).defrost.state = .starting
          ∧ orderOutcome b o r s = stopEpisode b .unconfirmed s)
      ∨ (o = .stop ∧ r.isSome = true ∧ (bayAt s b).defrost.state = .stopping ∧ orderOutcome b o r s = stopAnswered b s)
      ∨ (o = .stop ∧ r = none ∧ (bayAt s b).defrost.state = .stopping ∧ orderOutcome b o r s = stopUnanswered b s)
      ∨ orderOutcome b o r s = s := by
  unfold orderOutcome
  split
  · next x a h => exact .inl ⟨x, a, rfl, rfl, h, rfl⟩
  · next x h => exact .inr (.inl ⟨x, rfl, rfl, h, rfl⟩)
  · next h => exact .inr (.inr (.inl ⟨rfl, rfl, h, rfl⟩))
  · next h => exact .inr (.inr (.inr (.inl ⟨rfl, rfl, h, rfl⟩)))
  · exact .inr (.inr (.inr (.inr rfl)))

theorem orderOutcome_keeps (b : Bay) (o : OrderKind) (r : Option AckResult) (s : State) :
    Keeps s (orderOutcome b o r s) := by
  rcases orderOutcome_cases b o r s with ⟨_, a, -, -, -, h⟩ | ⟨_, -, -, -, h⟩ | ⟨-, -, -, h⟩ | ⟨-, -, -, h⟩ | h <;> rw [h]
  · rcases startAnswered_cases b a s with ⟨-, k⟩ | ⟨-, k⟩ <;> rw [k]
    · exact startTaken_keeps b s
    · exact endEpisode_keeps b _ s
  · exact stopEpisode_keeps b _ s
  · rcases stopAnswered_cases b s with ⟨_, k⟩ | ⟨-, k⟩ | ⟨-, k⟩ <;> rw [k]
    · exact endEpisode_keeps b _ s
    · exact (modDefrost_keeps b _ s).trans (owePass_keeps _)
    · exact .refl s
  · exact stopUnanswered_keeps b s
  · exact .refl s

theorem orderOutcome_others (b : Bay) (o : OrderKind) (r : Option AckResult) (s : State) :
    KeepsOthers b s (orderOutcome b o r s) := by
  rcases orderOutcome_cases b o r s with ⟨_, a, -, -, -, h⟩ | ⟨_, -, -, -, h⟩ | ⟨-, -, -, h⟩ | ⟨-, -, -, h⟩ | h <;> rw [h]
  · rcases startAnswered_cases b a s with ⟨-, k⟩ | ⟨-, k⟩ <;> rw [k]
    · exact startTaken_others b s
    · exact endEpisode_others b _ s
  · exact stopEpisode_others b _ s
  · rcases stopAnswered_cases b s with ⟨_, k⟩ | ⟨-, k⟩ | ⟨-, k⟩ <;> rw [k]
    · exact endEpisode_others b _ s
    · exact (modDefrost_others b _ s).owed
    · exact .refl b s
  · exact stopUnanswered_others b s
  · exact .refl b s

theorem modeStep_cases (b : Bay) (m : Mode) (s : State) :
    modeStep b m s = s
      ∨ ((bayAt s b).defrost.state = .active ∧ m = .fault ∧ modeStep b m s = endEpisode b .failed s)
      ∨ ((bayAt s b).defrost.state = .active ∧ m ≠ .defrost ∧ m ≠ .fault ∧ modeStep b m s = endEpisode b .complete s)
      ∨ ∃ r, (bayAt s b).defrost.state = .hung ∧ m ≠ .defrost ∧ (bayAt s b).defrost.reason = some r
          ∧ modeStep b m s = endEpisode b (outcomeOf r) s := by
  unfold modeStep
  split
  · exact .inl rfl
  · next h => exact .inr (.inl ⟨h, rfl, rfl⟩)
  · next h h1 h2 => exact .inr (.inr (.inl ⟨h, h1, h2, rfl⟩))
  · exact .inl rfl
  · next h hm =>
    split
    · next r k => exact .inr (.inr (.inr ⟨r, h, hm, k, rfl⟩))
    · exact .inl rfl
  · exact .inl rfl

theorem modeStep_keeps (b : Bay) (m : Mode) (s : State) : Keeps s (modeStep b m s) := by
  rcases modeStep_cases b m s with h | ⟨-, -, h⟩ | ⟨-, -, -, h⟩ | ⟨_, -, -, -, h⟩ <;> rw [h]
  · exact .refl s
  · exact endEpisode_keeps b _ s
  · exact endEpisode_keeps b _ s
  · exact endEpisode_keeps b _ s

theorem modeStep_others (b : Bay) (m : Mode) (s : State) : KeepsOthers b s (modeStep b m s) := by
  rcases modeStep_cases b m s with h | ⟨-, -, h⟩ | ⟨-, -, -, h⟩ | ⟨_, -, -, -, h⟩ <;> rw [h]
  · exact .refl b s
  · exact endEpisode_others b _ s
  · exact endEpisode_others b _ s
  · exact endEpisode_others b _ s

theorem chargeToFeeder_cases (b : Bay) (f : FeederIx) (s : State) :
    chargeToFeeder b f s = modDefrost b (fun d => { d with charge := .feeder f }) s
      ∨ chargeToFeeder b f s = shed f b (modDefrost b (fun d => { d with charge := .feeder f }) s) := by
  unfold chargeToFeeder
  dsimp only
  split
  · split
    · exact .inl rfl
    · exact .inr rfl
  · split
    · exact .inl rfl
    · exact .inr rfl
  · exact .inl rfl

theorem sourceStep_cases (b : Bay) (src : Source) (s : State) :
    sourceStep b src s = s
      ∨ (chargeFollows s b = true ∧ src = .diesel ∧ sourceStep b src s = chargeToSelf b s)
      ∨ ∃ f, chargeFollows s b = true ∧ src = .shore ∧ (bayAt s b).feeder = some f
          ∧ sourceStep b src s = chargeToFeeder b f s := by
  unfold sourceStep
  split
  · next h =>
    split
    · exact .inr (.inl ⟨h, rfl, rfl⟩)
    · split
      · next f k => exact .inr (.inr ⟨f, h, rfl, k, rfl⟩)
      · exact .inl rfl
    · exact .inl rfl
  · exact .inl rfl

theorem sourceStep_keeps (b : Bay) (src : Source) (s : State) : Keeps s (sourceStep b src s) := by
  rcases sourceStep_cases b src s with h | ⟨-, -, h⟩ | ⟨f, -, -, -, h⟩ <;> rw [h]
  · exact .refl s
  · exact (modDefrost_keeps b _ s).trans (owePassIf_keeps _ _)
  · rcases chargeToFeeder_cases b f s with k | k <;> rw [k]
    · exact modDefrost_keeps b _ s
    · exact (modDefrost_keeps b _ s).trans (shed_keeps f b _)

theorem sourceStep_others (b : Bay) (src : Source) (s : State) : KeepsOthers b s (sourceStep b src s) := by
  rcases sourceStep_cases b src s with h | ⟨-, -, h⟩ | ⟨f, -, -, -, h⟩ <;> rw [h]
  · exact .refl b s
  · exact (modDefrost_others b _ s).trans (.of_bays (owePassIf_bays _ _))
  · rcases chargeToFeeder_cases b f s with k | k <;> rw [k]
    · exact modDefrost_others b _ s
    · exact (modDefrost_others b _ s).trans (shed_others f b _)

/-! ## The check -/

theorem checkDoor_cases (b : Bay) (report : DoorReport) (s : State) :
    let res := doorStage report (bayAt s b).door
    let t := modBay b (fun r => addCauses (condInvalid res.invalid) { r with door := res.door }) s
    (res.notice = .opened ∧ checkDoor b report s = endBusiness b .door t)
      ∨ (res.notice ≠ .opened ∧ checkDoor b report s = t) := by
  intro res t
  unfold checkDoor
  dsimp only
  split
  · next h => exact .inl ⟨h, rfl⟩
  · next h => exact .inr ⟨by simp only [res, h]; decide, rfl⟩
  · next h => exact .inr ⟨by simp only [res, h]; decide, rfl⟩

theorem checkDoor_keeps (b : Bay) (report : DoorReport) (s : State) : Keeps s (checkDoor b report s) := by
  rcases checkDoor_cases b report s with ⟨-, h⟩ | ⟨-, h⟩ <;> rw [h]
  · exact (modBay_keeps b _ s).trans (endBusiness_keeps b _ _)
  · exact modBay_keeps b _ s

theorem checkDoor_others (b : Bay) (report : DoorReport) (s : State) : KeepsOthers b s (checkDoor b report s) := by
  rcases checkDoor_cases b report s with ⟨-, h⟩ | ⟨-, h⟩ <;> rw [h]
  · exact (modBay_others b _ s).trans (endBusiness_others b _ _)
  · exact modBay_others b _ s

theorem checkFrost_keeps (b : Bay) (m : Mode) (w : Working) (s : State) : Keeps s (checkFrost b m w s) := by
  unfold checkFrost
  dsimp only
  split
  · exact (modBay_keeps b _ s).trans (raiseAlert_keeps _ _ _)
  · exact modBay_keeps b _ s

theorem checkFrost_others (b : Bay) (m : Mode) (w : Working) (s : State) : KeepsOthers b s (checkFrost b m w s) := by
  unfold checkFrost
  dsimp only
  split
  · exact (modBay_others b _ s).raised
  · exact modBay_others b _ s

theorem checkFuel_keeps (b : Bay) (src : Source) (w : Working) (s : State) : Keeps s (checkFuel b src w s) := by
  unfold checkFuel
  dsimp only
  split
  · exact (modBay_keeps b _ s).trans (raiseAlert_keeps _ _ _)
  · exact modBay_keeps b _ s

theorem checkFuel_others (b : Bay) (src : Source) (w : Working) (s : State) : KeepsOthers b s (checkFuel b src w s) := by
  unfold checkFuel
  dsimp only
  split
  · exact (modBay_others b _ s).raised
  · exact modBay_others b _ s

theorem checkEnd_keeps (b : Bay) (s : State) : Keeps s (checkEnd b s) := by
  have h1 := modBay_keeps b (fun r => { r with sticky := condsUnion r.sticky r.causes }) s
  unfold checkEnd
  dsimp only
  split <;> split
  · exact (h1.trans (raiseAlert_keeps _ _ _)).trans (joinQueue_keeps b _ _)
  · exact h1.trans (raiseAlert_keeps _ _ _)
  · exact h1.trans (joinQueue_keeps b _ _)
  · exact h1

theorem checkEnd_others (b : Bay) (s : State) : KeepsOthers b s (checkEnd b s) := by
  have h1 := modBay_others b (fun r => { r with sticky := condsUnion r.sticky r.causes }) s
  unfold checkEnd
  dsimp only
  split <;> split
  · exact h1.trans (joinQueue_others b _ _)
  · exact h1
  · exact h1.trans (joinQueue_others b _ _)
  · exact h1

theorem check_keeps (b : Bay) (snap : Snapshot) (s : State) : Keeps s (check b snap s) :=
  ((((modBay_keeps b _ s).trans (checkDoor_keeps b _ _)).trans (checkFrost_keeps b _ _ _)).trans
    (checkFuel_keeps b _ _ _)).trans (checkEnd_keeps b _)

theorem check_others (b : Bay) (snap : Snapshot) (s : State) : KeepsOthers b s (check b snap s) :=
  ((((modBay_others b _ s).trans (checkDoor_others b _ _)).trans (checkFrost_others b _ _ _)).trans
    (checkFuel_others b _ _ _)).trans (checkEnd_others b _)

/-! ## The end of an exchange -/

theorem pollAnswered_keeps (b : Bay) (snap : Snapshot) (s : State) : Keeps s (pollAnswered b snap s) := by
  have h := (((modBay_keeps b (answeredRecord snap) s).trans
    (owePassIf_keeps (queuedSourceChanges (bayAt s b) snap) _)).trans (modeStep_keeps b snap.mode _)).trans
    (sourceStep_keeps b snap.source _)
  unfold pollAnswered
  dsimp only
  split
  · exact h.trans (check_keeps b snap _)
  · exact h

theorem pollAnswered_others (b : Bay) (snap : Snapshot) (s : State) : KeepsOthers b s (pollAnswered b snap s) := by
  have h := (((modBay_others b (answeredRecord snap) s).trans
    (.of_bays (owePassIf_bays (queuedSourceChanges (bayAt s b) snap) _))).trans (modeStep_others b snap.mode _)).trans
    (sourceStep_others b snap.source _)
  unfold pollAnswered
  dsimp only
  split
  · exact h.trans (check_others b snap _)
  · exact h

theorem pollMissed_keeps (b : Bay) (o : ExchangeOutcome) (s : State) : Keeps s (pollMissed b o s) := by
  unfold pollMissed
  dsimp only
  split
  · exact (modBay_keeps b _ s).trans (becomeLost_keeps b _)
  · exact modBay_keeps b _ s

theorem pollMissed_others (b : Bay) (o : ExchangeOutcome) (s : State) : KeepsOthers b s (pollMissed b o s) := by
  unfold pollMissed
  dsimp only
  split
  · exact (modBay_others b _ s).trans (becomeLost_others b _)
  · exact modBay_others b _ s

theorem exchangeResult_keeps (x : Exchange) (j : Judged) (s : State) : Keeps s (exchangeResult x j s) := by
  unfold exchangeResult
  split
  · exact pollAnswered_keeps _ _ s
  · exact pollMissed_keeps _ _ s
  · exact (modBay_keeps _ _ s).trans (orderOutcome_keeps _ _ _ _)
  · exact (modBay_keeps _ _ s).trans (orderOutcome_keeps _ _ _ _)

theorem exchangeResult_others (x : Exchange) (j : Judged) (s : State) :
    KeepsOthers x.bay s (exchangeResult x j s) := by
  unfold exchangeResult
  split
  · exact pollAnswered_others _ _ s
  · exact pollMissed_others _ _ s
  · exact (modBay_others _ _ s).trans (orderOutcome_others _ _ _ _)
  · exact (modBay_others _ _ s).trans (orderOutcome_others _ _ _ _)

theorem endExchange_keeps (x : Exchange) (j : Judged) (s : State) : Keeps s (endExchange x j s) := by
  unfold endExchange
  dsimp only
  refine Keeps.trans ?_ (settle_keeps _)
  have h : Keeps s { s with loop := { s.loop with
      exchange := some { x with phase := .gap (gapAfter (judgedOutcome j)) } } } := .of_eq rfl rfl rfl rfl rfl
  split
  · exact h
  · exact h.trans (exchangeResult_keeps x j _)

/-! ## Moments (notes/assumptions/5.md) -/

theorem doorTest_keeps (b : Bay) (s : State) : Keeps s (doorTest b s) := by
  unfold doorTest
  split
  · exact (modBay_keeps b _ s).trans (raiseAlert_keeps _ _ _)
  · exact .refl s

theorem timeoutTest_keeps (b : Bay) (s : State) : Keeps s (timeoutTest b s) := by
  unfold timeoutTest
  split
  · exact stopEpisode_keeps b _ s
  · exact .refl s

theorem momentEffect_keeps (m : Moment) (s : State) : Keeps s (momentEffect m s) := by
  cases m
  · exact doorTest_keeps _ s
  · exact doorTest_keeps _ s
  · exact modDefrost_keeps _ _ s
  · exact timeoutTest_keeps _ s

/-- A moment that stands open brings its effect and closes; any other has not come. -/
theorem takeMoment_cases (m : Moment) (s : State) :
    (m ∈ s.moments ∧ takeMoment m s = { momentEffect m s with moments := s.moments.erase m })
      ∨ (m ∉ s.moments ∧ takeMoment m s = s) := by
  unfold takeMoment
  split
  · next h => exact .inl ⟨by simpa using h, rfl⟩
  · next h => exact .inr ⟨by simpa using h, rfl⟩

/-- The moments a change opens and takes are closed again when it is over. -/
theorem takeMoments_moments (ms : List Moment) (s : State) : (takeMoments ms s).moments = s.moments := by
  have key : ∀ (ms : List Moment) (t : State), t.moments = ms ++ s.moments →
      (ms.foldl (fun t m => takeMoment m t) t).moments = s.moments := by
    intro ms
    induction ms with
    | nil => intro t h; simpa using h
    | cons m ms ih =>
      intro t h
      rw [List.foldl_cons]
      refine ih _ ?_
      rcases takeMoment_cases m t with ⟨-, k⟩ | ⟨k, -⟩
      · rw [k]; show t.moments.erase m = _; rw [h]; simp
      · exact absurd (by rw [h]; simp) k
  exact key ms _ rfl

/-! ## Taking a request -/

/-- A request taken: one of the port's three refusals, or the owning block's answer (R168). -/
theorem takeRequest_cases (st : Station) (k : RequestKind) (args : List Byte) (owner : State → Reply × State) (s : State) :
    (31 < args.length ∧ takeRequest st k args owner s = writeReply st (plain .overlong) (receiveRequest st s))
      ∨ (args.length ≤ 31 ∧ permitted k st = false
          ∧ takeRequest st k args owner s = writeReply st (plain .refusedRole) (receiveRequest st s))
      ∨ (args.length ≤ 31 ∧ permitted k st = true ∧ args.length ≠ argCount k
          ∧ takeRequest st k args owner s = writeReply st (plain .badLength) (receiveRequest st s))
      ∨ (permitted k st = true ∧ args.length = argCount k
          ∧ takeRequest st k args owner s
              = writeReply st (owner (receiveRequest st s)).1 (owner (receiveRequest st s)).2) := by
  unfold takeRequest
  dsimp only
  split
  · next h => exact .inl ⟨h, rfl⟩
  · next h =>
    have hl : args.length ≤ 31 := Nat.le_of_not_lt h
    split
    · next hp => exact .inr (.inl ⟨hl, hp, rfl⟩)
    · next hp =>
      have hp' : permitted k st = true := by simpa using hp
      split
      · next hn => exact .inr (.inr (.inl ⟨hl, hp', hn, rfl⟩))
      · next hn => exact .inr (.inr (.inr ⟨hp', by simpa using hn, rfl⟩))

end Sys2Proof.Machine
end

