-- ==== Sys2Proof/Tests/Slice0.lean ====
section
/-! SUPPORT. Tests: `WellFormed` refuses what it should, the commands do what the manual's worked sequences say, and each
statement with hypotheses has a state and operands that meet them. Expected values come from the manual's own tables. -/

namespace Sys2Proof.Tests

open Sys2Proof Sys2Proof.Machine Sys2Proof.Claims

set_option Elab.async false
set_option maxRecDepth 4000

/-! ## Small states -/

/-- The state after a command. -/
def after (i : Instr) (s : State) : State :=
  match exec i s with
  | .next t => t
  | .fault _ => s
  | .refused _ => s

/-- The reply code and data a station holds. -/
def replyOf (st : Station) (s : State) : Reply := (slotAt s st).reply

/-- Bay 12 of the manual's sequences. -/
abbrev b12 : Bay := 11

/-- Ident "RK40Z118" (section 1.8). -/
def ident : List Byte := [0x52, 0x4B, 0x34, 0x30, 0x5A, 0x31, 0x31, 0x38]

/-- A snapshot: mode COOL, SHORE, CLOSED, Tc -262, Tr -180, P 372. -/
def cool : Snapshot := ⟨.cool, .shore, .closed, BitVec.ofInt 16 (-262), BitVec.ofInt 16 (-180), 372⟩

/-- A PARKED bay with link OK, 230 litres, feeder 2 and 16 A. -/
def parked : BayRecord :=
  { BayRecord.empty with occupancy := .parked, ident := some ident, link := .ok, snapshot := some cool, capacity := 230,
                         feeder := some 1, door := { BayRecord.empty.door with confirmed := .closed } }

/-- The same bay with a defrost on feeder 2 in some state. -/
def busy (st : DefrostState) : BayRecord :=
  { parked with defrost := { Defrost.empty with state := st, charge := .feeder 1, draw := 16 } }

/-- A yard in RUNNING with one bay, number 12. -/
def yard (r : BayRecord) : State :=
  { State.reset with run := { State.reset.run with state := .running },
                     loop := { State.reset.loop with nextRound := some 30 },
                     bays := State.reset.bays.set 11 r }

/-- The yard with an exchange of bay 12 awaiting its reply. -/
def waiting (k : ExchangeKind) (s : State) : State :=
  { s with loop := { s.loop with exchange := some ⟨b12, k, .awaiting, false⟩ } }

/-- A state whose minute tick has been issued. -/
def issued (s : State) : State := { s with run := { s.run with minutePhase := .issued } }

/-- A state with one moment open. -/
def opening (m : Moment) (s : State) : State := { s with moments := [m] }

/-- The yard with a shed stack on feeder 2. -/
def stacked (l : List ShedEntry) (s : State) : State := setFeeder 1 ⟨40, l, false, false⟩ s

/-- The command that brings a TELEMETRY reply of bay 12. -/
def telemetry (x : Snapshot) : Instr :=
  .replyFrameComplete (replyChars (telemetryBytes b12 x) (checkByte (telemetryBytes b12 x)))

/-- The command that brings an ORDER-ACK of bay 12. -/
def ack (r : AckResult) : Instr := .replyFrameComplete (replyChars (ackBytes b12 r) (checkByte (ackBytes b12 r)))

theorem ends_telemetry : endsWith ⟨b12, .poll, .awaiting, false⟩ (.telemetry cool) (telemetry cool) :=
  .inl ⟨_, .telemetry, replyChars (telemetryBytes b12 cool) (checkByte (telemetryBytes b12 cool)), rfl, by decide +kernel,
    by decide +kernel⟩

theorem ends_ack (k : OrderKind) (r : AckResult) (h : judge ⟨b12, .order k, .awaiting, false⟩ .orderAck
    (replyChars (ackBytes b12 r) (checkByte (ackBytes b12 r))) = .ack r)
    (g : assembleReply (replyChars (ackBytes b12 r) (checkByte (ackBytes b12 r)))
      = .complete .orderAck (replyChars (ackBytes b12 r) (checkByte (ackBytes b12 r)))) :
    endsWith ⟨b12, .order k, .awaiting, false⟩ (.ack r) (ack r) :=
  .inl ⟨_, .orderAck, _, rfl, g, h⟩

theorem ends_close (x : Exchange) : endsWith x (.failed .noReply) .replyWindowClose := .inr (.inr ⟨rfl, rfl⟩)

theorem ends_kind (x : Exchange) : endsWith x (.failed .wrongReply) (.wrongKindByte 0x33) :=
  .inr (.inl ⟨0x33, rfl, by decide, by decide, rfl⟩)

/-! ## WellFormed refuses -/

theorem test_wellFormed_refuses_wrongKindByte_of_a_reply_kind : wellFormed (.wrongKindByte 0x81) = false := by decide
theorem test_wellFormed_refuses_incomplete_frame : wellFormed (.replyFrameComplete [⟨0xC3, true⟩]) = false := by decide
theorem test_wellFormed_refuses_markSet_of_another_operation : wellFormed (.markSet .office [1, 2, 0]) = false := by decide
theorem test_wellFormed_refuses_markTestSet_without_operation : wellFormed (.markTestSet .office [1]) = false := by decide
theorem test_wellFormed_refuses_markClear_of_another_operation : wellFormed (.markClear .office [1, 3, 0]) = false := by
  decide
theorem test_wellFormed_refuses_markTestClear_of_another_operation :
    wellFormed (.markTestClear .office [1, 1, 0]) = false := by decide
theorem test_wellFormed_refuses_unknownKind_of_a_known_kind : wellFormed (.unknownKind .office 0x42 []) = false := by decide
theorem test_wellFormed_refuses_overlong_of_32_bytes : wellFormed (.overlong .office (List.replicate 32 0)) = false := by
  decide
theorem test_wellFormed_refuses_empty_general_call : wellFormed (.generalCallWrite []) = false := by decide

/-- Every request kind with 32 argument bytes, one more than a write can hold. -/
theorem test_wellFormed_refuses_32_arguments : ∀ k ∈ allKinds, ∀ st ∈ allStations,
    wellFormed (commandOfKind k st (List.replicate 32 0)) = false := by decide

theorem test_wellFormed_accepts : wellFormed (.arrive .gate [12]) = true ∧ wellFormed (telemetry cool) = true
    ∧ wellFormed (.markSet .office [12, 9, 0]) = true ∧ wellFormed .secondsTick = true := by decide +kernel

/-- The table gives no row bits. -/
theorem test_decodeTableWord_spells_none : decodeTableWord 0 0 = none ∧ decodeTableWord 32 0xFFFFFFFF = none := ⟨rfl, rfl⟩

/-! ## Wire -/

/-- The CRC-8 of R175 over "123456789" (a check value known from outside the manual). -/
theorem test_checkByte_of_the_usual_nine : checkByte [0x31, 0x32, 0x33, 0x34, 0x35, 0x36, 0x37, 0x38, 0x39] = 0x20 := by
  decide

theorem test_poll_request_is_four_bytes : (requestFrame b12 .poll).take 3 = [0xC3, 12, 0x01] := by decide

/-- R38: a byte 0x55 before the sync byte is discarded. -/
theorem test_noise_before_the_sync_byte : assembleReply (⟨0x55, true⟩ :: replyChars (ackBytes b12 .taken) 0)
    = .complete .orderAck (replyChars (ackBytes b12 .taken) 0) := by decide

/-- Section 11.1: with ADDR low SERVICE is at 0x47; the strap high makes it 0x4F. -/
theorem test_reset_takes_the_strap : stationAddress State.reset .service = 0x47
    ∧ stationAddress (after (.reset true) State.reset) .service = 0x4F := by decide

/-! ## Datapath: section 4.7 -/

theorem test_divide_limits : (mulDiv 6000 60 5) = (65535, true) ∧ (mulDiv 6000 60 6) = (60000, false)
    ∧ (mulDiv 6000 60 54) = (6666, false) := by decide

theorem test_filter_step_rounds_to_nothing : filterSplit 64 (some 5) 2 = 5 ∧ filterSplit 64 (some 73) 60 = 70 := by decide

theorem test_inputs_at_the_limits : workingTemperature (BitVec.ofInt 16 (-400)) = (some (-400), false)
    ∧ workingTemperature (BitVec.ofInt 16 (-401)) = (some (-400), true)
    ∧ workingTemperature (BitVec.ofInt 16 612) = (some 500, true) ∧ workingTemperature 0x8000 = (none, false)
    ∧ workingLevel 1000 = (some 1000, false) ∧ workingLevel 65534 = (some 1000, true) := by decide

/-! ## Ticks and moments -/

theorem test_secondsTick_issues_the_minute :
    (after .secondsTick { State.reset with run := { State.reset.run with second := 59 } }).run
      = { State.reset.run with second := 0, minutePhase := .issued } := by decide

/-- An opening of bay 12, `n` seconds old. -/
def opened (n : Nat) : BayRecord :=
  { parked with door := { parked.door with confirmed := .opened, openSeconds := n, totalOpen := 900 + n, openings := 3 } }

/-- Section 7.6: the count comes to 300 and DOOR is raised. -/
theorem test_secondsTick_raises_door : (bayAt (after .secondsTick (yard (opened 299))) b12).door
      = { (opened 299).door with openSeconds := 300, totalOpen := 1200, alertGiven := true }
    ∧ (catAt (after .secondsTick (yard (opened 299))).alert .door).pending = [12] := by decide +kernel

/-- Section 1.8, step 4: D 900 becomes 899 and the yard minute 5201. R28: no minute tick comes at second 0. -/
theorem test_minuteTick_counts :
    let s := after .minuteTick (issued { yard { parked with departure := some 900 } with
      run := { State.reset.run with state := .running, yardMinute := 5200 } })
    s.run.yardMinute = 5201 ∧ (bayAt s b12).departure = some 899
      ∧ after .minuteTick State.reset = State.reset := by decide +kernel

/-- R132: an episode of 44 minutes reaches Tmax 45 and its STOP goes to the loop. -/
theorem test_minuteTick_times_out :
    let s := after .minuteTick (issued (yard
      { busy .active with defrost := { (busy .active).defrost with elapsed := 44 } }))
    (bayAt s b12).defrost.reason = some .timeout ∧ (s.loop.exchange.map (·.kind)) = some (.order .stop) := by decide +kernel

theorem test_doorLimitReached_raises_once :
    (catAt (after (.doorLimitReached b12) (opening (.doorLimit b12) (yard (opened 300)))).alert .door).latch = true
    ∧ after (.doorLimitReached b12) (yard (opened 300)) = yard (opened 300) := by decide +kernel

/-- Section 7.6: a permit brought to 0 with the opening past the limit. -/
theorem test_permitEnd_raises :
    (bayAt (after (.permitEnd b12) (opening (.permitEnd b12) (yard (opened 340)))) b12).door.alertGiven = true := by
  decide +kernel

theorem test_holdoffEnd : (bayAt (after (.holdoffEnd b12) (opening (.holdoffEnd b12) (yard { parked with defrost :=
    { Defrost.empty with holdoff := 1 } }))) b12).defrost.holdoff = 0 := by decide +kernel

/-- R132, R34: Tmax lowered to a bay's count acts at the next minute tick, not before. -/
theorem test_timeout_stops :
    let s := yard { busy .active with defrost := { (busy .active).defrost with elapsed := 45 } }
    (bayAt (after (.timeout b12) (opening (.timeout b12) s)) b12).defrost.state = .stopping
    ∧ after (.timeout b12) s = s := by decide +kernel

/-- OFFICE's claims of section 10.5: CHECK with bay 27 under DOOR with bay 3. -/
def claimed (silence : Nat) : State :=
  let u := setCat .check ⟨true, [27]⟩ (setCat .door ⟨true, [31]⟩ State.reset.alert)
  let v := setAlertAt .office ⟨[], [⟨.door, [3]⟩, ⟨.check, [27]⟩], silence, false⟩ u
  { State.reset with alert := evalLines .nested v }

/-- Section 10.5, a silent station. -/
theorem test_silenceRelease_merges :
    let u := (after (.silenceRelease .office) (claimed 10)).alert
    (catAt u .door).pending = [3, 31] ∧ (catAt u .check).pending = [27] ∧ (alertAt u .office).stack = []
      ∧ (alertAt u .office).line = true ∧ (alertAt u .service).line = true := by decide +kernel

theorem test_minuteTick_releases_a_silent_station :
    (alertAt (after .minuteTick (issued (claimed 9))).alert .office).stack = []
    ∧ (alertAt (after .minuteTick (issued (claimed 8))).alert .office).stack.length = 2 := by decide +kernel

/-! ## The bay loop -/

/-- Section 3.8: a skipped round start counts and raises LINK for YARD. -/
theorem test_roundStart_skipped :
    let s := after .roundStart (waiting .poll { yard parked with loop :=
      { State.reset.loop with nextRound := some 0, round := some 36, overruns := 11 } })
    s.loop.overruns = 12 ∧ s.loop.round = some 36 ∧ (catAt s.alert .link).pending = [0] := by decide +kernel

/-- The queue of section 3.8 when the count has come to 4: the poll goes first. -/
theorem test_idleGapEnd_lets_a_poll_in :
    let s := after .idleGapEnd { yard parked with loop := { State.reset.loop with
      exchange := some ⟨30, .order .stop, .gap 2, false⟩, orders := [⟨18, .start false⟩], orderRun := 4, round := some 0 } }
    s.loop.exchange = some ⟨b12, .poll, .sending, false⟩ ∧ s.loop.orderRun = 0 ∧ s.loop.round = some 12
      ∧ s.loop.lde = true := by decide +kernel

theorem test_replyWindowOpen_releases_lde :
    (after .replyWindowOpen { yard parked with loop := { State.reset.loop with
      exchange := some ⟨b12, .poll, .sending, false⟩, lde := true, ltx := requestFrame b12 .poll } }).loop.lde = false := by
  decide +kernel

/-- Section 5.6, one check at the threshold: S 73, F 45090, and a demand. -/
theorem test_poll_check_at_the_threshold :
    let r := { parked with frost := ⟨some 70, some 41, 3, 44850⟩, feeder := none }
    let s := waiting .poll (yard r)
    let t := after (telemetry cool) { s with run := { s.run with settings := { Settings.defaults with frostGain := 120 } } }
    (bayAt t b12).frost = ⟨some 73, some 41, 3, 45090⟩ ∧ (bayAt t b12).defrost.state = .queued
      ∧ t.arb.queue = [⟨b12, .estimate, 0, 0⟩] := by decide +kernel

/-- Section 6.8, one check that finds the bay short: V 855, R 54, E 950, FUEL raised. -/
theorem test_poll_check_finds_the_bay_short :
    let r := { parked with departure := some 900, fuel := { BayRecord.empty.fuel with vref := some 893, w := 42 } }
    let t := after (telemetry { cool with source := .diesel }) (waiting .poll (yard r))
    (bayAt t b12).fuel = ⟨some 855, some 855, 0, 54, 950, false, true, 0⟩ ∧ (catAt t.alert .fuel).pending = [12] := by
  decide +kernel

/-- Section 3.4: the fourth miss loses the bay, and its ACTIVE defrost is stopped with reason LINK. -/
theorem test_replyWindowClose_loses_the_bay :
    let t := after .replyWindowClose (waiting .poll (yard { busy .active with missCount := 3 }))
    (bayAt t b12).link = .lost ∧ (bayAt t b12).missCount = 4 ∧ (bayAt t b12).door.confirmed = .unknown
      ∧ (bayAt t b12).defrost.reason = some .link ∧ t.loop.orders = [⟨b12, .stop⟩]
      ∧ (catAt t.alert .link).pending = [12] := by decide +kernel

theorem test_wrongKindByte_is_a_wrong_reply :
    (bayAt (after (.wrongKindByte 0x33) (waiting .poll (yard parked))) b12).lastExchange = .wrongReply := by decide +kernel

/-- Section 9.10, step 2: STOPPED makes a shed bay SHED; with the end DOOR recorded it is step 7, ABORTED-DOOR. -/
theorem test_stopped_sheds_or_ends :
    let r := { busy .stopping with defrost := { (busy .stopping).defrost with reason := some .shed } }
    let low := fun e : Option StopReason => setBudget 1 8 (stacked [⟨b12, e⟩] (waiting (.order .stop) (yard r)))
    (bayAt (after (ack .stopped) (low none)) b12).defrost.state = .shed
      ∧ (bayAt (after (ack .stopped) (low (some .door))) b12).defrost.outcome = some .abortedDoor := by decide +kernel

theorem test_haltedEntry :
    (after .haltedEntry { yard parked with run := { State.reset.run with state := .halting } }).run.state = .halted := by
  decide +kernel

/-! ## Requests -/

theorem test_readYard_after_reset : replyOf .gate (after (.readYard .gate []) State.reset)
    = ⟨.done, [0, 0, 0, 0, 40, 0, 0, 0, 0, 0, 0, 0, 0, 0]⟩ := by decide +kernel

theorem test_readBay_ident : replyOf .gate (after (.readBay .gate [12, 0]) (yard parked))
    = ⟨.done, [12, 0, 2, 0x52, 0x4B, 0x34, 0x30, 0x5A, 0x31, 0x31, 0x38, 0, 0, 0, 0, 230, 2, 16, 0, 0, 0, 0, 0, 0]⟩ := by
  decide +kernel

/-- The READ FEEDER of section 8.6: committed 16, admitted 16, depth 1 with a SHED bay of 24 A. -/
theorem test_readFeeder :
    let s := { yard (busy .starting) with bays := ((State.reset.bays.set 11 (busy .starting)).set 4
      { busy .shed with defrost := { (busy .shed).defrost with draw := 24 } }) }
    replyOf .feeder (after (.readFeeder .feeder [2]) (setFeeder 1 ⟨20, [⟨4, none⟩], false, false⟩ s))
      = ⟨.done, [2, 20, 0, 16, 16, 1, 0, 5, 0, 24]⟩ := by decide +kernel

theorem test_readQueue_and_readActive :
    let s := { yard (busy .active) with arb := { State.reset.arb with queue := [⟨4, .manual, 300, 2⟩], active := [b12] } }
    replyOf .gate (after (.readQueue .gate [1]) s) = ⟨.done, [1, 1, 5, 2, 1, 44, 2]⟩
    ∧ replyOf .gate (after (.readActive .gate [1]) s) = ⟨.done, [1, 1, 12, 3, 2, 16, 0, 0]⟩ := by decide +kernel

/-- Section 2.3: setting 2 given 20 is stored as 15, CLAMPED, and reads back as 15. -/
theorem test_setSetting_clamps :
    let t := after (.setSetting .office [2, 0, 20]) State.reset
    replyOf .office t = ⟨.clamped, []⟩ ∧ replyOf .gate (after (.readSetting .gate [2]) t) = ⟨.done, [2, 0, 15]⟩ := by
  decide +kernel

/-- Section 2.3: limit 4 to 3 with bay 12 OK at count 3. -/
theorem test_setSetting_loses_a_bay :
    let t := after (.setSetting .office [2, 0, 3]) (yard { parked with missCount := 3 })
    (bayAt t b12).link = .lost ∧ (bayAt t b12).missCount = 3 ∧ (catAt t.alert .link).pending = [12] := by decide +kernel

/-- The arguments of section 1.8, step 1. -/
def arrival (bay : Byte) : List Byte := bay :: ident ++ [0xFF, 0xFF, 0x03, 0x84]

/-- Section 1.8, steps 1 and 2. -/
theorem test_arrive :
    let s := { State.reset with bays := State.reset.bays.set 11 { BayRecord.empty with capacity := 230 } }
    let t := after (.arrive .gate (arrival 12)) s
    (bayAt t b12).occupancy = .arriving ∧ (bayAt t b12).capacity = 230 ∧ (bayAt t b12).departure = some 900
      ∧ replyOf .gate (after (.arrive .gate (arrival 14)) t) = ⟨.refusedState, []⟩ := by decide +kernel

/-- Section 1.8, step 8. -/
theorem test_depart_of_an_active_bay :
    let t := after (.depart .gate [12]) (yard (busy .active))
    (bayAt t b12).occupancy = .departing ∧ (bayAt t b12).defrost.reason = some .depart ∧ committed t 1 = 16 := by
  decide +kernel

/-- R18, R120: a bay that becomes VACANT with NO-DIESEL-DEFROST set brings a pass, and bay 5's waiting entry is passed over. -/
theorem test_depart_with_noDiesel_makes_a_pass :
    let s := fun m => { yard { parked with noDiesel := m } with
      bays := (State.reset.bays.set 11 { parked with noDiesel := m }).set 4 (busy .queued),
      arb := { State.reset.arb with queue := [⟨4, .manual, 0, 0⟩] } }
    (after (.depart .gate [12]) (s true)).arb.queue = [⟨4, .manual, 0, 1⟩]
      ∧ (after (.depart .gate [12]) (s false)).arb.queue = [⟨4, .manual, 0, 0⟩] := by decide +kernel

theorem test_setDeparture_clamps :
    (bayAt (after (.setDeparture .gate [12, 0x10, 0x00]) (yard parked)) b12).departure = some 4095 := by decide +kernel

theorem test_setBayData_clamps :
    let t := after (.setBayData .office [12, 0, 19, 3, 41]) (yard parked)
    ((bayAt t b12).capacity, (bayAt t b12).feeder, (bayAt t b12).draw) = (20, some 2, 40)
      ∧ replyOf .office t = ⟨.clamped, []⟩ := by decide +kernel

theorem test_closeBay_then_openBay :
    let t := after (.closeBay .service [12]) State.reset
    (bayAt t b12).occupancy = .outOfService
      ∧ (bayAt (after (.openBay .service [12]) t) b12).occupancy = .vacant := by decide +kernel

/-- Section 1.8, steps 5 to 7. -/
theorem test_mark_hold_has_one_owner :
    let t := after (.markTestSet .office [12, 2, 0]) (yard parked)
    let u := after (.markTestSet .service [12, 2, 0]) t
    replyOf .office t = ⟨.done, [0]⟩ ∧ replyOf .service u = ⟨.done, [1]⟩ ∧ (bayAt u b12).hold = some .office
      ∧ replyOf .service (after (.markClear .service [12, 1, 0]) u) = ⟨.refusedOwner, []⟩
      ∧ (bayAt (after (.markClear .office [12, 1, 0]) u) b12).hold = none := by decide +kernel

theorem test_markSet_and_markTestClear :
    let t := after (.markSet .gate [12, 0, 1]) (yard parked)
    (bayAt t b12).fuelOrdered = true
      ∧ replyOf .gate (after (.markTestClear .gate [12, 3, 1]) t) = ⟨.done, [1]⟩ := by decide +kernel

/-- Section 8.6: a demand on feeder 2 with budget 40 is granted at once, its START on the loop. -/
theorem test_defrostNow_is_granted :
    let t := after (.defrostNow .service [12]) (stacked [] (yard parked))
    (bayAt t b12).defrost.state = .starting ∧ (bayAt t b12).defrost.charge = .feeder 1 ∧ committed t 1 = 16
      ∧ t.loop.exchange.map (·.kind) = some (.order (.start false)) := by decide +kernel

/-- Section 8.6, step 1: a demand that does not fit waits with count 1. -/
theorem test_defrostNow_waits :
    (after (.defrostNow .service [12]) (yard parked)).arb.queue = [⟨b12, .manual, 0, 1⟩] := by decide +kernel

theorem test_withdraw_of_a_queued_bay :
    let s := { yard (busy .queued) with arb := { State.reset.arb with queue := [⟨b12, .manual, 0, 0⟩] } }
    let t := after (.withdraw .office [12]) s
    (bayAt t b12).defrost.outcome = some .withdrawn ∧ (bayAt t b12).defrost.holdoff = 60 ∧ t.arb.queue = [] := by
  decide +kernel

/-- Section 9.10, step 1: a cut below the admitted current sheds the bay. -/
theorem test_feederBudgetSingle_sheds :
    let s := { stacked [] (yard (busy .active)) with arb := { (stacked [] (yard (busy .active))).arb with active := [b12] } }
    let t := after (.feederBudgetSingle .feeder [2, 0, 8]) s
    (bayAt t b12).defrost.reason = some .shed ∧ (feederAt t 1).stack = [⟨b12, none⟩] ∧ committed t 1 = 16
      ∧ admitted t 1 = 0 := by decide +kernel

theorem test_feederBudgetAll_and_generalCall :
    (feederAt (after (.feederBudgetAll .feeder [0, 1, 0, 2, 0, 3, 1, 0]) State.reset) 3).budget = 250
    ∧ (feederAt (after (.generalCallWrite [0x23, 0, 1, 0, 2, 0, 3, 1, 0]) State.reset) 2).budget = 3 := by decide +kernel

theorem test_forceRelease :
    (bayAt (after (.forceRelease .feeder [12]) (yard (busy .hung))) b12).defrost.outcome = some .forced := by decide +kernel

theorem test_doorPermit_clamps :
    (bayAt (after (.doorPermit .service [12, 0x01, 0xE1]) (yard parked)) b12).permit = 480 := by decide +kernel

theorem test_clearFlags :
    (bayAt (after (.clearFlagsBay .office [0]) (yard { parked with sticky := ⟨true, false, true, false⟩ })) b12).sticky
      = Conds.empty
    ∧ (feederAt (after (.clearFlagsFeeder .feeder [1]) (setFeeder 0 ⟨9, [], true, true⟩ State.reset)) 0)
      = ⟨9, [], false, false⟩ := by decide +kernel

/-- Section 10.5, step 5: SERVICE takes DOOR with bay 14 over FUEL, which it masks. -/
theorem test_takeAlert :
    let u := setCat .door ⟨true, [14]⟩ (setCat .fuel ⟨true, [12]⟩ State.reset.alert)
    let t := after (.takeAlert .service []) { State.reset with alert := u }
    replyOf .service t = ⟨.done, [2, 0, 0x40, 0, 0, 0, 0]⟩ ∧ (alertAt t.alert .service).stack = [⟨.door, [14]⟩] := by
  decide +kernel

/-- Section 10.5, steps 9 and 10: only the top entry is released. -/
theorem test_releaseAlert :
    replyOf .office (after (.releaseAlert .office [6]) (claimed 0)) = ⟨.refusedState, []⟩
    ∧ (alertAt (after (.releaseAlert .office [2]) (claimed 0)).alert .office).stack = [⟨.check, [27]⟩] := by decide +kernel

theorem test_alertMask :
    (alertAt (after (.alertMask .service [0x28]) State.reset).alert .service).mask = [.fuel, .check] := by decide +kernel

theorem test_beginRounds_and_haltRounds :
    (after (.beginRounds .office []) State.reset).run.state = .running
    ∧ (after (.haltRounds .office []) (yard parked)).run.state = .halted := by decide +kernel

/-- Section 11.4, step 5: an argument missing. -/
theorem test_badLength_unknownKind_overlong :
    replyOf .service (after (.markSet .service [12]) State.reset) = ⟨.badLength, []⟩
    ∧ replyOf .service (after (.unknownKind .service 0x99 []) State.reset) = ⟨.unknownKind, []⟩
    ∧ replyOf .service (after (.overlong .service (List.replicate 33 0)) State.reset) = ⟨.overlong, []⟩ := by decide +kernel

/-- R163, R165: GATE's write, opened before OFFICE's request is carried out, keeps its byte and takes the next one. -/
theorem test_a_write_goes_on_past_another_station_s_request :
    let s := (writeByte 0x11 (openWrite 0x46 State.reset)).2
    let t := after (.haltRounds .office []) s
    (writeByte 12 t).1 = true ∧ (closeWrite true (writeByte 12 t).2).1 = some (.depart .gate [12]) := by decide +kernel

/-! ## Every statement's hypotheses are met -/

/-- Kind byte 0x99 is of no request. -/
theorem noKind : ∀ k, (0x99 : Byte) ≠ BitVec.ofNat 8 (code k) := by intro k; cases k <;> decide

theorem ends_poll (x : Snapshot)
    (g : assembleReply (replyChars (telemetryBytes b12 x) (checkByte (telemetryBytes b12 x)))
      = .complete .telemetry (replyChars (telemetryBytes b12 x) (checkByte (telemetryBytes b12 x))))
    (h : judge ⟨b12, .poll, .awaiting, false⟩ .telemetry
      (replyChars (telemetryBytes b12 x) (checkByte (telemetryBytes b12 x))) = .telemetry x) :
    endsWith ⟨b12, .poll, .awaiting, false⟩ (.telemetry x) (telemetry x) :=
  .inl ⟨_, .telemetry, _, rfl, g, h⟩

/-- The poll of bay 12 in a yard brings a check. -/
theorem checked (r : BayRecord) (h : r.occupancy = .parked) :
    checkedBy (waiting .poll (yard r)) b12 cool (telemetry cool) :=
  ⟨rfl, ends_telemetry, .inr h, rfl⟩

theorem witness_StepRunsFrontOrIdles :
    { State.reset with pending := [.secondsTick, .minuteTick] }.pending = .secondsTick :: [.minuteTick]
    ∧ State.reset.pending = [] := ⟨rfl, rfl⟩

theorem witness_ResetAndVacancyEmptyRecords : (1 : Bay) ≠ 0 := by decide

theorem witness_RequestsCheckedInOrder :
    (∃ c, commandOfWrite .office (0x05 :: List.replicate 32 0) = some c)
    ∧ (∃ c, commandOfWrite .office (0x99 :: List.replicate 31 0) = some c)
    ∧ (∃ c, commandOfWrite .office (0x10 :: [0]) = some c) ∧ (0x10 : Byte) = BitVec.ofNat 8 (code .arrive)
    ∧ mayAsk .arrive .office = false ∧ (∃ c, commandOfWrite .gate (0x10 :: List.replicate 12 0) = some c)
    ∧ mayAsk .arrive .gate = true ∧ (List.replicate 12 (0 : Byte)).length ≠ argBytes .arrive
    ∧ (∀ k, (0x99 : Byte) ≠ BitVec.ofNat 8 (code k)) ∧ 32 < (List.replicate 33 (0 : Byte)).length :=
  ⟨⟨_, rfl⟩, ⟨_, rfl⟩, ⟨_, rfl⟩, rfl, rfl, ⟨_, rfl⟩, rfl, by decide, noKind, by decide⟩

theorem witness_RequestsKeepOtherStations : wellFormed (.readYard .gate [0]) = true
    ∧ writeOfCommand (.readYard .gate [0]) = some (.gate, [0x05, 0])
    ∧ ∃ t, exec (.readYard .gate [0]) State.reset = .next t ∧ (slotAt t .gate).reply.code ≠ .done
      ∧ Station.office ≠ .gate := ⟨by decide, rfl, _, rfl, by decide, by decide⟩

theorem witness_OneBayCommandsKeepTheRest : ofBay b12 (.depart .gate [12]) ∧ (4 : Bay) ≠ b12
    ∧ (∃ t, exec (.depart .gate [12]) (yard (busy .active)) = .next t)
    ∧ awaits (waiting .poll (yard parked)) b12 .poll false
    ∧ endsWith ⟨b12, .poll, .awaiting, false⟩ (.telemetry cool) (telemetry cool) :=
  ⟨rfl, by decide, ⟨_, rfl⟩, rfl, ends_telemetry⟩

theorem witness_BusWriteMakesItsCommand : (List.replicate 32 (0 : Byte)) ≠ []
    ∧ (List.replicate 32 (0 : Byte)).length ≤ 32 ∧ 32 < (List.replicate 33 (0 : Byte)).length
    ∧ acknowledges State.reset 0x47 true = true ∧ acknowledges State.reset 0x48 false = false
    ∧ acknowledges State.reset 0 false = true ∧ acknowledges State.reset 0 true = false := by decide

theorem witness_WriteRoundTrip : wellFormed (.arrive .gate (arrival 12)) = true
    ∧ writeOfCommand (.arrive .gate (arrival 12)) = some (.gate, 0x10 :: arrival 12)
    ∧ wellFormed (.markTestClear .office [1, 3, 0]) = true ∧ wellFormed (.unknownKind .gate 0x99 []) = true := by decide

theorem witness_GeneralCallActsOnBudgetsOnly : ([0x10] : List Byte).head? ≠ some 0x23
    ∧ ([0x23, 0] : List Byte).length ≠ 9
    ∧ (feederAt (after (.generalCallWrite [0x23, 0, 1, 0, 0, 0, 0, 0, 0]) State.reset) 0).budget
        ≠ (feederAt State.reset 0).budget
    ∧ ∀ f, (feederAt (after (.generalCallWrite [0x23, 0, 0, 0, 0, 0, 0, 0, 0]) State.reset) f).budget
        = (feederAt State.reset f).budget := by decide +kernel

theorem witness_CheckByteCatchesOneByte : (0x01 : Byte) ≠ 0x81 := by decide

theorem witness_TelemetryReplyRoundTrip : noSync [⟨0x55, true⟩, ⟨0xC3, false⟩] ∧ (4 : Bay) ≠ b12
    ∧ (0x00 : Byte) ≠ checkByte (telemetryBytes b12 cool)
    ∧ outsideCodes 5 0 0 ∧ outsideCodes 0 2 0 ∧ outsideCodes 0 0 2 ∧ outsideCodes 0 0 4 ∧ ¬ outsideCodes 4 1 1
    ∧ ¬ outsideCodes 0 0 3 ∧ codedBytes b12 1 0 0 cool = telemetryBytes b12 cool
    ∧ (judge ⟨b12, .poll, .awaiting, false⟩ .telemetry
        (replyChars (codedBytes b12 5 0 0 cool) (checkByte (codedBytes b12 5 0 0 cool))) = .failed .wrongReply) := by
  decide +kernel

theorem witness_OrderAckRoundTrip : noSync [] ∧ allowedFor (.start true) .refusedFault ∧ ¬ allowedFor .stop .taken
    ∧ allowedFor .stop .stopped ∧ (replyChars (ackBytes b12 .taken) 0)[4]? = some ⟨0, true⟩ := by
  refine ⟨by decide, by decide, ?_, rfl, by decide⟩
  intro h; cases h

theorem witness_ReadBayAnswersItsView : (∀ i, (bayAt (yard parked) b12).ident = some i → i.length = 8)
    ∧ noBay 0 ∧ noBay 41 ∧ 4 ≤ (4 : Byte).toNat := by
  refine ⟨?_, by decide, by decide, by decide⟩
  intro i h; cases h; rfl

theorem witness_ReadFeederQueueActiveAnswer : 1 ≤ (1 : Byte).toNat ∧ (40 : Byte).toNat ≤ 40 ∧ noFeeder 0 ∧ noFeeder 5
    ∧ noBay 0 ∧ noBay 255 := by decide

theorem witness_ArriveEnrols : (bayAt State.reset b12).occupancy = .vacant ∧ identForm ident
    ∧ (∀ x, x ≠ b12 → (bayAt State.reset x).occupancy ≠ .vacant → (bayAt State.reset x).ident ≠ some ident)
    ∧ (waiting .poll State.reset).loop.exchange.isSome = true
    ∧ (bayAt (waiting .poll State.reset) b12).occupancy = .vacant
    ∧ number 0xFF 0xFF = 65535 ∧ (tank 1, tank 19, tank 20, tank 600, tank 601) = (20, 20, 20, 600, 600) := by
  decide +kernel

theorem witness_ArriveRefusedInOrder : noBay 0 ∧ noBay 41 ∧ ¬ identForm (List.replicate 8 0x20) ∧ bayByte b12 = 12
    ∧ identForm ident ∧ (bayAt (yard parked) b12).occupancy ≠ .vacant
    ∧ (bayAt (yard parked) 4).occupancy = .vacant ∧ b12 ≠ 4 ∧ (bayAt (yard parked) b12).ident = some ident := by
  decide +kernel

/-- The yard in HALTING with some orders waiting. -/
def halting (orders : List Order) (r : BayRecord) : State :=
  setOrders orders { yard r with run := { State.reset.run with state := .halting } }

theorem witness_DepartFollowsDefrostState :
    (∀ st ∈ [DefrostState.idle, .hung, .queued, .shed, .starting, .active, .stopping],
      atRest (yard (busy st)) ∧ (bayAt (yard (busy st)) b12).occupancy = .parked
      ∧ (bayAt (yard (busy st)) b12).defrost.state = st ∧ inNoCollection (yard (busy st)) b12
      ∧ noOrder (yard (busy st)) b12 ∧ ¬ startWaits (yard (busy st)) b12)
    ∧ (yard parked).run.state ≠ .halting ∧ (yard parked).run.state = .running
    ∧ (bayAt (yard { parked with noDiesel := true }) b12).noDiesel = true
    ∧ (busy .hung).defrost.charge = .feeder 1
    ∧ (after (.depart .gate [12]) (halting [] parked)).run.state = .halted
    ∧ (after (.depart .gate [12]) (waiting .poll (halting [⟨18, .stop⟩] parked))).run.state = .halting
    ∧ startWaits (setOrders [⟨b12, .start false⟩] (yard (busy .starting))) b12
    ∧ onAStack (stacked [⟨b12, none⟩] (yard (busy .stopping))) b12
    ∧ (bayAt State.reset b12).occupancy ≠ .arriving ∧ (bayAt State.reset b12).occupancy ≠ .parked ∧ noBay 41 := by
  decide +kernel

theorem witness_SetDepartureStores : (bayAt (yard parked) b12).occupancy = .parked
    ∧ (bayAt State.reset b12).occupancy ≠ .arriving ∧ (bayAt State.reset b12).occupancy ≠ .parked ∧ noBay 0
    ∧ number 0x0F 0xFF = 4095 ∧ number 0x10 0x00 = 4096 ∧ number 0xFF 0xFE ≠ 65535 := by decide +kernel

theorem witness_SetBayDataStores : (4 : Byte).toNat ≤ 4 ∧ 5 ≤ (5 : Byte).toNat ∧ noBay 41
    ∧ (bayAt State.reset b12).defrost.state ≠ .queued ∧ (bayAt (yard (busy .queued)) b12).defrost.state = .queued
    ∧ (drawOf 3, drawOf 4, drawOf 40, drawOf 41) = (4, 4, 40, 40) := by decide +kernel

theorem witness_CloseAndOpenBay : (bayAt State.reset b12).occupancy = .vacant
    ∧ (bayAt (yard parked) b12).occupancy ≠ .vacant ∧ (bayAt (yard parked) b12).occupancy ≠ .outOfService
    ∧ (bayAt (after (.closeBay .service [12]) State.reset) b12).occupancy = .outOfService ∧ noBay 0 ∧ identForm ident
    ∧ (bayAt (after (.arrive .gate (arrival 12)) State.reset) b12).occupancy = .arriving := by decide +kernel

theorem witness_MarkSetAndTestSet : stands (bayAt (yard parked) b12) ∧ mayMark .hold .service = true
    ∧ mayMark .fuelOrdered .gate = true ∧ (bayAt (yard { parked with hold := some .office }) b12).hold.isSome = true
    ∧ (bayAt (yard parked) b12).occupancy ≠ .departing
    ∧ stands { busy .stopping with occupancy := .departing }
    ∧ ¬ endsAtOnce (yard { busy .stopping with occupancy := .departing }) b12
    ∧ endsAtOnce (yard { busy .shed with occupancy := .departing }) b12 := by decide +kernel

theorem witness_HoldSetEndsBusiness :
    (∀ st ∈ [DefrostState.idle, .hung, .queued, .shed, .starting, .active, .stopping],
      atRest (yard (busy st)) ∧ stands (busy st) ∧ stands { busy st with occupancy := .departing }
      ∧ (bayAt (yard (busy st)) b12).hold = none ∧ (bayAt (yard (busy st)) b12).defrost.state = st
      ∧ noOrder (yard (busy st)) b12 ∧ ¬ startWaits (yard (busy st)) b12 ∧ ¬ onAStack (yard (busy st)) b12)
    ∧ startWaits (setOrders [⟨b12, .start false⟩] (yard (busy .starting))) b12
    ∧ onAStack (stacked [⟨b12, none⟩] (yard (busy .stopping))) b12 := by decide +kernel

theorem witness_MarkClearAndTestClear : stands (bayAt (yard parked) b12) ∧ mayMark .hold .service = true
    ∧ (bayAt (yard { parked with hold := some .office }) b12).hold = some .office ∧ Station.office ≠ .service
    ∧ mayMark .noDiesel .office = true ∧ (bayAt (yard parked) b12).noDiesel = false
    ∧ (bayAt (yard { parked with noDiesel := true }) b12).noDiesel = true := by decide +kernel

theorem witness_MarkRefusedInOrder : mayAsk .mark .gate = true ∧ noBay 0 ∧ noBay 41 ∧ 3 ≤ (3 : Byte).toNat
    ∧ 4 ≤ (4 : Byte).toNat ∧ mayMark .hold .gate = false ∧ mayMark .fuelOrdered .gate = true
    ∧ ¬ stands (bayAt State.reset b12) := by decide +kernel

theorem witness_DoorPermitStoresAndEnds :
    let s := yard { opened 300 with permit := 5 }
    stands (bayAt s b12) ∧ 0 < (bayAt s b12).permit ∧ timed s.run.state (bayAt s b12)
    ∧ s.run.settings.doorLimit ≤ (bayAt s b12).door.openSeconds ∧ (bayAt s b12).door.alertGiven = false
    ∧ number 0 0 = 0 ∧ number 0x01 0xE0 = 480 ∧ number 0x01 0xE1 = 481 ∧ ¬ stands (bayAt State.reset b12) ∧ noBay 41 := by
  decide +kernel

theorem witness_ClearFlagsEmpties : bayByte b12 = 12 ∧ 41 ≤ (41 : Byte).toNat ∧ (1 : FeederIx) ≠ 0 ∧ noFeeder 5 := by
  decide

theorem witness_SecondsTickCounts : (yard (opened 299)).run.second ≤ 59 ∧ timed .running (opened 299)
    ∧ ¬ timed .running parked ∧ secondRaises (yard (opened 299)) b12
    ∧ (yard (opened 299)).run.minutePhase ≠ .issued ∧ (issued (yard parked)).run.minutePhase = .issued
    ∧ { State.reset with run := { State.reset.run with second := 59, minutePhase := .early } }.run.second = 59
    ∧ State.reset.run.second < 59 ∧ State.reset.loop.nextRound = none
    ∧ ((after .secondsTick { yard parked with loop := { State.reset.loop with nextRound := some 2 } }).loop.nextRound
        = some 1) := by decide +kernel

theorem witness_MinuteTickCounts :
    minuteEnds 45 { (busy .active).defrost with elapsed := 44 } ∧ ¬ minuteEnds 45 { (busy .active).defrost with elapsed := 43 }
    ∧ minuteAlerts (yard { opened 300 with permit := 1 }) b12 ∧ noOrder (yard parked) b12
    ∧ fuelMinute .running { parked with snapshot := some { cool with source := .diesel } }
    ∧ minuteDue (issued (yard parked)) ∧ ¬ minuteDue (yard parked)
    ∧ minuteDue { State.reset with run := { State.reset.run with second := 59 } }
    ∧ ¬ minuteDue { State.reset with run := { State.reset.run with second := 59, minutePhase := .early } } := by
  decide +kernel

theorem witness_TimeoutAndHoldoffMoments :
    let s := { yard { busy .active with defrost := { (busy .active).defrost with elapsed := 45, holdoff := 1 } } with
      moments := [.timeout b12, .holdoffEnd b12] }
    .timeout b12 ∈ s.moments ∧ .holdoffEnd b12 ∈ s.moments ∧ .timeout b12 ∉ State.reset.moments
    ∧ .holdoffEnd b12 ∉ State.reset.moments ∧ (bayAt s b12).defrost.state = .active ∧ s.run.settings.tmax ≤ (bayAt s b12).defrost.elapsed ∧ noOrder s b12
    ∧ (bayAt s b12).defrost.holdoff = 1 ∧ (bayAt State.reset b12).defrost.holdoff ≠ 1
    ∧ (bayAt State.reset b12).defrost.state ≠ .active := by decide +kernel

theorem witness_DoorMomentsRaiseOnce : timed (yard (opened 300)).run.state (bayAt (yard (opened 300)) b12)
    ∧ (yard (opened 300)).run.settings.doorLimit ≤ (bayAt (yard (opened 300)) b12).door.openSeconds
    ∧ (bayAt (yard (opened 300)) b12).permit = 0 ∧ (bayAt (yard (opened 300)) b12).door.alertGiven = false
    ∧ .doorLimit b12 ∈ (opening (.doorLimit b12) (yard (opened 300))).moments
    ∧ .permitEnd b12 ∉ (opening (.doorLimit b12) (yard (opened 300))).moments
    ∧ ¬ timed State.reset.run.state (bayAt State.reset b12) := by decide +kernel

theorem witness_SilenceReleaseMergesBack : (alertAt (claimed 10).alert .office).silence = 10
    ∧ (alertAt (claimed 10).alert .office).stack ≠ [] ∧ (alertAt (claimed 9).alert .office).silence ≠ 10
    ∧ 9 ≤ (alertAt (claimed 9).alert .office).silence ∧ (alertAt (claimed 8).alert .office).silence < 9
    ∧ (alertAt (claimed 10).alert .gate).stack = [] ∧ minuteDue (issued (claimed 9))
    ∧ ∃ t, exec .minuteTick (issued (claimed 9)) = .next t := by
  refine ⟨by decide +kernel, by decide +kernel, by decide +kernel, by decide +kernel, by decide +kernel, by decide +kernel,
    by decide +kernel, _, rfl⟩

/-- The loop in the gap after a poll, bay 12 to be polled and a STOP of bay 19 waiting. -/
def gapped (run : RunState) (orders : List Order) (orderRun : Nat) (round : Option Nat) : State :=
  { yard parked with run := { State.reset.run with state := run },
                     loop := { State.reset.loop with exchange := some ⟨30, .poll, .gap 2, false⟩, orders := orders,
                                                     orderRun := orderRun, round := round } }

theorem witness_BeginRoundsStartsTheSchedule :
    let s := { yard parked with run := State.reset.run, loop := State.reset.loop }
    s.run.state = .setup ∧ s.loop.round = none ∧ nextToPoll s 0 b12 ∧ s.loop.exchange = none ∧ s.loop.orders = []
    ∧ (∀ b, ¬ isPolled State.reset b) ∧ (yard parked).run.state = .running
    ∧ (let held := after (.beginRounds .office []) { s with loop := (gapped .setup [] 0 none).loop }
       held.loop.exchange = some ⟨30, .poll, .gap 2, false⟩ ∧ held.loop.round = some 0)
    ∧ (after (.beginRounds .office []) { State.reset with loop := (gapped .setup [] 0 none).loop }).loop.round = none
    ∧ (setOrders [⟨18, .stop⟩] s).loop.orders = ⟨18, .stop⟩ :: []
    ∧ (after (.beginRounds .office []) (setOrders [⟨18, .stop⟩] s)).loop.round = some 0 := by decide +kernel

/-- The yard with bay 12 polled, one round count and one round, on a free loop. -/
def due (n : Nat) (round : Option Nat) (orders : List Order) : State :=
  { yard parked with loop := { State.reset.loop with nextRound := some n, round := round, orders := orders } }

theorem witness_RoundStartBeginsOrSkips :
    (due 0 none []).loop.nextRound = some 0 ∧ (due 1 none []).loop.nextRound = some 1
    ∧ (due 1 none []).run.minutePhase ≠ .issued ∧ State.reset.loop.nextRound ≠ some 0 ∧ nextToPoll (due 0 none []) 0 b12
    ∧ (due 0 none []).loop.exchange = none ∧ (due 0 none []).run.state = .running
    ∧ (waiting .poll (due 0 none [])).loop.exchange.isSome = true ∧ nothingAbove (due 0 (some 12) []) 12
    ∧ (∀ n ∈ [0, 1], ∀ i ∈ [Instr.secondsTick], (after i (due n none [])).loop.exchange = some ⟨b12, .poll, .sending, false⟩
        ∧ (catAt (after i (due n none [])).alert .link).pending = []
        ∧ (catAt (after i (due n (some 12) [])).alert .link).pending = [0]
        ∧ (catAt (after i (waiting .poll (due n (some 3) []))).alert .link).pending = [0])
    ∧ (after .roundStart (due 0 (some 12) [⟨18, .stop⟩])).loop.exchange = some ⟨18, .order .stop, .sending, false⟩
    ∧ (after .roundStart (waiting .poll { due 0 (some 3) [] with loop :=
        { (due 0 (some 3) []).loop with overruns := 65535 } })).loop.overruns = 65535 := by decide +kernel

theorem witness_HaltRoundsEndsAllBusiness :
    (∀ st ∈ [DefrostState.idle, .hung, .queued, .shed, .starting, .active, .stopping],
      atRest (yard (busy st)) ∧ (yard (busy st)).run.state = .running ∧ noOrder (yard (busy st)) b12
      ∧ (bayAt (yard { busy st with occupancy := .departing }) b12).occupancy = .departing
      ∧ (bayAt (yard (busy st)) b12).defrost.state = st
      ∧ ¬ startWaits (yard (busy st)) b12 ∧ ¬ onAStack (yard (busy st)) b12)
    ∧ startWaits (setOrders [⟨b12, .start false⟩] (yard (busy .starting))) b12
    ∧ onAStack (stacked [⟨b12, none⟩] (yard (busy .stopping))) b12 ∧ State.reset.run.state ≠ .running
    ∧ haltReady { State.reset with run := { State.reset.run with state := .halting } }
    ∧ ¬ haltReady (yard (busy .stopping)) := by decide +kernel

theorem witness_LoopPhasesFollowTheTable :
    hasPollLeft (gapped .running [] 4 (some 11)) b12 ∧ noPollLeft (gapped .running [⟨18, .stop⟩] 4 (some 12))
    ∧ noPollLeft (gapped .running [] 0 none)
    ∧ (gapped .running [⟨18, .stop⟩] 3 (some 0)).loop.orders = ⟨18, .stop⟩ :: []
    ∧ (gapped .halting [⟨18, .stop⟩] 0 none).run.state = .halting ∧ (gapped .setup [] 0 none).run.state = .setup
    ∧ (after .idleGapEnd (gapped .running [] 4 (some 11))).loop.exchange = some ⟨b12, .poll, .sending, false⟩ := by
  decide +kernel

/-- Bay 12 DEPARTING in some defrost state. -/
def leaving (st : DefrostState) : BayRecord := { busy st with occupancy := .departing }

theorem witness_AnsweredPollWritesTheRecord : awaits (waiting .poll (yard parked)) b12 .poll false
    ∧ endsWith ⟨b12, .poll, .awaiting, false⟩ (.telemetry cool) (telemetry cool)
    ∧ (bayAt (waiting .poll (yard parked)) b12).occupancy = .parked
    ∧ (∀ st ∈ [DefrostState.starting, .stopping, .hung],
        isPolled (yard (leaving st)) b12 ∧ ¬ endsByMode (leaving st) .cool ∧ ¬ startWaits (yard (leaving st)) b12
        ∧ ¬ moves (yard (leaving st)) b12 cool ∧ moves (yard (leaving st)) b12 { cool with source := .diesel }
        ∧ (∀ q ∈ (yard (leaving st)).arb.queue, q.bay ≠ b12) ∧ (leaving st).defrost.state ≠ .shed)
    ∧ endsByMode (leaving .active) .cool
    ∧ endsByMode { leaving .hung with defrost := { (leaving .hung).defrost with reason := some .depart } } .cool := by
  refine ⟨rfl, ends_telemetry, rfl, ?_⟩
  decide +kernel

theorem witness_FailedPollsAndVoidedExchanges : awaits (waiting .poll (yard parked)) b12 .poll false
    ∧ endsWith ⟨b12, .poll, .awaiting, false⟩ (.failed .noReply) .replyWindowClose
    ∧ endsWith ⟨b12, .poll, .awaiting, true⟩ (.failed .wrongReply) (.wrongKindByte 0x33)
    ∧ (endsAtOnce (yard { busy .shed with occupancy := .departing, missCount := 3 }) b12
        ∧ ¬ endsAtOnce (yard { busy .active with missCount := 3 }) b12)
    ∧ ((bayAt (yard { parked with missCount := 2 }) b12).missCount + 1 < (yard parked).run.settings.lossLimit
        ∧ (yard parked).run.settings.lossLimit ≤ (bayAt (yard { parked with missCount := 3 }) b12).missCount + 1
        ∧ (bayAt (yard { parked with link := .lost, missCount := 4 }) b12).link = .lost)
    ∧ awaits { yard parked with loop := { State.reset.loop with exchange := some ⟨b12, .poll, .awaiting, true⟩ } }
        b12 .poll true
    ∧ atRest (yard parked) ∧ (yard parked).run.state ≠ .halting := by
  exact ⟨rfl, ends_close _, ends_kind _, by decide +kernel, by decide +kernel, rfl, rfl, by decide⟩

theorem witness_SetSettingStores : 1 ≤ (1 : Byte).toNat ∧ (13 : Byte).toNat ≤ 13 ∧ (14 : Byte).toNat = 14
    ∧ (15 : Byte).toNat = 15 ∧ (0 : Byte).toNat = 0 ∧ 16 ≤ (16 : Byte).toNat ∧ (1 : Byte).toNat ≠ 2
    ∧ max 2 (min (number 0 4) 15) = State.reset.run.settings.lossLimit
    ∧ (∀ id ∈ (List.range 13).map fun n => BitVec.ofNat 8 (n + 1),
        ∀ v ∈ [lowest id - 1, lowest id, highest id, highest id + 1],
          (numbers (after (.setSetting .office (id :: two v)) State.reset).run.settings).getD (id.toNat - 1) 0
            = max (lowest id) (min v (highest id)))
    ∧ State.reset.run.settings.nesting ≠ (after (.setSetting .office [14, 0, 1]) State.reset).run.settings.nesting := by
  decide +kernel

theorem witness_ReadSettingReadsTheStore : (∃ t u, exec (.setSetting .office [2, 0, 20]) State.reset = .next t
    ∧ exec (.readSetting .gate [2]) t = .next u) ∧ (14 : Byte).toNat = 14 ∧ 16 ≤ (16 : Byte).toNat :=
  ⟨⟨_, _, rfl, rfl⟩, rfl, by decide⟩

theorem witness_LossLimitChange : max 2 (min (number 0 3) 15) ≠ State.reset.run.settings.lossLimit
    ∧ (bayAt (yard { parked with missCount := 3 }) b12).link ≠ .lost
    ∧ (bayAt (yard { parked with missCount := 3 }) b12).missCount = 3
    ∧ (bayAt (yard { parked with missCount := 2 }) b12).missCount < 3
    ∧ (bayAt (yard { parked with link := .lost, missCount := 4 }) b12).link = .lost
    ∧ endsAtOnce (yard { busy .queued with occupancy := .departing, missCount := 3 }) b12
    ∧ ¬ endsAtOnce (yard (busy .active)) b12
    ∧ (∀ st ∈ [DefrostState.active, .starting, .stopping, .hung],
        let s := { yard { busy st with missCount := 3 } with
          arb := { State.reset.arb with active := if st = .active ∨ st = .starting then [b12] else [] } }
        atRest s ∧ Safety.CollectionLaw s ∧ (bayAt s b12).link ≠ .lost ∧ (bayAt s b12).missCount = 3
        ∧ (bayAt (after (.setSetting .office [2, 0, 3]) s) b12).defrost.reason
            = if st = .hung then none else some .link) := by decide +kernel

theorem witness_CheckConditionsAndRaise : checkedBy (waiting .poll (yard parked)) b12 cool (telemetry cool)
    ∧ Safety.SettingsInRange (waiting .poll (yard parked)).run.settings
    ∧ Safety.FrostInRange (bayAt (waiting .poll (yard parked)) b12).frost
    ∧ (bayAt (waiting .poll (yard parked)) b12).capacity ≤ 600
    ∧ (bayAt (waiting .poll (yard parked)) b12).fuel.vref.getD 0 ≤ 6000
    ∧ frostAtCheck { busy .active with frost := ⟨some 70, some 41, 3, 60000⟩ } .cool = ⟨some 70, none, 0, 0⟩ :=
  ⟨checked parked rfl, by decide, by decide +kernel, by decide +kernel, by decide +kernel, by decide +kernel⟩

theorem witness_FrostStageOfACheck : checkedBy (waiting .poll (yard parked)) b12 cool (telemetry cool)
    ∧ Safety.SettingsInRange (waiting .poll (yard parked)).run.settings
    ∧ Safety.FrostInRange (bayAt (waiting .poll (yard parked)) b12).frost
    ∧ (let polled := fun n => after (telemetry cool) (waiting .poll (yard { parked with frost := ⟨some 500, some 41, 3, n⟩ }))
       (bayAt (polled 59999) b12).frost.f = 60000 ∧ (catAt (polled 59999).alert .frost).pending = [12]
       ∧ (bayAt (polled 60000) b12).frost.f = 60000 ∧ (catAt (polled 60000).alert .frost).pending = [])
    ∧ endRaisesFrost (busy .active) .fault ∧ ¬ endRaisesFrost (busy .active) .cool :=
  ⟨checked parked rfl, by decide, by decide +kernel, by decide +kernel, by decide +kernel, by decide +kernel⟩

theorem witness_FuelStageOfACheck : checkedBy (waiting .poll (yard parked)) b12 cool (telemetry cool)
    ∧ (bayAt (waiting .poll (yard parked)) b12).capacity ≤ 600
    ∧ (bayAt (waiting .poll (yard parked)) b12).fuel.vref.getD 0 ≤ 6000
    ∧ (let fuel := fun x w => (bayAt (after (telemetry cool) (waiting .poll (yard
          { parked with fuel := { BayRecord.empty.fuel with vref := some x, w := w } }))) b12).fuel
       (fuel 805 10).refuels = 1 ∧ (fuel 806 10).refuels = 0 ∧ (fuel 875 10).r = 120 ∧ (fuel 875 9).r = 0
       ∧ (fuel 874 10).r = 0) :=
  ⟨checked parked rfl, by decide +kernel, by decide +kernel, by decide +kernel⟩

/-- Bay 12 in some defrost state on feeder 2, its door not yet known. -/
def unseen (st : DefrostState) : BayRecord := { busy st with door := BayRecord.empty.door }

/-- A poll of a unit in DEFROST with its door open. -/
def ajar : Snapshot := { cool with mode := .defrost, door := .opened }

theorem witness_DoorStageOfACheck :
    (∀ st ∈ [DefrostState.idle, .hung, .queued, .shed, .starting, .active, .stopping],
      checkedBy (waiting .poll (yard (unseen st))) b12 ajar (telemetry ajar)
      ∧ atRest (waiting .poll (yard (unseen st))) ∧ ¬ moves (waiting .poll (yard (unseen st))) b12 ajar
      ∧ episodeGoesOn (unseen st) ajar.mode ∧ (bayAt (waiting .poll (yard (unseen st))) b12).defrost.state = st
      ∧ (bayAt (waiting .poll (yard (unseen st))) b12).door.confirmed ≠ .opened)
    ∧ (bayAt (after (telemetry ajar) (waiting .poll (yard (unseen .shed)))) b12).defrost.outcome = some .abortedDoor := by
  refine ⟨?_, by decide +kernel⟩
  intro st h
  refine ⟨⟨rfl, ends_poll _ (by decide +kernel) (by decide +kernel), .inr rfl, rfl⟩, ?_⟩
  revert st
  decide +kernel

theorem witness_DivideSaturatesAtTheHighHalf : (65535 : Nat) < 65536 ∧ (⟨5, 32320⟩ : Acc).hi < 65536
    ∧ 5 ≤ (⟨5, 32320⟩ : Acc).hi ∧ ¬ 6 ≤ (⟨5, 32320⟩ : Acc).hi ∧ (⟨5, 32320⟩ : Acc).lo < 65536 := by decide

theorem witness_DemandsJoinTheQueue : mayDefrost (yard parked) b12 ∧ inNoCollection (yard parked) b12
    ∧ ¬ mayDefrost State.reset b12 ∧ noBay 0
    ∧ checkedBy (waiting .poll (yard { parked with frost := ⟨none, none, 0, 45000⟩ })) b12 cool (telemetry cool)
    ∧ (bayAt (waiting .poll (yard parked)) b12).defrost.state = .idle ∧ inNoCollection (waiting .poll (yard parked)) b12
    ∧ (bayAt (yard parked) b12).defrost.holdoff = 0 ∧ (bayAt (yard parked) b12).hold = none
    ∧ 45000 ≤ (bayAt (after (telemetry cool) (waiting .poll (yard { parked with frost := ⟨none, none, 0, 45000⟩ })))
        b12).frost.f :=
  ⟨by decide +kernel, by decide +kernel, by decide +kernel, by decide, checked _ rfl, by decide +kernel, by decide +kernel,
    by decide +kernel, by decide +kernel, by decide +kernel⟩

theorem witness_WithdrawAndForceRelease :
    (∀ st ∈ [DefrostState.idle, .hung, .queued, .shed, .starting, .active, .stopping],
      atRest (yard (busy st)) ∧ (bayAt (yard (busy st)) b12).occupancy ≠ .departing
      ∧ (bayAt (yard (busy st)) b12).defrost.state = st ∧ ¬ startWaits (yard (busy st)) b12
      ∧ noOrder (yard (busy st)) b12)
    ∧ startWaits (setOrders [⟨b12, .start true⟩] (yard (busy .starting))) b12
    ∧ (bayAt (yard { busy .hung with occupancy := .departing }) b12).occupancy = .departing
    ∧ (busy .hung).defrost.charge = .feeder 1 ∧ noBay 41 := by decide +kernel

theorem witness_BudgetsStored : noFeeder 0 ∧ noFeeder 5 ∧ (1 : FeederIx) ≠ 0 ∧ number 0 250 = 250
    ∧ min (number 0 0) 250 = (feederAt State.reset 1).budget
    ∧ min (number 0 251) 250 ≠ (feederAt State.reset 1).budget
    ∧ (feederAt (after (.feederBudgetSingle .feeder [2, 0, 251]) State.reset) 1).budget = 250
    ∧ replyOf .feeder (after (.feederBudgetSingle .feeder [2, 0, 251]) State.reset) = ⟨.clamped, []⟩
    ∧ (feederAt (after (.feederBudgetAll .feeder [0, 0, 0, 1, 0, 0, 0, 0]) State.reset) 1).budget
        ≠ (feederAt State.reset 1).budget
    ∧ ∀ f, (feederAt (after (.feederBudgetAll .feeder [0, 0, 0, 0, 0, 0, 0, 0]) State.reset) f).budget
        = (feederAt State.reset f).budget := by decide +kernel

/-- Bays 5 and 12 ACTIVE on feeder 2, granted in that order, under a budget. -/
def pair (budget : Nat) : State :=
  { yard (busy .active) with
    bays := (State.reset.bays.set 11 (busy .active)).set 4 { busy .active with ident := none },
    arb := { State.reset.arb with active := [4, 11], feeders := State.reset.arb.feeders.set 1 ⟨budget, [], false, false⟩ } }

theorem witness_ShedWalkTakesNewestFirst : (∀ b, admittedOn (pair 8) 1 b → b ∈ (pair 8).arb.active)
    ∧ (pair 8).arb.active.Nodup ∧ (pair 8).arb.active = [] ++ 4 :: [b12] ∧ admittedOn (pair 8) 1 4
    ∧ ¬ admittedOn (shedWalk 1 (pair 8)) 1 4 ∧ admittedOn (shedWalk 1 (pair 16)) 1 4
    ∧ admitted (pair 32) 1 ≤ (feederAt (pair 32) 1).budget ∧ ¬ admittedOn (pair 8) 1 0 := by decide +kernel

/-- A STOPPING bay 12 with its STOP on the loop. -/
def stopped (occ : Occupancy) (reason : StopReason) (stack : List ShedEntry) : State :=
  stacked stack (waiting (.order .stop) (yard { busy .stopping with
    occupancy := occ, defrost := { (busy .stopping).defrost with reason := some reason } }))

/-- Bays 5 and 12 QUEUED on feeder 2 behind bay 30, SHED on feeder 2, under a budget. -/
def crowd (budget passOver : Nat) (stack : List ShedEntry) : State :=
  { yard (busy .queued) with
    bays := ((State.reset.bays.set 11 (busy .queued)).set 4 (busy .queued)).set 29 (busy .shed),
    arb := { State.reset.arb with queue := [⟨4, .manual, 0, passOver⟩, ⟨11, .manual, 0, 0⟩],
                                  feeders := State.reset.arb.feeders.set 1 ⟨budget, stack, false, false⟩ } }

theorem witness_GrantPassKeepsBudgetsAndOrder : ((crowd 8 4 []).arb.queue.map fun q => q.bay).Nodup
    ∧ (∀ q ∈ (crowd 8 4 []).arb.queue, (bayAt (crowd 8 4 []) q.bay).defrost.state = .queued)
    ∧ (∀ f, ∀ e ∈ (feederAt (crowd 40 0 [⟨29, none⟩]) f).stack,
        (bayAt (crowd 40 0 [⟨29, none⟩]) e.bay).defrost.charge = .feeder f)
    ∧ (grantPass (crowd 8 4 [])).arb.queue.map (fun q => q.bay) = [4, 11]
    ∧ (grantPass (crowd 40 0 [⟨29, none⟩])).arb.queue.map (fun q => q.bay) = [11]
    ∧ (feederAt (grantPass (crowd 40 0 [⟨29, none⟩])) 1).stack = []
    ∧ chargeNow (bayAt (crowd 8 4 []) 4) = .feeder 1 ∧ chargeNow (bayAt (crowd 8 4 []) 11) = .feeder 1
    ∧ chargeNow BayRecord.empty = .none
    ∧ chargeNow { parked with snapshot := some { cool with source := .diesel } } = .self
    ∧ (feederAt (grantPass (crowd 8 0 [⟨29, none⟩])) 1).stack = [⟨29, none⟩]
    ∧ reachesFit (grantPass { crowd 8 0 [] with arb := { (crowd 8 0 []).arb with queue := [] } }) 1
    ∧ ¬ reachesFit (grantPass { crowd 8 3 [] with arb := { (crowd 8 3 []).arb with queue := [⟨4, .manual, 0, 3⟩] } }) 1
    ∧ endFreesRoom (yard (busy .hung)) b12
    ∧ startWaits (setOrders [⟨b12, .start false⟩] (yard (busy .starting))) b12
    ∧ ¬ onAStack (yard (busy .stopping)) b12
    ∧ (let s := yard (busy .queued)
       (bayAt s b12).defrost.state = .queued
       ∧ ∃ x ∈ (bayAt s b12).snapshot, x.source ≠ ({ cool with source := .diesel } : Snapshot).source)
    ∧ (bayAt (stopped .parked .shed [⟨b12, none⟩]) b12).defrost.reason = some .shed
    ∧ onAStack (stopped .parked .shed [⟨b12, none⟩]) b12
    ∧ ((bayAt (stopped .departing .depart []) b12).occupancy = .departing
      ∧ (bayAt (stopped .departing .depart []) b12).defrost.charge = .feeder 1)
    ∧ (bayAt (yard (busy .hung)) b12).defrost.charge = .feeder 1 ∧ { parked with noDiesel := true }.noDiesel = true
    ∧ awaits (stopped .parked .shed [⟨b12, none⟩]) b12 (.order .stop) false
    ∧ endsWith ⟨b12, .order .stop, .awaiting, false⟩ (.failed .noReply) .replyWindowClose := by
  refine ⟨?_, ?_, ?_, ?_, ?_, ?_, ?_, ?_, ?_, ?_, ?_, ?_, ?_, ?_, ?_, ?_, ?_, ?_, ?_, ?_, ?_, ?_, rfl, ends_close _⟩
  all_goals decide +kernel

/-- A STARTING bay 12 with its START on the loop. -/
def started (reason : Option StopReason) (shedPending : Bool) (stack : List ShedEntry) : State :=
  stacked stack (waiting (.order (.start false)) (yard { busy .starting with
    defrost := { (busy .starting).defrost with reason := reason, shedPending := shedPending } }))

theorem witness_StartOrderOutcomes : awaits (started none false []) b12 (.order (.start false)) false
    ∧ (∀ r ∈ [AckResult.taken, .refusedWarm, .refusedDoor, .refusedFault],
        endsWith ⟨b12, .order (.start false), .awaiting, false⟩ (.ack r) (ack r))
    ∧ endsWith ⟨b12, .order (.start false), .awaiting, false⟩ (.failed .noReply) .replyWindowClose
    ∧ (bayAt (started none false []) b12).defrost.state = .starting ∧ atRest (started none false [])
    ∧ (bayAt (started none false []) b12).defrost.reason = none ∧ noOrder (started none false []) b12
    ∧ (bayAt (started (some .hold) false []) b12).defrost.reason = some .hold
    ∧ (bayAt (started none true []) b12).defrost.shedPending = true
    ∧ (bayAt (started none true []) b12).defrost.charge = .feeder 1
    ∧ (feederAt (started none true (List.replicate 7 ⟨4, none⟩)) 1).stack.length < 8
    ∧ 8 ≤ (feederAt (started none true (List.replicate 8 ⟨4, none⟩)) 1).stack.length
    ∧ (bayAt (started none false []) b12).occupancy ≠ .departing
    ∧ (let s := waiting (.order (.start false)) (yard (leaving .starting))
       (bayAt s b12).occupancy = .departing ∧ (bayAt s b12).defrost.state = .starting
       ∧ (bayAt (after (ack .refusedWarm) s) b12).occupancy = .vacant) := by
  refine ⟨rfl, ?_, ends_close _, ?_⟩
  · intro r h
    simp only [List.mem_cons, List.not_mem_nil, or_false] at h
    rcases h with rfl | rfl | rfl | rfl <;> exact ends_ack _ _ (by decide +kernel) (by decide +kernel)
  · decide +kernel

theorem witness_StopOrderOutcomes : awaits (stopped .parked .timeout []) b12 (.order .stop) false
    ∧ endsWith ⟨b12, .order .stop, .awaiting, false⟩ (.ack .stopped) (ack .stopped)
    ∧ endsWith ⟨b12, .order .stop, .awaiting, false⟩ (.failed .noReply) .replyWindowClose
    ∧ (bayAt (stopped .parked .timeout []) b12).defrost.state = .stopping
    ∧ (∀ q ∈ (stopped .parked .timeout []).arb.queue, q.bay ≠ b12)
    ∧ (bayAt (stopped .parked .timeout []) b12).defrost.reason = some .timeout
    ∧ outcomeFor .timeout = some .timedOut ∧ (bayAt (stopped .departing .depart []) b12).occupancy = .departing
    ∧ (bayAt (stopped .parked .shed [⟨b12, none⟩]) b12).defrost.reason = some .shed
    ∧ onAStack (stopped .parked .shed [⟨b12, some .door⟩]) b12
    ∧ (∀ f, ∀ e ∈ (feederAt (stopped .parked .shed [⟨b12, some .door⟩]) f).stack, e.bay = b12 → e.ended = some .door)
    ∧ (∀ f, ∀ e ∈ (feederAt (stopped .parked .shed [⟨b12, none⟩]) f).stack, e.bay = b12 → e.ended = none)
    ∧ (let s := stopped .departing .shed [⟨b12, some .depart⟩]
       onAStack s b12 ∧ (∀ f, ∀ e ∈ (feederAt s f).stack, e.bay = b12 → e.ended = some .depart)
       ∧ (bayAt (after (ack .stopped) s) b12).occupancy = .vacant) := by
  refine ⟨rfl, ends_ack _ _ (by decide +kernel) (by decide +kernel), ends_close _, ?_⟩
  decide +kernel

/-- Bay 12 with a defrost charged to SELF. -/
def selfCharged (st : DefrostState) : BayRecord :=
  { busy st with defrost := { (busy st).defrost with charge := .self } }

theorem witness_PollModeEndsEpisodes :
    (∀ m ∈ [Mode.off, .cool, .heat, .fault, .defrost], endsWith ⟨b12, .poll, .awaiting, false⟩
      (.telemetry { cool with mode := m }) (telemetry { cool with mode := m }))
    ∧ awaits (waiting .poll (yard (busy .active))) b12 .poll false
    ∧ (isPolled (yard (leaving .active)) b12 ∧ endsByMode (leaving .active) .fault
      ∧ ¬ endsByMode (leaving .active) .defrost
      ∧ (let s := stacked (List.replicate 8 ⟨4, none⟩) (setOrders [⟨b12, .start false⟩]
          (yard { selfCharged .starting with occupancy := .departing }))
         moves s b12 cool ∧ startWaits s b12 ∧ episodeGoesOn (bayAt s b12) .cool)
      ∧ (let s := setOrders [⟨b12, .start false⟩] (yard (selfCharged .starting))
         startWaits s b12 ∧ ¬ onAStack s b12 ∧ moves s b12 cool ∧ (feederAt s 1).stack.length < 8
         ∧ ¬ committed s 1 + 16 ≤ (feederAt s 1).budget
         ∧ (bayAt (after (telemetry cool) (waiting .poll s)) b12).defrost.state = .shed))
    ∧ (bayAt (waiting .poll (yard (busy .active))) b12).occupancy = .parked
    ∧ (bayAt (waiting .poll (yard (busy .active))) b12).defrost.state = .active
    ∧ (bayAt (stopped .parked .hold []) b12).defrost.reason = some .hold ∧ outcomeFor .hold = some .abortedHold
    ∧ (bayAt (waiting .poll (yard { busy .hung with defrost := { (busy .hung).defrost with reason := some .hold } }))
        b12).defrost.reason = some .hold
    ∧ (∀ q ∈ (waiting .poll (yard (busy .hung))).arb.queue, q.bay ≠ b12)
    ∧ (∀ st ∈ [DefrostState.starting, .active, .hung, .stopping], episodeGoesOn (busy st) .defrost
      ∧ moves (yard (busy st)) b12 { cool with mode := .defrost, source := .diesel }
      ∧ moves (yard (selfCharged st)) b12 { cool with mode := .defrost })
    ∧ ¬ moves (yard (busy .active)) b12 { cool with mode := .defrost } ∧ (selfCharged .active).feeder = some 1
    ∧ committed (stacked [] (yard (selfCharged .active))) 1 + 16 ≤ (feederAt (stacked [] (yard parked)) 1).budget
    ∧ ¬ committed (yard (selfCharged .active)) 1 + 16 ≤ (feederAt (yard (selfCharged .active)) 1).budget
    ∧ 8 ≤ (feederAt (stacked (List.replicate 8 ⟨4, none⟩) (yard (selfCharged .active))) 1).stack.length := by
  refine ⟨?_, rfl, by decide +kernel, ?_⟩
  · intro m h
    simp only [List.mem_cons, List.not_mem_nil, or_false] at h
    rcases h with rfl | rfl | rfl | rfl | rfl <;> exact ends_poll _ (by decide +kernel) (by decide +kernel)
  · decide +kernel

theorem witness_TakeReleaseAndMask :
    (∀ c ∈ allCategories, eligible .nested State.reset.alert .office c = false)
    ∧ eligible .nested (claimed 0).alert .service .check = false
    ∧ (let u := setCat .door ⟨true, [14]⟩ State.reset.alert
       eligible .nested u .service .door = true ∧ (catAt u .door).pending.Pairwise (· < ·)
       ∧ ∀ d ∈ allCategories, eligible .nested u .service d = true → numberOf .door ≤ numberOf d)
    ∧ (alertAt (claimed 0).alert .office).stack = ⟨.door, [3]⟩ :: [⟨.check, [27]⟩]
    ∧ ((alertAt (claimed 0).alert .office).stack.head?.map fun e => e.category) ≠ some .check
    ∧ (0 : Byte).toNat = 0 ∧ 7 ≤ (7 : Byte).toNat ∧ (63 : Byte).toNat < 64 ∧ 64 ≤ (64 : Byte).toNat := by decide +kernel

theorem witness_StepKeepsRecordLaws :
    let s := { yard parked with pending := [telemetry cool] }
    Safety.RangesLaw s ∧ Safety.IdentLaw s ∧ Safety.MissLaw s ∧ BuffersFit s ∧ ∃ t, step s = .next t := by
  refine ⟨by decide +kernel, by decide +kernel, by decide +kernel, ⟨by decide +kernel, by decide +kernel, ?_⟩, _, rfl⟩
  intro st
  cases st <;> decide +kernel

theorem witness_StepKeepsAlertAndLoopLaws :
    let s := { claimed 0 with pending := [.releaseAlert .office [2]] }
    Safety.AlertLaw s.alert ∧ Safety.LineLaw s ∧ Safety.LoopLaw s ∧ ∃ t, step s = .next t :=
  ⟨by decide +kernel, by decide +kernel, by decide +kernel, _, rfl⟩

theorem witness_StepKeepsBudgets :
    let s := { pair 32 with pending := [.feederBudgetSingle .feeder [2, 0, 8]] }
    BudgetInv s ∧ Safety.RestLaw s ∧ ∃ t, step s = .next t := by
  refine ⟨⟨?_, ?_, ?_, ?_, ?_, ?_, ?_, ?_, ?_⟩, by decide, _, rfl⟩ <;> decide +kernel

end Sys2Proof.Tests
end

section
/-! The bay table's SET BAY DATA (R11), with the layers it rests on: the taking of a request, what a grant pass leaves of a
bay's record, and the end of a change. -/

namespace Sys2Proof.Machine

open Sys2Proof.Claims

/-! ## Request bytes and clamped values -/

/-- A bay's own byte names it (R172). -/
@[simp] theorem bayOfByte_bayByte (b : Bay) : bayOfByte (bayByte b) = some b := by
  have hn : (bayByte b).toNat = b.val + 1 := by
    simp only [bayByte, BitVec.toNat_ofNat]
    omega
  have hr : 1 ≤ b.val + 1 ∧ b.val + 1 ≤ 40 := by omega
  simp [bayOfByte, hn, hr]

theorem bayOfByte_eq_none {x : Byte} (h : noBay x) : bayOfByte x = none := by
  have hx : ¬ (1 ≤ x.toNat ∧ x.toNat ≤ 40) := by omega
  simp [bayOfByte, hx]

theorem feederFieldOfByte_of_le {f : Byte} (hf : f.toNat ≤ 4) :
    feederFieldOfByte f
      = some (if h : 1 ≤ f.toNat ∧ f.toNat ≤ 4 then some ⟨f.toNat - 1, by omega⟩ else none) := by
  unfold feederFieldOfByte feederOfByte
  split
  · next h0 => simp [h0]
  · next h0 =>
    have hr : 1 ≤ f.toNat ∧ f.toNat ≤ 4 := by omega
    simp [hr]

theorem feederFieldOfByte_eq_none {f : Byte} (h : 5 ≤ f.toNat) : feederFieldOfByte f = none := by
  have h0 : f.toNat ≠ 0 := by omega
  have hf : ¬ (1 ≤ f.toNat ∧ f.toNat ≤ 4) := by omega
  simp [feederFieldOfByte, feederOfByte, h0, hf]

/-- A value kept within a range is clamped exactly when it is changed. -/
theorem clampWithin_snd (lo hi v : Nat) : (clampWithin lo hi v).2 = decide ((clampWithin lo hi v).1 ≠ v) := by
  unfold clampWithin
  split
  · next k => simpa using by omega
  · split
    · simp
    · next k => simpa using by omega

@[simp] theorem storedCapacity_fst (v : Nat) : (storedCapacity v).1 = tank v := by
  simp only [storedCapacity, clampWithin, tank, apply_ite Prod.fst]

theorem storedCapacity_snd (v : Nat) : (storedCapacity v).2 = decide (tank v ≠ v) := by
  rw [← storedCapacity_fst]
  unfold storedCapacity
  split
  · next h => simp [h]
  · exact clampWithin_snd 20 600 v

@[simp] theorem storedDraw_fst (v : Nat) : (storedDraw v).1 = drawOf v := by
  simp only [storedDraw, clampWithin, drawOf, apply_ite Prod.fst]

theorem storedDraw_snd (v : Nat) : (storedDraw v).2 = decide (drawOf v ≠ v) := by
  rw [← storedDraw_fst]
  exact clampWithin_snd 4 40 v

/-- DONE, or CLAMPED where a value was clamped (R168). -/
theorem doneOr_eq (x : Bool) (p : Prop) [Decidable p] (h : x = decide p) : doneOr x = ⟨doneUnless p, []⟩ := by
  subst h
  simp [doneOr, plain, doneUnless]

/-! ## Taking a request -/

/-- A request that passes the four checks of R168 is answered by its owning block. -/
theorem takeRequest_of_permitted {st : Station} {k : RequestKind} {args : List Byte} (hp : permitted k st = true)
    (hn : args.length = argCount k) (owner : State → Reply × State) (s : State) :
    takeRequest st k args owner s = writeReply st (owner (taking st s)).1 (owner (taking st s)).2 := by
  have hmax : argCount k ≤ 31 := by cases k <;> decide
  rcases takeRequest_cases st k args owner s with ⟨hl, -⟩ | ⟨-, hr, -⟩ | ⟨-, -, hl, -⟩ | ⟨-, -, h⟩
  · omega
  · rw [hp] at hr; contradiction
  · exact absurd hn hl
  · exact h

/-- Only DONE carries data, so a reply without data is held as it is (R168). -/
@[simp] theorem heldReply_plain (c : ResultCode) : heldReply ⟨c, []⟩ = ⟨c, []⟩ := by
  cases c <;> rfl

/-- A station's buffer holds the reply written into it (R165). -/
theorem slotAt_writeReply_plain (st : Station) (c : ResultCode) (s : State) :
    slotAt (writeReply st ⟨c, []⟩ s) st = ⟨false, ⟨c, []⟩⟩ := by
  rw [writeReply, slotAt_setSlot_same, heldReply_plain]

/-- The buffer of a station told a reply holds it. -/
@[simp] theorem slotAt_told (st : Station) (c : ResultCode) (data : List Byte) (s : State) :
    slotAt (told st c data s) st = ⟨false, ⟨c, data⟩⟩ := by
  simp [slotAt, told]

/-- A request answered without data, nothing else having changed. -/
theorem writeReply_taking (st : Station) (c : ResultCode) (s : State) :
    writeReply st ⟨c, []⟩ (taking st s) = told st c [] s := by
  simp [writeReply, setSlot, taking, told]

/-- The same where the request has written one bay record. -/
theorem writeReply_withBayRecord_taking (st : Station) (c : ResultCode) (b : Bay) (r : BayRecord) (s : State) :
    writeReply st ⟨c, []⟩ (withBayRecord b r (taking st s)) = told st c [] (withBayRecord b r s) :=
  congrArg (withBayRecord b r) (writeReply_taking st c s)

/-! ## What a grant pass leaves of the records -/

/-- No change but in defrost records: the run controller and all else of every bay record stay. -/
structure DefrostsOnly (s t : State) : Prop where
  run : t.run = s.run
  record : ∀ b, bayAt t b = { bayAt s b with defrost := (bayAt t b).defrost }

theorem DefrostsOnly.of_eq {s t : State} (hr : t.run = s.run) (hb : t.bays = s.bays) : DefrostsOnly s t :=
  ⟨hr, fun b => by rw [bayAt_congr hb]⟩

theorem DefrostsOnly.refl (s : State) : DefrostsOnly s s := .of_eq rfl rfl

theorem DefrostsOnly.trans {s t u : State} (h : DefrostsOnly s t) (k : DefrostsOnly t u) : DefrostsOnly s u :=
  ⟨k.run.trans h.run, fun b => by rw [k.record b, h.record b]⟩

theorem DefrostsOnly.foldl {α : Type} {g : State → α → State} (h : ∀ s a, DefrostsOnly s (g s a)) (l : List α)
    (s : State) : DefrostsOnly s (l.foldl g s) := by
  induction l generalizing s with
  | nil => exact .refl s
  | cons a l ih => exact (h s a).trans (ih (g s a))

theorem modDefrost_defrostsOnly (b : Bay) (g : Defrost → Defrost) (s : State) : DefrostsOnly s (modDefrost b g s) := by
  refine ⟨rfl, fun c => ?_⟩
  rw [bayAt_modDefrost]
  split
  · next h => rw [h]
  · rfl

theorem DefrostsOnly.placed {b c : Bay} {resume : Bool} {s t : State} (h : DefrostsOnly s t) :
    DefrostsOnly s (placeStart b resume (joinActive c t)) := h.trans (.of_eq rfl rfl)

theorem grant_defrostsOnly (b : Bay) (c : Charge) (s : State) : DefrostsOnly s (grant b c s) :=
  (modDefrost_defrostsOnly b _ s).placed

theorem resumeTop_defrostsOnly (f : FeederIx) (b : Bay) (rest : List ShedEntry) (s : State) :
    DefrostsOnly s (resumeTop f b rest s) :=
  (DefrostsOnly.of_eq (setFeeder_run f _ s) (setFeeder_bays f _ s)).trans
    (modDefrost_defrostsOnly b _ _).placed

theorem resumeFeeder_defrostsOnly (f : FeederIx) (n : Nat) (s : State) : DefrostsOnly s (resumeFeeder f n s) := by
  induction n generalizing s with
  | zero => exact .refl s
  | succ n ih =>
    rcases resumeFeeder_succ f n s with h | ⟨top, rest, -, -, -, h⟩ <;> rw [h]
    · exact .refl s
    · exact (resumeTop_defrostsOnly f top.bay rest s).trans (ih _)

theorem walkEntry_defrostsOnly (w : QueueWalk) (q : QueueEntry) : DefrostsOnly w.state (walkEntry w q).state := by
  rcases walkEntry_cases w q with h | ⟨f, -, -, -, -, h⟩ | ⟨-, -, h⟩ | ⟨f, -, -, -, -, h⟩ <;> rw [h]
  · exact .refl _
  · exact .refl _
  · exact grant_defrostsOnly q.bay _ _
  · exact grant_defrostsOnly q.bay _ _

theorem walkQueue_defrostsOnly (l : List QueueEntry) (w : QueueWalk) :
    DefrostsOnly w.state (l.foldl walkEntry w).state := by
  induction l generalizing w with
  | nil => exact .refl _
  | cons q l ih => exact (walkEntry_defrostsOnly w q).trans (ih _)

theorem grantQueue_defrostsOnly (s : State) : DefrostsOnly s (grantQueue s) :=
  (walkQueue_defrostsOnly s.arb.queue ⟨s, [], []⟩).trans (.of_eq rfl rfl)

theorem grantPass_defrostsOnly (s : State) : DefrostsOnly s (grantPass s) :=
  (DefrostsOnly.foldl (fun s f => resumeFeeder_defrostsOnly f _ s) allFeeders s).trans (grantQueue_defrostsOnly _)

theorem runPass_defrostsOnly (s : State) : DefrostsOnly s (runPass s) := by
  have h0 : DefrostsOnly s { s with passDue := false } := .of_eq rfl rfl
  rcases runPass_cases s with ⟨-, h⟩ | ⟨-, -, h⟩ | ⟨-, -, h⟩ <;> rw [h]
  · exact .refl s
  · exact h0.trans (grantPass_defrostsOnly _)
  · exact h0

/-! ## The end of a change -/

@[simp] theorem endRound_arb (s : State) : (endRound s).arb = s.arb := by
  rcases endRound_cases s with h | ⟨_, -, -, -, h⟩ <;> rw [h]

@[simp] theorem endRound_run (s : State) : (endRound s).run = s.run := by
  rcases endRound_cases s with h | ⟨_, -, -, -, h⟩ <;> rw [h]

@[simp] theorem haltTest_arb (s : State) : (haltTest s).arb = s.arb := by
  rcases haltTest_cases s with h | ⟨-, -, h⟩ <;> rw [h]
  exact mapBays_arb _ _

/-- After the pass the end of a change leaves the arbiter as it is (R43, R52, R25). -/
theorem settle_arb (s : State) : (settle s).arb = (runPass s).arb := by
  simp [settle]

/-- After the pass the end of a change leaves the bay records as they are, unless HALTED is entered: then every door watch
loses its knowledge (R107). -/
theorem settle_records (s : State) :
    (∀ b, bayAt (settle s) b = bayAt (runPass s) b)
      ∨ (s.run.state = .halting ∧ ∀ b, bayAt (settle s) b = loseDoorOf (bayAt (runPass s) b)) := by
  have hb : (serveLoop (endRound (runPass s))).bays = (runPass s).bays := by simp
  have hr : (serveLoop (endRound (runPass s))).run = s.run := by simp [(runPass_defrostsOnly s).run]
  rcases haltTest_cases (serveLoop (endRound (runPass s))) with h | ⟨hs, -, h⟩
  · exact .inl fun b => by rw [settle, h, bayAt_congr hb]
  · refine .inr ⟨by rw [← hr]; exact hs, fun b => ?_⟩
    rw [settle, h, bayAt_mapBays]
    exact congrArg loseDoorOf (bayAt_congr hb b)

/-- Two records hold the same bay data. -/
def SameBayData (r q : BayRecord) : Prop := r.capacity = q.capacity ∧ r.feeder = q.feeder ∧ r.draw = q.draw

/-- The end of a change leaves the bay data of every bay (R11). -/
theorem settle_bayData (s : State) (b : Bay) : SameBayData (bayAt (settle s) b) (bayAt s b) := by
  have hp := (runPass_defrostsOnly s).record b
  rcases settle_records s with h | ⟨-, h⟩ <;> rw [h b, hp] <;> exact ⟨rfl, rfl, rfl⟩

/-- `settled` is about arbiter and bay records alone. -/
theorem settled_congr {w t u : State} (ha : u.arb = t.arb) (hb : u.bays = t.bays) (h : settled w t) : settled w u := by
  unfold settled at h ⊢
  simpa only [ha, bayAt_congr hb] using h

/-- The end of a change makes the pass owed in RUNNING and forgets it elsewhere (R120). -/
theorem settled_settle (s : State) : settled s (settle s) := by
  refine ⟨fun hd hr => ?_, fun hn => ?_⟩
  · have hpass : runPass s = grantPass { s with passDue := false } := by simp [runPass, isRunning, hd, hr]
    rw [settle_arb, ← hpass]
    rcases settle_records s with h | ⟨hh, -⟩
    · exact ⟨rfl, h⟩
    · rw [hr] at hh; contradiction
  · have hpass : (runPass s).arb = s.arb ∧ (runPass s).bays = s.bays := by
      rcases runPass_cases s with ⟨-, h⟩ | ⟨hd, hr, -⟩ | ⟨-, -, h⟩
      · rw [h]; exact ⟨rfl, rfl⟩
      · simp [hd, hr] at hn
      · rw [h]; exact ⟨rfl, rfl⟩
    obtain ⟨harb, hbays⟩ := hpass
    refine ⟨by rw [settle_arb, harb], fun b => ?_⟩
    rcases settle_records s with h | ⟨-, h⟩ <;> rw [h b, bayAt_congr hbays]
    rfl

/-- The reply to the request that brought the change leaves the bay data (R11). -/
theorem writeReply_settle_bayData (st : Station) (r : Reply) (s : State) (b : Bay) :
    SameBayData (bayAt (writeReply st r (settle s)) b) (bayAt s b) := by
  rw [bayAt_congr (writeReply_bays st r (settle s))]
  exact settle_bayData s b

/-- The reply to the request that brought the change leaves what the pass has done (R120). -/
theorem settled_writeReply_settle (st : Station) (r : Reply) (s : State) : settled s (writeReply st r (settle s)) :=
  settled_congr (writeReply_arb st r (settle s)) (writeReply_bays st r (settle s)) (settled_settle s)

/-! ## SET BAY DATA -/

/-- A bay record with new bay data (R11). -/
def bayDataRecord (capacity : Nat) (feeder : Option FeederIx) (draw : Nat) (r : BayRecord) : BayRecord :=
  { r with capacity := tank capacity, feeder := feeder, draw := drawOf draw }

/-- SET BAY DATA accepted: the data are stored, and on a QUEUED bay the change ends with a pass owed (R11, R120). -/
theorem storeBayData_eq (b : Bay) (c : Nat) (feeder : Option FeederIx) (a : Nat) (s : State) :
    storeBayData b c feeder a s
      = (⟨doneUnless (tank c ≠ c ∨ drawOf a ≠ a), []⟩,
          if (bayAt s b).defrost.state = .queued then
            settle (owePass (withBayRecord b (bayDataRecord c feeder a (bayAt s b)) s))
          else withBayRecord b (bayDataRecord c feeder a (bayAt s b)) s) := by
  have hclamped : ((storedCapacity c).2 || (storedDraw a).2) = decide (tank c ≠ c ∨ drawOf a ≠ a) := by
    rw [storedCapacity_snd, storedDraw_snd, Bool.decide_or]
  unfold storeBayData
  simp only [doneOr_eq _ _ hclamped, storedCapacity_fst, storedDraw_fst]
  rfl

/-- OFFICE's SET BAY DATA is answered by the bay table (R168, R169, R172). -/
theorem exec_setBayData (x c1 c0 f a : Byte) (s : State) :
    exec (.setBayData .office [x, c1, c0, f, a]) s
      = .next (writeReply .office (setBayDataOwner [x, c1, c0, f, a] (taking .office s)).1
          (setBayDataOwner [x, c1, c0, f, a] (taking .office s)).2) :=
  congrArg Host.Outcome.next (takeRequest_of_permitted rfl rfl _ s)

/-- The bay table stores the data where the bytes name a bay and a feeder field. -/
theorem setBayDataOwner_of_valid (b : Bay) {f : Byte} {feeder : Option FeederIx} (hf : feederFieldOfByte f = some feeder)
    (c1 c0 a : Byte) (s : State) :
    setBayDataOwner [bayByte b, c1, c0, f, a] s = storeBayData b (number c1 c0) feeder a.toNat s := by
  simp only [setBayDataOwner, withBay, bayOfByte_bayByte, hf]
  rfl

theorem setBayDataOwner_of_invalid {x f : Byte} (h : noBay x ∨ 5 ≤ f.toNat) (c1 c0 a : Byte) (s : State) :
    setBayDataOwner [x, c1, c0, f, a] s = (⟨.badArgument, []⟩, s) := by
  simp only [setBayDataOwner, withBay]
  rcases h with h | h
  · rw [bayOfByte_eq_none h]; rfl
  · rw [feederFieldOfByte_eq_none h]
    cases bayOfByte x <;> rfl

/-- An accepted SET BAY DATA of a bay that is not QUEUED changes its bay data alone (R11). -/
theorem exec_setBayData_of_not_queued {s : State} {b : Bay} {f : Byte} {feeder : Option FeederIx}
    (hf : feederFieldOfByte f = some feeder) (hq : (bayAt s b).defrost.state ≠ .queued) (c1 c0 a : Byte) :
    exec (.setBayData .office [bayByte b, c1, c0, f, a]) s
      = .next (told .office (doneUnless (tank (number c1 c0) ≠ number c1 c0 ∨ drawOf a.toNat ≠ a.toNat)) []
          (withBayRecord b (bayDataRecord (number c1 c0) feeder a.toNat (bayAt s b)) s)) := by
  have hq' : (bayAt (taking .office s) b).defrost.state ≠ .queued := hq
  rw [exec_setBayData, setBayDataOwner_of_valid b hf, storeBayData_eq, if_neg hq']
  exact congrArg Host.Outcome.next (writeReply_withBayRecord_taking _ _ b _ s)

/-- An accepted SET BAY DATA of a QUEUED bay stores the data and ends with a pass (R11, R120). -/
theorem exec_setBayData_of_queued {s : State} {b : Bay} {f : Byte} {feeder : Option FeederIx}
    (hf : feederFieldOfByte f = some feeder) (hq : (bayAt s b).defrost.state = .queued) (c1 c0 a : Byte) :
    exec (.setBayData .office [bayByte b, c1, c0, f, a]) s
      = .next (writeReply .office
          ⟨doneUnless (tank (number c1 c0) ≠ number c1 c0 ∨ drawOf a.toNat ≠ a.toNat), []⟩
          (settle (owePass (withBayRecord b (bayDataRecord (number c1 c0) feeder a.toNat (bayAt s b))
            (taking .office s))))) := by
  have hq' : (bayAt (taking .office s) b).defrost.state = .queued := hq
  rw [exec_setBayData, setBayDataOwner_of_valid b hf, storeBayData_eq, if_pos hq']
  rfl

/-- Where the bay data are those after one record was written, they are that record's on its bay and the old ones
elsewhere. -/
theorem bayData_of_withBayRecord {s t : State} {b : Bay} {r : BayRecord}
    (h : ∀ x, SameBayData (bayAt t x) (bayAt (withBayRecord b r s) x)) :
    SameBayData (bayAt t b) r ∧ ∀ x, x ≠ b → SameBayData (bayAt t x) (bayAt s x) := by
  have hwritten : ∀ x, bayAt (withBayRecord b r s) x = if x = b then r else bayAt s x := fun x => bayAt_setBay b x r s
  refine ⟨?_, fun x hx => ?_⟩
  · have hb := h b
    rwa [hwritten, if_pos rfl] at hb
  · have hx' := h x
    rwa [hwritten, if_neg hx] at hx'

end Sys2Proof.Machine

namespace Sys2Proof.Proofs

open Sys2Proof.Machine Sys2Proof.Claims

/-- Settles O20, by the bay's defrost state: both answers hold the same bay data, and the end of the change that a QUEUED
bay's data bring makes the pass. -/
theorem setBayDataStores : Obligations.SetBayDataStores := by
  unfold Obligations.SetBayDataStores
  refine ⟨fun s b c1 c0 f a hf => ?_, fun s x c1 c0 f a h => ?_⟩
  · intro c feeder reply
    have hfield : feederFieldOfByte f = some feeder := feederFieldOfByte_of_le hf
    by_cases hq : (bayAt s b).defrost.state = .queued
    · obtain ⟨⟨hcapacity, hfeeder, hdraw⟩, hothers⟩ := bayData_of_withBayRecord (s := taking .office s) (b := b)
        (r := bayDataRecord c feeder a.toNat (bayAt s b))
        (writeReply_settle_bayData .office ⟨reply, []⟩ (owePass (withBayRecord b _ _)))
      exact ⟨_, exec_setBayData_of_queued hfield hq c1 c0 a, congrArg Slot.reply (slotAt_writeReply_plain _ _ _),
        hcapacity, hfeeder, hdraw, hothers, fun hn => absurd hq hn, fun _ => settled_writeReply_settle _ _ _⟩
    · obtain ⟨⟨hcapacity, hfeeder, hdraw⟩, hothers⟩ := bayData_of_withBayRecord (s := s) (b := b)
        (r := bayDataRecord c feeder a.toNat (bayAt s b)) fun _ => ⟨rfl, rfl, rfl⟩
      exact ⟨_, exec_setBayData_of_not_queued hfield hq c1 c0 a, congrArg Slot.reply (slotAt_told _ _ _ _),
        hcapacity, hfeeder, hdraw, hothers, fun _ => rfl, fun hn => absurd hn hq⟩
  · rw [exec_setBayData, setBayDataOwner_of_invalid h]
    exact congrArg Host.Outcome.next (writeReply_taking _ _ s)

end Sys2Proof.Proofs
end

section
/-! The settings store (R32, R33): what each setting reads as, what SET SETTING stores, and the read back of a stored
value. -/

namespace Sys2Proof.Machine

open Sys2Proof.Claims

/-! ## READ SETTING -/

/-- A DONE reply with data, nothing else having changed. -/
theorem writeReply_done_taking (st : Station) (data : List Byte) (s : State) :
    writeReply st ⟨.done, data⟩ (taking st s) = told st .done data s := by
  simp [writeReply, heldReply, setSlot, taking, told]

/-- A one-byte number in two bytes. -/
theorem two_toNat (x : Byte) : two x.toNat = [0, x] := by
  have hhigh : x.toNat / 256 = 0 := by omega
  simp [two, hhigh]

/-- Settings 1 to 13 read as the numbers of section 2.3 in order. -/
theorem settingValue_of_le {n : Nat} (h1 : 1 ≤ n) (h13 : n ≤ 13) (g : Settings) :
    settingValue g n = some ((numbers g).getD (n - 1) 0) := by
  interval_cases n <;> rfl

theorem settingValue_eq_none {n : Nat} (h : n = 0 ∨ 16 ≤ n) (g : Settings) : settingValue g n = none := by
  unfold settingValue
  split
  case h_16 => rfl
  all_goals omega

/-- READ SETTING passes the port from every slot and is answered by the run controller (R168, R169, R172). -/
theorem exec_readSetting (st : Station) (id : Byte) (s : State) :
    exec (.readSetting st [id]) s
      = .next (writeReply st (readSettingOwner [id] (taking st s)).1 (readSettingOwner [id] (taking st s)).2) :=
  have hp : permitted .readSetting st = true := by cases st <;> rfl
  congrArg Host.Outcome.next (takeRequest_of_permitted hp rfl _ s)

/-- A setting that has a value is answered with its id and the value (R33). -/
theorem exec_readSetting_of_value {s : State} {id : Byte} {v : Nat}
    (h : settingValue s.run.settings id.toNat = some v) (st : Station) :
    exec (.readSetting st [id]) s = .next (told st .done (id :: two v) s) := by
  have howner : readSettingOwner [id] (taking st s) = (⟨.done, id :: two v⟩, taking st s) := by
    have h' : settingValue (taking st s).run.settings id.toNat = some v := h
    simp [readSettingOwner, h', answer, byteOf, be16, two]
  rw [exec_readSetting, howner, writeReply_done_taking]

theorem exec_readSetting_of_none {s : State} {id : Byte} (h : settingValue s.run.settings id.toNat = none)
    (st : Station) : exec (.readSetting st [id]) s = .next (told st .badArgument [] s) := by
  have howner : readSettingOwner [id] (taking st s) = (⟨.badArgument, []⟩, taking st s) := by
    have h' : settingValue (taking st s).run.settings id.toNat = none := h
    simp [readSettingOwner, h', refuse, plain]
  rw [exec_readSetting, howner, writeReply_taking]

/-! ## What SET SETTING stores -/

theorem clampWithin_fst {lo hi : Nat} (h : lo ≤ hi) (v : Nat) : (clampWithin lo hi v).1 = max lo (min v hi) := by
  unfold clampWithin
  split
  · simp only; omega
  · split <;> simp only <;> omega

/-- Settings 1 to 13 have the ranges of section 2.3. -/
theorem settingRange_of_le {id : Byte} (h1 : 1 ≤ id.toNat) (h13 : id.toNat ≤ 13) :
    settingRange id.toNat = some (lowest id, highest id) := by
  unfold lowest highest
  generalize id.toNat = n at *
  interval_cases n <;> rfl

theorem lowest_le_highest (id : Byte) : lowest id ≤ highest id := by
  have hlimits : ∀ r ∈ (0, 0) :: limits, r.1 ≤ r.2 := by decide
  refine hlimits _ ?_
  rw [List.getD_eq_getElem?_getD]
  cases h : limits[id.toNat - 1]? with
  | none => exact List.mem_cons_self
  | some r => exact List.mem_cons_of_mem _ (List.mem_of_getElem? h)

/-- Settings 1 to 13 are stored within their ranges (R32). -/
theorem storeSetting_of_le {id : Byte} (h1 : 1 ≤ id.toNat) (h13 : id.toNat ≤ 13) (v : Nat) (g : Settings) :
    storeSetting id.toNat v g
      = some (writeNumber id.toNat (max (lowest id) (min v (highest id))) g,
          (clampWithin (lowest id) (highest id) v).2) := by
  simp only [storeSetting, settingRange_of_le h1 h13, clampWithin_fst (lowest_le_highest id)]

/-- A number written into one of settings 1 to 13 is the one then read. -/
theorem settingValue_writeNumber {n : Nat} (h1 : 1 ≤ n) (h13 : n ≤ 13) (v : Nat) (g : Settings) :
    settingValue (writeNumber n v g) n = some v := by
  interval_cases n <;> rfl

/-- The enables stored are the low four bits of the value (R32, R172). -/
theorem condsByte_condsOfNat (v : Nat) : condsByte (condsOfNat v) = BitVec.ofNat 8 (v % 16) := by
  have hbits : (v.testBit 0).toNat + 2 * (v.testBit 1).toNat + 4 * (v.testBit 2).toNat + 8 * (v.testBit 3).toNat
      = v % 16 := by
    simp only [Nat.toNat_testBit]
    omega
  exact congrArg (BitVec.ofNat 8) hbits

/-! ## The effects of a setting's change leave the store -/

theorem limitBay_keeps (limit : Nat) (b : Bay) (s : State) : Keeps s (limitBay limit b s) := by
  unfold limitBay
  dsimp only
  split
  · exact modBay_keeps b _ s
  · split
    · exact (modBay_keeps b _ s).trans (becomeLost_keeps b _)
    · exact .refl s

theorem applyLossLimit_keeps (s : State) : Keeps s (applyLossLimit s) :=
  (withFreeOrder_keeps (Keeps.forBays (limitBay_keeps s.run.settings.lossLimit)) s).trans (settle_keeps _)

/-- What a changed setting brings about leaves the settings (R34, R35). -/
theorem settingChanged_settings (before : Settings) (s : State) :
    (settingChanged before s).run.settings = s.run.settings := by
  unfold settingChanged
  split
  · exact (applyLossLimit_keeps s).settings
  · split <;> rfl

/-- OFFICE's SET SETTING is answered by the run controller (R168, R169, R172). -/
theorem exec_setSetting (id v1 v0 : Byte) (s : State) :
    exec (.setSetting .office [id, v1, v0]) s
      = .next (writeReply .office (setSettingOwner [id, v1, v0] (taking .office s)).1
          (setSettingOwner [id, v1, v0] (taking .office s)).2) :=
  congrArg Host.Outcome.next (takeRequest_of_permitted rfl rfl _ s)

/-- After an accepted SET SETTING the store holds the new settings (R32). -/
theorem settings_of_exec_setSetting {s t : State} {id v1 v0 : Byte} {g : Settings} {clamped : Bool}
    (hstore : storeSetting id.toNat (number v1 v0) s.run.settings = some (g, clamped))
    (h : exec (.setSetting .office [id, v1, v0]) s = .next t) : t.run.settings = g := by
  have howner : setSettingOwner [id, v1, v0] (taking .office s)
      = (doneOr clamped, settingChanged s.run.settings (withSettings g (taking .office s))) := by
    have hstore' : storeSetting id.toNat (word16 v1 v0) (taking .office s).run.settings = some (g, clamped) := hstore
    simp only [setSettingOwner, hstore']
    rfl
  rw [exec_setSetting, howner] at h
  cases h
  exact settingChanged_settings _ _

/-- The value an accepted SET SETTING stored is the one then read (R32, R33). -/
theorem reply_of_setSetting_readSetting {s t u : State} {st : Station} {id v1 v0 : Byte} {g : Settings} {clamped : Bool}
    {v : Nat} (hset : exec (.setSetting .office [id, v1, v0]) s = .next t)
    (hread : exec (.readSetting st [id]) t = .next u)
    (hstore : storeSetting id.toNat (number v1 v0) s.run.settings = some (g, clamped))
    (hvalue : settingValue g id.toNat = some v) : (slotAt u st).reply = ⟨.done, id :: two v⟩ := by
  rw [← settings_of_exec_setSetting hstore hset] at hvalue
  rw [exec_readSetting_of_value hvalue] at hread
  cases hread
  rw [slotAt_told]

end Sys2Proof.Machine

namespace Sys2Proof.Proofs

open Sys2Proof.Machine Sys2Proof.Claims

/-- Settles O41, by the kind of setting the id names: one of the thirteen numbers, the nesting mode, the condition enables,
or none; a value is read back because no effect of its storing touches the store. -/
theorem readSettingReadsTheStore : Obligations.ReadSettingReadsTheStore := by
  unfold Obligations.ReadSettingReadsTheStore
  intro s st id
  have hnesting (h : id.toNat = 14) : id = 14 := BitVec.eq_of_toNat_eq h
  have henables (h : id.toNat = 15) : id = 15 := BitVec.eq_of_toNat_eq h
  refine ⟨fun h1 h13 => ?_, fun h => ?_, fun h => ?_, fun h => ?_, fun v1 v0 t u hset hread => ⟨fun h1 h13 => ?_,
    fun h => ?_, fun h => ?_⟩⟩
  · exact exec_readSetting_of_value (settingValue_of_le h1 h13 _) st
  · obtain rfl := hnesting h
    rw [exec_readSetting_of_value (id := 14) rfl]
    cases s.run.settings.nesting <;> rfl
  · obtain rfl := henables h
    rw [exec_readSetting_of_value (id := 15) rfl, two_toNat]
    rfl
  · exact exec_readSetting_of_none (settingValue_eq_none h _) st
  · exact reply_of_setSetting_readSetting hset hread (storeSetting_of_le h1 h13 _ _) (settingValue_writeNumber h1 h13 _ _)
  · obtain rfl := hnesting h
    rw [reply_of_setSetting_readSetting hset hread rfl rfl]
    by_cases hv : number v1 v0 = 0 <;> simp [hv, two]
  · obtain rfl := henables h
    rw [reply_of_setSetting_readSetting hset hread rfl rfl, two_toNat, condsByte_condsOfNat]

end Sys2Proof.Proofs
end

section
/-! CLEAR FLAGS in its bay forms (R71) and its feeder form (R115): what the two owning blocks answer, and what the requests
leave of the part. -/

namespace Sys2Proof.Machine

open Sys2Proof.Claims

/-! ## Bay and feeder bytes -/

theorem bayByte_toNat (b : Bay) : (bayByte b).toNat = b.val + 1 := by
  simp only [bayByte, BitVec.toNat_ofNat]
  omega

/-- A feeder's own byte names it (R172). -/
@[simp] theorem feederOfByte_feederByte (f : FeederIx) : feederOfByte (feederByte f) = some f := by
  have hn : (feederByte f).toNat = f.val + 1 := by
    simp only [feederByte, BitVec.toNat_ofNat]
    omega
  have hr : 1 ≤ f.val + 1 ∧ f.val + 1 ≤ 4 := by omega
  simp [feederOfByte, hn, hr]

theorem feederOfByte_eq_none {x : Byte} (h : noFeeder x) : feederOfByte x = none := by
  have hx : ¬ (1 ≤ x.toNat ∧ x.toNat ≤ 4) := by omega
  simp [feederOfByte, hx]

@[simp] theorem withBay_bayByte (b : Bay) (g : Bay → State → Reply × State) (s : State) :
    withBay (bayByte b) g s = g b s := by
  simp only [withBay, bayOfByte_bayByte]

theorem withBay_of_noBay {x : Byte} (h : noBay x) (g : Bay → State → Reply × State) (s : State) :
    withBay x g s = (⟨.badArgument, []⟩, s) := by
  rw [withBay, bayOfByte_eq_none h]
  rfl

@[simp] theorem withFeeder_feederByte (f : FeederIx) (g : FeederIx → State → Reply × State) (s : State) :
    withFeeder (feederByte f) g s = g f s := by
  simp only [withFeeder, feederOfByte_feederByte]

theorem withFeeder_of_noFeeder {x : Byte} (h : noFeeder x) (g : FeederIx → State → Reply × State) (s : State) :
    withFeeder x g s = (⟨.badArgument, []⟩, s) := by
  rw [withFeeder, feederOfByte_eq_none h]
  rfl

/-! ## Requests without permission -/

/-- A request of at most 32 bytes from a slot that may not make it is refused REFUSED-ROLE before its owning block sees
it (R168, R169). -/
theorem takeRequest_of_not_permitted {st : Station} {k : RequestKind} {args : List Byte}
    (hp : permitted k st = false) (hl : args.length ≤ 31) (owner : State → Reply × State) (s : State) :
    takeRequest st k args owner s = told st .refusedRole [] s := by
  rcases takeRequest_cases st k args owner s with ⟨hover, -⟩ | ⟨-, -, h⟩ | ⟨-, hr, -⟩ | ⟨hr, -⟩
  · omega
  · exact h.trans (writeReply_taking st .refusedRole s)
  · rw [hp] at hr; contradiction
  · rw [hp] at hr; contradiction

/-! ## The reply does not meet the records -/

theorem writeReply_mapBays (st : Station) (r : Reply) (g : BayRecord → BayRecord) (s : State) :
    writeReply st r (mapBays g s) = mapBays g (writeReply st r s) := by
  simp only [writeReply, setSlot, mapBays, bayAt]

theorem writeReply_setFeeder (st : Station) (r : Reply) (f : FeederIx) (x : Feeder) (s : State) :
    writeReply st r (setFeeder f x s) = setFeeder f x (writeReply st r s) := rfl

/-! ## The bay forms -/

theorem clearFlagsBayOwner_bayByte (b : Bay) (s : State) :
    clearFlagsBayOwner [bayByte b] s = (⟨.done, []⟩, withBayRecord b (clearSticky (bayAt s b)) s) := by
  have h0 : (bayByte b).toNat ≠ 0 := by rw [bayByte_toNat]; omega
  simp only [clearFlagsBayOwner, if_neg h0, withBay_bayByte]
  rfl

/-- Byte 0 is ALL (R172). -/
theorem clearFlagsBayOwner_all (s : State) :
    clearFlagsBayOwner [0] s = (⟨.done, []⟩, mapBays clearSticky s) := rfl

theorem clearFlagsBayOwner_of_gt {x : Byte} (h : 41 ≤ x.toNat) (s : State) :
    clearFlagsBayOwner [x] s = (⟨.badArgument, []⟩, s) := by
  have h0 : x.toNat ≠ 0 := by omega
  simp only [clearFlagsBayOwner, if_neg h0, withBay_of_noBay (.inr h)]

/-- CLEAR FLAGS in its bay forms is answered by the check engine where the slot may ask it (R168, R169, R172). -/
theorem exec_clearFlagsBay {st : Station} (hst : st = .office ∨ st = .service) (x : Byte) (s : State) :
    exec (.clearFlagsBay st [x]) s
      = .next (writeReply st (clearFlagsBayOwner [x] (taking st s)).1 (clearFlagsBayOwner [x] (taking st s)).2) :=
  have hp : permitted .clearFlagsBay st = true := by rcases hst with rfl | rfl <;> rfl
  congrArg Host.Outcome.next (takeRequest_of_permitted hp rfl _ s)

theorem exec_clearFlagsBay_of_not_permitted {st : Station} (hst : st = .feeder ∨ st = .gate) (x : Byte) (s : State) :
    exec (.clearFlagsBay st [x]) s = .next (told st .refusedRole [] s) :=
  have hp : permitted .clearFlagsBay st = false := by rcases hst with rfl | rfl <;> rfl
  congrArg Host.Outcome.next (takeRequest_of_not_permitted hp (by simp) _ s)

/-- One bay's sticky flags are emptied (R71). -/
theorem exec_clearFlagsBay_bayByte {st : Station} (hst : st = .office ∨ st = .service) (b : Bay) (s : State) :
    exec (.clearFlagsBay st [bayByte b]) s
      = .next (told st .done [] (withBayRecord b (clearSticky (bayAt s b)) s)) := by
  rw [exec_clearFlagsBay hst, clearFlagsBayOwner_bayByte]
  exact congrArg Host.Outcome.next (writeReply_withBayRecord_taking st .done b _ s)

/-- Every bay's sticky flags are emptied (R71). -/
theorem exec_clearFlagsBay_all {st : Station} (hst : st = .office ∨ st = .service) (s : State) :
    exec (.clearFlagsBay st [0]) s = .next (mapBays clearSticky (told st .done [] s)) := by
  rw [exec_clearFlagsBay hst, clearFlagsBayOwner_all, writeReply_mapBays, writeReply_taking]

theorem exec_clearFlagsBay_of_gt {st : Station} (hst : st = .office ∨ st = .service) {x : Byte} (h : 41 ≤ x.toNat)
    (s : State) : exec (.clearFlagsBay st [x]) s = .next (told st .badArgument [] s) := by
  rw [exec_clearFlagsBay hst, clearFlagsBayOwner_of_gt h, writeReply_taking]

/-! ## The feeder form -/

/-- A feeder record with its two flags clear (R115). -/
def clearFeederFlags (r : Feeder) : Feeder := { r with nearFull := false, overflow := false }

theorem clearFlagsFeederOwner_feederByte (f : FeederIx) (s : State) :
    clearFlagsFeederOwner [feederByte f] s = (⟨.done, []⟩, setFeeder f (clearFeederFlags (feederAt s f)) s) := by
  simp only [clearFlagsFeederOwner, withFeeder_feederByte]
  rfl

theorem clearFlagsFeederOwner_of_noFeeder {x : Byte} (h : noFeeder x) (s : State) :
    clearFlagsFeederOwner [x] s = (⟨.badArgument, []⟩, s) := by
  simp only [clearFlagsFeederOwner, withFeeder_of_noFeeder h]

/-- FEEDER's CLEAR FLAGS is answered by the arbiter (R168, R169, R172). -/
theorem exec_clearFlagsFeeder (x : Byte) (s : State) :
    exec (.clearFlagsFeeder .feeder [x]) s
      = .next (writeReply .feeder (clearFlagsFeederOwner [x] (taking .feeder s)).1
          (clearFlagsFeederOwner [x] (taking .feeder s)).2) :=
  congrArg Host.Outcome.next (takeRequest_of_permitted rfl rfl _ s)

/-- One feeder's two flags are cleared (R115). -/
theorem exec_clearFlagsFeeder_feederByte (f : FeederIx) (s : State) :
    exec (.clearFlagsFeeder .feeder [feederByte f]) s
      = .next (setFeeder f (clearFeederFlags (feederAt s f)) (told .feeder .done [] s)) := by
  rw [exec_clearFlagsFeeder, clearFlagsFeederOwner_feederByte, writeReply_setFeeder, writeReply_taking]
  rfl

theorem exec_clearFlagsFeeder_of_noFeeder {x : Byte} (h : noFeeder x) (s : State) :
    exec (.clearFlagsFeeder .feeder [x]) s = .next (told .feeder .badArgument [] s) := by
  rw [exec_clearFlagsFeeder, clearFlagsFeederOwner_of_noFeeder h, writeReply_taking]

end Sys2Proof.Machine

namespace Sys2Proof.Proofs

open Sys2Proof.Machine Sys2Proof.Claims

/-- Settles O27, by what the byte names: each accepted form ends in the told state with one bay, every bay or one feeder
written, and the rules of those writes say what stays. -/
theorem clearFlagsEmpties : Obligations.ClearFlagsEmpties := by
  unfold Obligations.ClearFlagsEmpties
  intro s st
  refine ⟨fun hst => ⟨fun b => exec_clearFlagsBay_bayByte hst b s, ?all, fun x hx => exec_clearFlagsBay_of_gt hst hx s⟩,
    fun hst x => exec_clearFlagsBay_of_not_permitted hst x s, fun f => ?feeder,
    fun x hx => exec_clearFlagsFeeder_of_noFeeder hx s⟩
  case all =>
    exact ⟨_, exec_clearFlagsBay_all hst s, bayAt_mapBays clearSticky (told st .done [] s), rfl⟩
  case feeder =>
    have hother (g : FeederIx) (hg : g ≠ f) :
        feederAt (setFeeder f (clearFeederFlags (feederAt s f)) (told .feeder .done [] s)) g = feederAt s g := by
      rw [feederAt_setFeeder, if_neg hg]
      rfl
    exact ⟨_, exec_clearFlagsFeeder_feederByte f s, feederAt_setFeeder_same f _ _, hother, rfl⟩

end Sys2Proof.Proofs
end

section
/-! Every command as a request or an event: which request a row makes (R172), which owning block answers it, and that every
command ends in a next state and leaves the waiting commands (O1, O2). -/

namespace Sys2Proof.Machine

open Sys2Proof.Claims

/-! ## The rows that are requests -/

/-- The station, kind and argument bytes of a row that is a request of the kind table (R172). -/
def requestOf : Instr → Option (Station × RequestKind × List Byte)
  | .readBay st args => some (st, .readBay, args)
  | .readFeeder st args => some (st, .readFeeder, args)
  | .readQueue st args => some (st, .readQueue, args)
  | .readActive st args => some (st, .readActive, args)
  | .readYard st args => some (st, .readYard, args)
  | .readSetting st args => some (st, .readSetting, args)
  | .arrive st args => some (st, .arrive, args)
  | .depart st args => some (st, .depart, args)
  | .setDeparture st args => some (st, .setDeparture, args)
  | .setBayData st args => some (st, .setBayData, args)
  | .closeBay st args => some (st, .closeBay, args)
  | .openBay st args => some (st, .openBay, args)
  | .markSet st args => some (st, .mark, args)
  | .markTestSet st args => some (st, .mark, args)
  | .markClear st args => some (st, .mark, args)
  | .markTestClear st args => some (st, .mark, args)
  | .defrostNow st args => some (st, .defrostNow, args)
  | .withdraw st args => some (st, .withdraw, args)
  | .feederBudgetSingle st args => some (st, .feederBudgetSingle, args)
  | .feederBudgetAll st args => some (st, .feederBudgetAll, args)
  | .forceRelease st args => some (st, .forceRelease, args)
  | .doorPermit st args => some (st, .doorPermit, args)
  | .clearFlagsBay st args => some (st, .clearFlagsBay, args)
  | .clearFlagsFeeder st args => some (st, .clearFlagsFeeder, args)
  | .takeAlert st args => some (st, .takeAlert, args)
  | .releaseAlert st args => some (st, .releaseAlert, args)
  | .alertMask st args => some (st, .alertMask, args)
  | .beginRounds st args => some (st, .beginRounds, args)
  | .haltRounds st args => some (st, .haltRounds, args)
  | .setSetting st args => some (st, .setSetting, args)
  | _ => none

/-- The operation of a MARK row; SET for a row of another kind. -/
def markOpOf : Instr → MarkOp
  | .markTestSet _ _ => .testSet
  | .markClear _ _ => .clear
  | .markTestClear _ _ => .testClear
  | _ => .set

/-- The owning block's answer to a request that has passed the port's checks, `op` being the operation of a MARK row. -/
def answerTo (op : MarkOp) (st : Station) (args : List Byte) : RequestKind → State → Reply × State
  | .readBay => readBayOwner args
  | .readFeeder => readFeederOwner args
  | .readQueue => readQueueOwner args
  | .readActive => readActiveOwner args
  | .readYard => readYardOwner
  | .readSetting => readSettingOwner args
  | .arrive => arriveOwner args
  | .depart => departOwner args
  | .setDeparture => setDepartureOwner args
  | .setBayData => setBayDataOwner args
  | .closeBay => closeBayOwner args
  | .openBay => openBayOwner args
  | .mark => markOwner op st args
  | .defrostNow => defrostNowOwner args
  | .withdraw => withdrawOwner args
  | .feederBudgetSingle => feederBudgetSingleOwner args
  | .feederBudgetAll => feederBudgetAllOwner args
  | .forceRelease => forceReleaseOwner args
  | .doorPermit => doorPermitOwner args
  | .clearFlagsBay => clearFlagsBayOwner args
  | .clearFlagsFeeder => clearFlagsFeederOwner args
  | .takeAlert => takeAlertOwner st
  | .releaseAlert => releaseAlertOwner st args
  | .alertMask => alertMaskOwner st args
  | .beginRounds => beginRoundsOwner
  | .haltRounds => haltRoundsOwner
  | .setSetting => setSettingOwner args

/-- A request row takes its request (R168); a MARK row whose bytes spell another row has not come
(notes/assumptions/5.md). -/
theorem exec_of_requestOf {i : Instr} {st : Station} {k : RequestKind} {args : List Byte}
    (h : requestOf i = some (st, k, args)) (s : State) :
    exec i s = .next (takeRequest st k args (answerTo (markOpOf i) st args k) s)
      ∨ (k = .mark ∧ otherMarkRow (markOpOf i) args = true ∧ exec i s = .next s) := by
  have hmark (op : MarkOp) (st : Station) (args : List Byte) :
      takeMark op st args s = takeRequest st .mark args (markOwner op st args) s
        ∨ (otherMarkRow op args = true ∧ takeMark op st args s = s) := by
    unfold takeMark
    split
    · next hm => exact .inr ⟨hm, rfl⟩
    · exact .inl rfl
  cases i <;> simp only [requestOf, Option.some.injEq, Prod.mk.injEq, reduceCtorEq] at h
  case markSet | markTestSet | markClear | markTestClear =>
    obtain ⟨rfl, rfl, rfl⟩ := h
    rcases hmark _ _ _ with hm | ⟨ho, hm⟩
    · exact .inl (congrArg Host.Outcome.next hm)
    · exact .inr ⟨rfl, ho, congrArg Host.Outcome.next hm⟩
  all_goals
    obtain ⟨rfl, rfl, rfl⟩ := h
    exact .inl rfl

/-! ## What an owning block's answer can do -/

theorem bayOfByte_cases (x : Byte) : (∃ b, bayOfByte x = some b ∧ x = bayByte b) ∨ bayOfByte x = none := by
  unfold bayOfByte
  split
  · next h =>
    refine .inl ⟨_, rfl, BitVec.eq_of_toNat_eq ?_⟩
    simp only [bayByte, BitVec.toNat_ofNat]
    omega
  · exact .inr rfl

theorem withBay_cases (x : Byte) (g : Bay → State → Reply × State) (s : State) :
    (∃ b, x = bayByte b ∧ withBay x g s = g b s) ∨ withBay x g s = (plain .badArgument, s) := by
  unfold withBay
  rcases bayOfByte_cases x with ⟨b, h, hx⟩ | h <;> rw [h]
  · exact .inl ⟨b, hx, rfl⟩
  · exact .inr rfl

theorem withFeeder_cases (x : Byte) (g : FeederIx → State → Reply × State) (s : State) :
    (∃ f, withFeeder x g s = g f s) ∨ withFeeder x g s = (plain .badArgument, s) := by
  unfold withFeeder
  cases feederOfByte x with
  | none => exact .inr rfl
  | some f => exact .inl ⟨f, rfl⟩

/-- The changes an owning block's answer can make, each with the test that lets it through. -/
inductive AnswerEffect (st : Station) (s : State) : State → Prop
  | same : AnswerEffect st s s
  | arrive (b : Bay) (i : List Byte) (capacity departure : Option Nat) (hi : identOk i = true)
      (hv : (bayAt s b).occupancy = .vacant) (hu : identHeldElsewhere s b i = false) :
      AnswerEffect st s (serveLoop (modBay b (arrivedRecord i s.run.yardMinute capacity departure) s))
  | depart (b : Bay) (ho : (bayAt s b).occupancy = .arriving ∨ (bayAt s b).occupancy = .parked) :
      AnswerEffect st s (settle (departBay b s))
  | departure (b : Bay) (d : Option Nat) (hd : d.getD 0 ≤ 4095)
      (ho : (bayAt s b).occupancy = .arriving ∨ (bayAt s b).occupancy = .parked) :
      AnswerEffect st s (modBay b (fun r => { r with departure := d }) s)
  | bayData (b : Bay) (capacity : Nat) (f : Option FeederIx) (draw : Nat) :
      AnswerEffect st s (storeBayData b capacity f draw s).2
  | close (b : Bay) (ho : (bayAt s b).occupancy = .vacant) :
      AnswerEffect st s (modBay b (fun r => { r with occupancy := .outOfService }) s)
  | opened (b : Bay) (ho : (bayAt s b).occupancy = .outOfService) : AnswerEffect st s (emptyRecord b s)
  | mark (b : Bay) (m : Mark) (ho : ¬ ((bayAt s b).occupancy = .vacant ∨ (bayAt s b).occupancy = .outOfService)) :
      AnswerEffect st s (setMark st b m s)
  | unmark (b : Bay) (m : Mark) (ho : ¬ ((bayAt s b).occupancy = .vacant ∨ (bayAt s b).occupancy = .outOfService)) :
      AnswerEffect st s (clearMark b m s)
  | defrostNow (b : Bay) (h : defrostNowOk s b = true) : AnswerEffect st s (settle (joinQueue b .manual s))
  | withdraw (b : Bay) (h : withdrawable (bayAt s b).defrost.state = true) :
      AnswerEffect st s (settle (endBusiness b .withdraw s))
  | budget (f : FeederIx) (v : Nat) : AnswerEffect st s (settle (changeBudget f v s))
  | budgets (v : FeederIx → Nat) : AnswerEffect st s (settle (changeBudgets v s))
  | release (b : Bay) (h : (bayAt s b).defrost.state = .hung) : AnswerEffect st s (settle (endEpisode b .forced s))
  | permit (b : Bay) (minutes : Nat)
      (ho : ¬ ((bayAt s b).occupancy = .vacant ∨ (bayAt s b).occupancy = .outOfService)) :
      AnswerEffect st s (storePermit b minutes s).2
  | clearFlags (b : Bay) : AnswerEffect st s (modBay b clearSticky s)
  | clearAllFlags : AnswerEffect st s (mapBays clearSticky s)
  | feederFlags (f : FeederIx) :
      AnswerEffect st s (setFeeder f { feederAt s f with nearFull := false, overflow := false } s)
  | takeAlert : AnswerEffect st s { s with alert := (takeIn s.run.settings.nesting st s.alert).2 }
  | releaseAlert (c : Category) (u : AlertUnit) (h : releaseIn s.run.settings.nesting st c s.alert = some u) :
      AnswerEffect st s { s with alert := u }
  | alertMask (mask : List Category) :
      AnswerEffect st s { s with alert := maskIn s.run.settings.nesting st mask s.alert }
  | begin (h : s.run.state = .setup ∨ s.run.state = .halted) : AnswerEffect st s (beginRunning s)
  | halt (h : s.run.state = .running) : AnswerEffect st s (haltRunning s)
  | setting (id v : Nat) (g : Settings) (clamped : Bool) (h : storeSetting id v s.run.settings = some (g, clamped)) :
      AnswerEffect st s (settingChanged s.run.settings { s with run := { s.run with settings := g } })

theorem applyMark_effect (op : MarkOp) (st : Station) (b : Bay) (m : Mark) (s : State)
    (ho : ¬ ((bayAt s b).occupancy = .vacant ∨ (bayAt s b).occupancy = .outOfService)) :
    AnswerEffect st s (applyMark op st b m s).2 := by
  unfold applyMark
  dsimp only
  split
  · exact .mark b m ho
  · exact .mark b m ho
  · split
    · exact .same
    · exact .unmark b m ho
  · split
    · exact .same
    · exact .unmark b m ho

/-- An answer about the bay a byte names has the effect the block gives it for that bay. -/
theorem withBay_effect {st : Station} {x : Byte} {g : Bay → State → Reply × State} {s : State}
    (h : ∀ b, AnswerEffect st s (g b s).2) : AnswerEffect st s (withBay x g s).2 := by
  rcases withBay_cases x g s with ⟨b, -, e⟩ | e <;> rw [e]
  · exact h b
  · exact .same

theorem withFeeder_effect {st : Station} {x : Byte} {g : FeederIx → State → Reply × State} {s : State}
    (h : ∀ f, AnswerEffect st s (g f s).2) : AnswerEffect st s (withFeeder x g s).2 := by
  rcases withFeeder_cases x g s with ⟨f, e⟩ | e <;> rw [e]
  · exact h f
  · exact .same

theorem storedDeparture_le (v : Nat) : (storedDeparture v).1 ≤ 4095 := by
  unfold storedDeparture clampAbove
  split
  · assumption
  · exact Nat.le_refl _

theorem markOwner_effect (op : MarkOp) (st : Station) (args : List Byte) (s : State) :
    AnswerEffect st s (markOwner op st args s).2 := by
  unfold markOwner
  split
  · refine withBay_effect fun b => ?_
    split
    · split
      · exact .same
      · split
        · exact .same
        · next h => exact applyMark_effect op st b _ s h
    · exact .same
  · exact .same

theorem feederBudgets_effect (st : Station) (v : FeederIx → Nat) (s : State) :
    AnswerEffect st s (feederBudgets v s).2 := by
  unfold feederBudgets
  dsimp only
  split
  · exact .budgets v
  · exact .same

theorem arriveOwner_effect (st : Station) (args : List Byte) (s : State) :
    AnswerEffect st s (arriveOwner args s).2 := by
  unfold arriveOwner
  split
  · refine withBay_effect fun b => ?_
    split
    · exact .same
    · next hi =>
      split
      · exact .same
      · next hv =>
        split
        · exact .same
        · next hu => exact .arrive b _ _ _ (by simpa using hi) (by simpa using hv) (by simpa using hu)
  · exact .same

/-- Each owning block's answer makes one of the changes listed. -/
theorem answerTo_effect (op : MarkOp) (st : Station) (args : List Byte) (k : RequestKind) (s : State) :
    AnswerEffect st s (answerTo op st args k s).2 := by
  cases k <;> dsimp only [answerTo]
  case arrive => exact arriveOwner_effect st args s
  case mark => exact markOwner_effect op st args s
  case takeAlert => exact .takeAlert
  case readYard => exact .same
  case readBay =>
    unfold readBayOwner
    split
    · refine withBay_effect fun b => ?_
      split <;> exact .same
    · exact .same
  case readFeeder =>
    unfold readFeederOwner
    split
    · exact withFeeder_effect fun f => .same
    · exact .same
  case readQueue =>
    unfold readQueueOwner
    split
    · split <;> exact .same
    · exact .same
  case readActive =>
    unfold readActiveOwner
    split
    · split <;> exact .same
    · exact .same
  case readSetting =>
    unfold readSettingOwner
    split
    · split <;> exact .same
    · exact .same
  case depart =>
    unfold departOwner
    split
    · refine withBay_effect fun b => ?_
      split
      · next h => exact .depart b (.inl h)
      · next h => exact .depart b (.inr h)
      · exact .same
    · exact .same
  case setDeparture =>
    unfold setDepartureOwner
    split
    · refine withBay_effect fun b => ?_
      split
      · next h =>
        split
        · exact .departure b none (by simp) h
        · next v _ => exact .departure b (some _) (storedDeparture_le v) h
      · exact .same
    · exact .same
  case setBayData =>
    unfold setBayDataOwner
    split
    · refine withBay_effect fun b => ?_
      split
      · exact .same
      · exact .bayData b _ _ _
    · exact .same
  case closeBay =>
    unfold closeBayOwner
    split
    · refine withBay_effect fun b => ?_
      split
      · next h => exact .close b h
      · exact .same
    · exact .same
  case openBay =>
    unfold openBayOwner
    split
    · refine withBay_effect fun b => ?_
      split
      · next h => exact .opened b h
      · exact .same
    · exact .same
  case defrostNow =>
    unfold defrostNowOwner
    split
    · refine withBay_effect fun b => ?_
      split
      · next h => exact .defrostNow b h
      · exact .same
    · exact .same
  case withdraw =>
    unfold withdrawOwner
    split
    · refine withBay_effect fun b => ?_
      split
      · next h => exact .withdraw b h
      · exact .same
    · exact .same
  case feederBudgetSingle =>
    unfold feederBudgetSingleOwner
    split
    · refine withFeeder_effect fun f => ?_
      dsimp only
      split
      · exact .same
      · exact .budget f _
    · exact .same
  case feederBudgetAll =>
    unfold feederBudgetAllOwner
    split
    · exact feederBudgets_effect st _ s
    · exact .same
  case forceRelease =>
    unfold forceReleaseOwner
    split
    · refine withBay_effect fun b => ?_
      split
      · next h => exact .release b h
      · exact .same
    · exact .same
  case doorPermit =>
    unfold doorPermitOwner
    split
    · refine withBay_effect fun b => ?_
      split
      · exact .same
      · next h => exact .permit b _ h
    · exact .same
  case clearFlagsBay =>
    unfold clearFlagsBayOwner
    split
    · split
      · exact .clearAllFlags
      · exact withBay_effect fun b => .clearFlags b
    · exact .same
  case clearFlagsFeeder =>
    unfold clearFlagsFeederOwner
    split
    · exact withFeeder_effect fun f => .feederFlags f
    · exact .same
  case releaseAlert =>
    unfold releaseAlertOwner
    split
    · split
      · exact .same
      · split
        · exact .same
        · next u h => exact .releaseAlert _ u h
    · exact .same
  case alertMask =>
    unfold alertMaskOwner
    split
    · split
      · exact .alertMask _
      · exact .same
    · exact .same
  case beginRounds =>
    unfold beginRoundsOwner
    split
    · next h => exact .begin (.inl h)
    · next h => exact .begin (.inr h)
    · exact .same
  case haltRounds =>
    unfold haltRoundsOwner
    split
    · next h =>
      simp only
      exact .halt h
    · exact .same
  case setSetting =>
    unfold setSettingOwner
    split
    · next x v1 v0 =>
      cases h : storeSetting x.toNat (word16 v1 v0) s.run.settings with
      | none => exact .same
      | some p =>
        obtain ⟨g, clamped⟩ := p
        exact .setting _ _ g clamped h
    · exact .same

/-! ## What a command can do -/

/-- A reply of the port itself, without data, or of an owning block. -/
def IsReply (st : Station) (s : State) (r : Reply) : Prop :=
  r.data = [] ∨ ∃ op args k, r = (answerTo op st args k (receiveRequest st s)).1

/-- The next state of a command from s: a request taken and answered, or what an event brings. -/
inductive CommandEffect (s : State) : State → Prop
  | same : CommandEffect s s
  | reset (high : Bool) : CommandEffect s (resetState high s)
  | request (st : Station) (r : Reply) (t : State) (h : AnswerEffect st (receiveRequest st s) t) (hr : IsReply st s r) :
      CommandEffect s (writeReply st r t)
  | second : CommandEffect s (takeSecond s)
  | minuteThenSecond (h : s.run.minutePhase = .issued) : CommandEffect s (takeSecond (takeMinute s))
  | minute (h : minuteComes s = true) : CommandEffect s (takeMinute s)
  | moment (m : Moment) : CommandEffect s (takeMoment m s)
  | timeout (b : Bay) (h : timeoutDue s b = true) : CommandEffect s (serveLoop (takeMoment (.timeout b) s))
  | silence (st : Station) :
      CommandEffect s { s with alert := silenceReleaseIn s.run.settings.nesting st s.alert }
  | round (h : roundDue s = true) : CommandEffect s (serveLoop (startRound s))
  | gapEnd (b : Bay) (k : ExchangeKind) (ms : Nat) (v : Bool) (h : s.loop.exchange = some ⟨b, k, .gap ms, v⟩) :
      CommandEffect s (haltTest (serveLoop { s with loop := { s.loop with exchange := none } }))
  | windowOpen (b : Bay) (k : ExchangeKind) (v : Bool) (h : s.loop.exchange = some ⟨b, k, .sending, v⟩) :
      CommandEffect s
        { s with loop := { s.loop with exchange := some ⟨b, k, .awaiting, v⟩, lde := false, ltx := [] } }
  | ended (x : Exchange) (j : Judged) (h : s.loop.exchange = some x) (hp : x.phase = .awaiting) :
      CommandEffect s (endExchange x j s)
  | halted : CommandEffect s (haltTest s)
  | general (t : State) (h : AnswerEffect .feeder s t) (hg : ∃ v, t = (feederBudgets v s).2) : CommandEffect s t

theorem awaitingReply_eq_some {s : State} {x : Exchange} (h : awaitingReply s = some x) :
    s.loop.exchange = some x ∧ x.phase = .awaiting := by
  unfold awaitingReply at h
  split at h
  · next y hy =>
    split at h
    · next hp => cases h; exact ⟨hy, hp⟩
    · cases h
  · cases h

/-- A request of the kind table is answered by the port or by its owning block (R168). -/
theorem takeRequest_effect (st : Station) (k : RequestKind) (args : List Byte) (op : MarkOp) (s : State) :
    CommandEffect s (takeRequest st k args (answerTo op st args k) s) := by
  rcases takeRequest_cases st k args (answerTo op st args k) s with ⟨-, h⟩ | ⟨-, -, h⟩ | ⟨-, -, -, h⟩ | ⟨-, -, h⟩ <;>
    rw [h]
  · exact .request st _ _ .same (.inl rfl)
  · exact .request st _ _ .same (.inl rfl)
  · exact .request st _ _ .same (.inl rfl)
  · exact .request st _ _ (answerTo_effect op st args k _) (.inr ⟨op, args, k, rfl⟩)

/-- Every command ends in a next state, by one of the changes listed. -/
theorem exec_effect (i : Instr) (s : State) : ∃ t, exec i s = .next t ∧ CommandEffect s t := by
  have hrequest {st : Station} {k : RequestKind} {args : List Byte} (h : requestOf i = some (st, k, args)) :
      ∃ t, exec i s = .next t ∧ CommandEffect s t := by
    rcases exec_of_requestOf h s with e | ⟨-, -, e⟩
    · exact ⟨_, e, takeRequest_effect st k args _ s⟩
    · exact ⟨_, e, .same⟩
  cases i
  case reset high => exact ⟨_, rfl, .reset high⟩
  case secondsTick =>
    refine ⟨_, rfl, ?_⟩
    split
    · next h => exact .minuteThenSecond h
    · exact .second
  case minuteTick =>
    refine ⟨_, rfl, ?_⟩
    split
    · next h => exact .minute h
    · exact .same
  case doorLimitReached b => exact ⟨_, rfl, .moment (.doorLimit b)⟩
  case permitEnd b => exact ⟨_, rfl, .moment (.permitEnd b)⟩
  case holdoffEnd b => exact ⟨_, rfl, .moment (.holdoffEnd b)⟩
  case timeout b =>
    refine ⟨_, rfl, ?_⟩
    split
    · next h => exact .timeout b (Bool.and_eq_true _ _ ▸ h).2
    · exact .moment (.timeout b)
  case silenceRelease st => exact ⟨_, rfl, .silence st⟩
  case roundStart =>
    refine ⟨_, rfl, ?_⟩
    split
    · next h => exact .round h
    · exact .same
  case idleGapEnd =>
    show ∃ t, execIdleGapEnd s = .next t ∧ _
    unfold execIdleGapEnd
    split
    · next b k ms v h => exact ⟨_, rfl, .gapEnd b k ms v h⟩
    · exact ⟨_, rfl, .same⟩
  case replyWindowOpen =>
    show ∃ t, execReplyWindowOpen s = .next t ∧ _
    unfold execReplyWindowOpen
    split
    · next b k v h => exact ⟨_, rfl, .windowOpen b k v h⟩
    · exact ⟨_, rfl, .same⟩
  case replyFrameComplete chars =>
    show ∃ t, execReplyFrameComplete chars s = .next t ∧ _
    unfold execReplyFrameComplete
    split
    · next x kind frame h _ =>
      obtain ⟨hx, hp⟩ := awaitingReply_eq_some h
      exact ⟨_, rfl, .ended x _ hx hp⟩
    · exact ⟨_, rfl, .same⟩
  case wrongKindByte kind =>
    show ∃ t, execWrongKindByte kind s = .next t ∧ _
    unfold execWrongKindByte
    split
    · next x h _ =>
      obtain ⟨hx, hp⟩ := awaitingReply_eq_some h
      exact ⟨_, rfl, .ended x _ hx hp⟩
    · exact ⟨_, rfl, .same⟩
  case replyWindowClose =>
    show ∃ t, execReplyWindowClose s = .next t ∧ _
    unfold execReplyWindowClose
    split
    · next x h =>
      obtain ⟨hx, hp⟩ := awaitingReply_eq_some h
      exact ⟨_, rfl, .ended x _ hx hp⟩
    · exact ⟨_, rfl, .same⟩
  case haltedEntry => exact ⟨_, rfl, .halted⟩
  case unknownKind st kind args =>
    refine ⟨_, rfl, ?_⟩
    unfold takeUnknown
    split
    · exact .same
    · exact .request st _ _ .same (.inl rfl)
  case overlong st bytes =>
    refine ⟨_, rfl, ?_⟩
    split
    · exact .request st _ _ .same (.inl rfl)
    · exact .same
  case generalCallWrite bytes =>
    refine ⟨_, rfl, ?_⟩
    split
    · unfold feederBudgetAllOwner
      split
      · exact .general _ (feederBudgets_effect .feeder _ s) ⟨_, rfl⟩
      · exact .same
    · exact .same
  all_goals exact hrequest rfl

/-- What holds of every change a command can make holds of its next state. -/
theorem exec_inv {i : Instr} {s t : State} (h : exec i s = .next t) : CommandEffect s t := by
  obtain ⟨u, e, hu⟩ := exec_effect i s
  rw [e] at h
  cases h
  exact hu

end Sys2Proof.Machine
end

section
/-! What no command leaves owed: the waiting commands stay (O2), and the pass of a change is made or dropped at its end. -/

namespace Sys2Proof.Machine

open Sys2Proof.Claims

/-! ## What a grant pass can touch -/

/-- A grant pass writes bay records, the arbiter and the order queue, and nothing else. -/
structure PassFrame (s t : State) : Prop where
  eq : t = { s with bays := t.bays, arb := t.arb, loop := { s.loop with orders := t.loop.orders } }

theorem PassFrame.refl (s : State) : PassFrame s s := ⟨rfl⟩

theorem PassFrame.trans {s t u : State} (h : PassFrame s t) (k : PassFrame t u) : PassFrame s u :=
  ⟨k.eq.trans (by rw [h.eq])⟩

theorem PassFrame.run {s t : State} (h : PassFrame s t) : t.run = s.run := by rw [h.eq]
theorem PassFrame.alert {s t : State} (h : PassFrame s t) : t.alert = s.alert := by rw [h.eq]
theorem PassFrame.port {s t : State} (h : PassFrame s t) : t.port = s.port := by rw [h.eq]
theorem PassFrame.passDue {s t : State} (h : PassFrame s t) : t.passDue = s.passDue := by rw [h.eq]
theorem PassFrame.moments {s t : State} (h : PassFrame s t) : t.moments = s.moments := by rw [h.eq]
theorem PassFrame.pending {s t : State} (h : PassFrame s t) : t.pending = s.pending := by rw [h.eq]
theorem PassFrame.loop {s t : State} (h : PassFrame s t) : t.loop = { s.loop with orders := t.loop.orders } := by
  rw [h.eq]

theorem PassFrame.foldl {α : Type} {g : State → α → State} (h : ∀ s a, PassFrame s (g s a)) (l : List α) (s : State) :
    PassFrame s (l.foldl g s) := by
  induction l generalizing s with
  | nil => exact .refl s
  | cons a l ih => exact (h s a).trans (ih (g s a))

theorem grant_frame (b : Bay) (c : Charge) (s : State) : PassFrame s (grant b c s) := ⟨rfl⟩

theorem resumeTop_frame (f : FeederIx) (b : Bay) (rest : List ShedEntry) (s : State) :
    PassFrame s (resumeTop f b rest s) := ⟨rfl⟩

theorem resumeFeeder_frame (f : FeederIx) (n : Nat) (s : State) : PassFrame s (resumeFeeder f n s) := by
  induction n generalizing s with
  | zero => exact .refl s
  | succ n ih =>
    rcases resumeFeeder_succ f n s with h | ⟨top, rest, -, -, -, h⟩ <;> rw [h]
    · exact .refl s
    · exact (resumeTop_frame f top.bay rest s).trans (ih _)

theorem resumeAll_frame (s : State) : PassFrame s (resumeAll s) :=
  PassFrame.foldl (fun s f => resumeFeeder_frame f _ s) allFeeders s

theorem walkEntry_frame (w : QueueWalk) (q : QueueEntry) : PassFrame w.state (walkEntry w q).state := by
  rcases walkEntry_cases w q with h | ⟨f, -, -, -, -, h⟩ | ⟨-, -, h⟩ | ⟨f, -, -, -, -, h⟩ <;> rw [h]
  · exact .refl _
  · exact .refl _
  · exact grant_frame q.bay _ _
  · exact grant_frame q.bay _ _

theorem walkQueue_frame (l : List QueueEntry) (w : QueueWalk) : PassFrame w.state (l.foldl walkEntry w).state := by
  induction l generalizing w with
  | nil => exact .refl _
  | cons q l ih => exact (walkEntry_frame w q).trans (ih _)

theorem grantQueue_frame (s : State) : PassFrame s (grantQueue s) :=
  (walkQueue_frame s.arb.queue ⟨s, [], []⟩).trans ⟨rfl⟩

theorem grantPass_frame (s : State) : PassFrame s (grantPass s) := (resumeAll_frame s).trans (grantQueue_frame _)

/-- The pass owed is made or dropped: none is owed after it (R120). -/
theorem runPass_frame (s : State) : PassFrame { s with passDue := false } (runPass s) := by
  rcases runPass_cases s with ⟨hd, h⟩ | ⟨-, -, h⟩ | ⟨-, -, h⟩ <;> rw [h]
  · exact ⟨by rw [← hd]⟩
  · exact grantPass_frame _
  · exact .refl _

@[simp] theorem runPass_alert (s : State) : (runPass s).alert = s.alert := (runPass_frame s).alert
@[simp] theorem runPass_run (s : State) : (runPass s).run = s.run := (runPass_frame s).run
@[simp] theorem runPass_passDue (s : State) : (runPass s).passDue = false := (runPass_frame s).passDue

/-! ## The end of a change -/

@[simp] theorem endRound_alert (s : State) : (endRound s).alert = s.alert := by
  rcases endRound_cases s with h | ⟨_, -, -, -, h⟩ <;> rw [h]
@[simp] theorem endRound_passDue (s : State) : (endRound s).passDue = s.passDue := by
  rcases endRound_cases s with h | ⟨_, -, -, -, h⟩ <;> rw [h]
@[simp] theorem endRound_port (s : State) : (endRound s).port = s.port := (endRound_keeps s).port
@[simp] theorem endRound_exchange (s : State) : (endRound s).loop.exchange = s.loop.exchange := by
  rcases endRound_cases s with h | ⟨_, -, -, -, h⟩ <;> rw [h]
@[simp] theorem endRound_orders (s : State) : (endRound s).loop.orders = s.loop.orders := by
  rcases endRound_cases s with h | ⟨_, -, -, -, h⟩ <;> rw [h]

@[simp] theorem serveLoop_passDue (s : State) : (serveLoop s).passDue = s.passDue := by
  rcases serveLoop_cases s with h | ⟨_, _, -, -, -, h⟩ | ⟨_, -, -, -, -, h⟩ <;> rw [h] <;> rfl
@[simp] theorem serveLoop_port (s : State) : (serveLoop s).port = s.port := (serveLoop_keeps s).port
@[simp] theorem serveLoop_pending (s : State) : (serveLoop s).pending = s.pending := (serveLoop_keeps s).pending
@[simp] theorem serveLoop_moments (s : State) : (serveLoop s).moments = s.moments := (serveLoop_keeps s).moments

@[simp] theorem haltTest_alert (s : State) : (haltTest s).alert = s.alert := by
  rcases haltTest_cases s with h | ⟨-, -, h⟩ <;> rw [h]
  exact mapBays_alert _ _
@[simp] theorem haltTest_loop (s : State) : (haltTest s).loop = s.loop := by
  rcases haltTest_cases s with h | ⟨-, -, h⟩ <;> rw [h]
  exact mapBays_loop _ _
@[simp] theorem haltTest_passDue (s : State) : (haltTest s).passDue = s.passDue := by
  rcases haltTest_cases s with h | ⟨-, -, h⟩ <;> rw [h]
  exact mapBays_passDue _ _
@[simp] theorem haltTest_port (s : State) : (haltTest s).port = s.port := (haltTest_keeps s).port

@[simp] theorem settle_passDue (s : State) : (settle s).passDue = false := by simp [settle]
@[simp] theorem settle_alert (s : State) : (settle s).alert = s.alert := by simp [settle]
@[simp] theorem settle_port (s : State) : (settle s).port = s.port := (settle_keeps s).port
@[simp] theorem settle_moments (s : State) : (settle s).moments = s.moments := (settle_keeps s).moments
@[simp] theorem settle_pending (s : State) : (settle s).pending = s.pending := (settle_keeps s).pending

@[simp] theorem startRound_passDue (s : State) : (startRound s).passDue = s.passDue := by
  unfold startRound
  dsimp only
  split
  · rw [endRound_passDue]
  · rfl
@[simp] theorem startRound_bays (s : State) : (startRound s).bays = s.bays := by
  unfold startRound
  dsimp only
  split
  · rw [endRound_bays]
  · rfl
@[simp] theorem startRound_arb (s : State) : (startRound s).arb = s.arb := by
  unfold startRound
  dsimp only
  split
  · rw [endRound_arb]
  · rfl
@[simp] theorem startRound_run (s : State) : (startRound s).run = s.run := by
  unfold startRound
  dsimp only
  split
  · rw [endRound_run]
  · rfl
@[simp] theorem startRound_port (s : State) : (startRound s).port = s.port := (startRound_keeps s).port

/-! ## Moments -/

@[simp] theorem stopEpisode_passDue (b : Bay) (r : StopReason) (s : State) :
    (stopEpisode b r s).passDue = s.passDue := by
  unfold stopEpisode
  rw [placeStop_passDue]
  rfl

theorem momentEffect_passDue (m : Moment) (s : State) : (momentEffect m s).passDue = s.passDue := by
  have hdoor (b : Bay) : (doorTest b s).passDue = s.passDue := by
    unfold doorTest
    split <;> rfl
  cases m with
  | doorLimit b => exact hdoor b
  | permitEnd b => exact hdoor b
  | holdoffEnd b => rfl
  | timeout b =>
    show (timeoutTest b s).passDue = s.passDue
    unfold timeoutTest
    split
    · exact stopEpisode_passDue b _ s
    · rfl

@[simp] theorem takeMoment_passDue (m : Moment) (s : State) : (takeMoment m s).passDue = s.passDue := by
  rcases takeMoment_cases m s with ⟨-, h⟩ | ⟨-, h⟩ <;> rw [h]
  exact momentEffect_passDue m s

/-- Open moments apart, what a change keeps does not depend on them. -/
theorem Keeps.withMoments {s t : State} (h : Keeps s t) (ms : List Moment) :
    Keeps { s with moments := ms } { t with moments := ms } :=
  ⟨h.pending, rfl, h.port, h.settings, h.second, h.minutePhase, h.yardMinute, h.budget, h.stations, h.raised⟩

/-- What a moment leaves besides the list of open moments. -/
theorem takeMoment_keeps (m : Moment) (s : State) :
    Keeps { s with moments := (takeMoment m s).moments } (takeMoment m s) := by
  rcases takeMoment_cases m s with ⟨-, h⟩ | ⟨-, h⟩ <;> rw [h]
  · exact (momentEffect_keeps m s).withMoments _
  · exact .refl s

/-- The moments of a change, taken in turn, keep what no notice touches. -/
theorem takeMoments_keeps (ms : List Moment) (s : State) : Keeps s (takeMoments ms s) := by
  have key : ∀ (ms : List Moment) (t : State), Keeps { s with moments := t.moments } t →
      Keeps { s with moments := (ms.foldl (fun t m => takeMoment m t) t).moments }
        (ms.foldl (fun t m => takeMoment m t) t) := by
    intro ms
    induction ms with
    | nil => exact fun t h => h
    | cons m ms ih =>
      exact fun t h => ih _ ((h.withMoments (takeMoment m t).moments).trans (takeMoment_keeps m t))
  have h := key ms { s with moments := ms ++ s.moments } (.refl _)
  have e : (takeMoments ms s).moments = s.moments := takeMoments_moments ms s
  unfold takeMoments at e ⊢
  rw [e] at h
  exact h

theorem takeMoments_passDue (ms : List Moment) (s : State) : (takeMoments ms s).passDue = s.passDue := by
  have key : ∀ (ms : List Moment) (t : State), (ms.foldl (fun t m => takeMoment m t) t).passDue = t.passDue := by
    intro ms
    induction ms with
    | nil => exact fun _ => rfl
    | cons m ms ih => exact fun t => (ih _).trans (takeMoment_passDue m t)
  exact key ms _

/-! ## What every answer and every command keeps -/

/-- What no owning block's answer touches: the waiting commands, the open moments, the port and the clock; nor does it leave
a pass owed (notes/assumptions/6.md). -/
structure KeepsPort (s t : State) : Prop where
  pending : t.pending = s.pending
  moments : t.moments = s.moments
  port : t.port = s.port
  second : t.run.second = s.run.second
  minutePhase : t.run.minutePhase = s.run.minutePhase
  yardMinute : t.run.yardMinute = s.run.yardMinute
  rest : s.passDue = false → t.passDue = false

theorem Keeps.keepsPort {s t : State} (h : Keeps s t) (hr : s.passDue = false → t.passDue = false) : KeepsPort s t :=
  ⟨h.pending, h.moments, h.port, h.second, h.minutePhase, h.yardMinute, hr⟩

theorem KeepsPort.refl (s : State) : KeepsPort s s := ⟨rfl, rfl, rfl, rfl, rfl, rfl, fun h => h⟩

theorem KeepsPort.trans {s t u : State} (h : KeepsPort s t) (k : KeepsPort t u) : KeepsPort s u :=
  ⟨k.pending.trans h.pending, k.moments.trans h.moments, k.port.trans h.port, k.second.trans h.second,
    k.minutePhase.trans h.minutePhase, k.yardMinute.trans h.yardMinute, fun x => k.rest (h.rest x)⟩

/-- After a change whatever it owed, its end leaves no pass owed. -/
theorem Keeps.settled_port {s t : State} (h : Keeps s t) : KeepsPort s (settle t) :=
  (h.trans (settle_keeps t)).keepsPort fun _ => settle_passDue t

theorem departBay_keeps (b : Bay) (s : State) : Keeps s (departBay b s) := by
  unfold departBay
  split
  · exact becomeVacant_keeps b s
  · exact (owePassIf_keeps _ s).trans (becomeVacant_keeps b _)
  · exact (modBay_keeps b _ s).trans (endBusiness_keeps b _ _)

theorem setBudget_keepsPort (f : FeederIx) (v : Nat) (s : State) : KeepsPort s (setBudget f v s) :=
  ⟨rfl, rfl, rfl, rfl, rfl, rfl, fun h => h⟩

/-- What follows a budget written keeps the budgets themselves. -/
theorem budgetChanged_keeps (f : FeederIx) (old : Nat) (s : State) : Keeps s (budgetChanged f old s) := by
  unfold budgetChanged
  dsimp only
  split
  · exact owePass_keeps s
  · split
    · exact shedWalk_keeps f s
    · exact .refl s

theorem KeepsPort.settled {s t u : State} (h : KeepsPort s t) (k : Keeps t u) : KeepsPort s (settle u) :=
  let k := k.trans (settle_keeps u)
  ⟨k.pending.trans h.pending, k.moments.trans h.moments, k.port.trans h.port, k.second.trans h.second,
    k.minutePhase.trans h.minutePhase, k.yardMinute.trans h.yardMinute, fun _ => settle_passDue u⟩

theorem storeBudgets_keepsPort (v : FeederIx → Nat) (l : List FeederIx) (s : State) :
    KeepsPort s (l.foldl (fun t f => setBudget f (storedBudget (v f)).1 t) s) := by
  induction l generalizing s with
  | nil => exact .refl s
  | cons f l ih => exact (setBudget_keepsPort f _ s).trans (ih _)

theorem settingChanged_keeps (before : Settings) (s : State) : KeepsPort s (settingChanged before s) := by
  unfold settingChanged
  split
  · exact (applyLossLimit_keeps s).keepsPort fun _ => settle_passDue _
  · split
    · exact ⟨rfl, rfl, rfl, rfl, rfl, rfl, fun h => h⟩
    · exact .refl s

theorem AnswerEffect.keepsPort {st : Station} {s t : State} (h : AnswerEffect st s t) : KeepsPort s t := by
  cases h with
  | same => exact .refl s
  | arrive b i c d => exact ((modBay_keeps b _ s).trans (serveLoop_keeps _)).keepsPort fun h => by simpa using h
  | depart b => exact (departBay_keeps b s).settled_port
  | departure b d => exact (modBay_keeps b _ s).keepsPort fun h => h
  | bayData b c f a =>
    unfold storeBayData
    dsimp only
    split
    · exact ((modBay_keeps b _ s).trans (owePass_keeps _)).settled_port
    · exact (modBay_keeps b _ s).keepsPort fun h => h
  | close b => exact (modBay_keeps b _ s).keepsPort fun h => h
  | opened b => exact (emptyRecord_keeps b s).keepsPort fun h => h
  | mark b m =>
    unfold setMark
    dsimp only
    split
    · exact (modBay_keeps b _ s).keepsPort fun h => h
    · cases m with
      | hold => exact ((modBay_keeps b _ s).trans (endBusiness_keeps b _ _)).settled_port
      | fuelOrdered => exact (modBay_keeps b _ s).keepsPort fun h => h
      | noDiesel => exact (modBay_keeps b _ s).keepsPort fun h => h
  | unmark b m =>
    unfold clearMark
    dsimp only
    split
    · cases m with
      | noDiesel => exact ((modBay_keeps b _ s).trans (owePass_keeps _)).settled_port
      | hold => exact (modBay_keeps b _ s).keepsPort fun h => h
      | fuelOrdered => exact (modBay_keeps b _ s).keepsPort fun h => h
    · exact (modBay_keeps b _ s).keepsPort fun h => h
  | defrostNow b => exact (joinQueue_keeps b _ s).settled_port
  | withdraw b => exact (endBusiness_keeps b _ s).settled_port
  | budget f v => exact (setBudget_keepsPort f _ s).settled (budgetChanged_keeps f _ _)
  | budgets v =>
    unfold changeBudgets
    exact (storeBudgets_keepsPort v allFeeders s).settled (Keeps.foldl (fun t f => budgetChanged_keeps f _ t) allFeeders _)
  | release b => exact (endEpisode_keeps b _ s).settled_port
  | permit b minutes =>
    unfold storePermit
    dsimp only
    split
    · exact ((modBay_keeps b _ s).trans (takeMoments_keeps _ _)).keepsPort fun h => by
        rw [takeMoments_passDue]; exact h
    · exact (modBay_keeps b _ s).keepsPort fun h => h
  | clearFlags b => exact (modBay_keeps b _ s).keepsPort fun h => h
  | clearAllFlags => exact (mapBays_keeps _ s).keepsPort fun h => by simpa using h
  | feederFlags f =>
    exact (setFeeder_keeps f { feederAt s f with nearFull := false, overflow := false } s rfl).keepsPort fun h => h
  | takeAlert => exact ⟨rfl, rfl, rfl, rfl, rfl, rfl, fun h => h⟩
  | releaseAlert c u => exact ⟨rfl, rfl, rfl, rfl, rfl, rfl, fun h => h⟩
  | alertMask m => exact ⟨rfl, rfl, rfl, rfl, rfl, rfl, fun h => h⟩
  | begin =>
    have h := (startRound_keeps (setRunState .running s)).trans (serveLoop_keeps _)
    exact ⟨h.pending, h.moments, h.port, h.second, h.minutePhase, h.yardMinute, fun x => by
      simpa [beginRunning] using x⟩
  | halt =>
    have h : KeepsPort s (stopSchedule (setRunState .halting s)) := ⟨rfl, rfl, rfl, rfl, rfl, rfl, fun h => h⟩
    exact h.settled (withFreeOrder_keeps (Keeps.forBays fun b t => endBusiness_keeps b _ t) _)
  | setting id v g c =>
    have h : KeepsPort s { s with run := { s.run with settings := g } } → KeepsPort s _ :=
      fun h => h.trans (settingChanged_keeps s.run.settings _)
    exact h ⟨rfl, rfl, rfl, rfl, rfl, rfl, fun h => h⟩

theorem countSilences_passDue (s : State) : (countSilences s).passDue = s.passDue := by
  simp only [countSilences]

/-- The timeouts of a minute tick keep what no notice touches. -/
theorem minuteTimeouts_keeps (s : State) : Keeps s (minuteTimeouts s) := by
  unfold minuteTimeouts
  split
  · exact (withFreeOrder_keeps (takeMoments_keeps _) s).trans (serveLoop_keeps _)
  · exact .refl s

theorem withFreeOrder_passDue (g : State → State) (s : State) : (withFreeOrder g s).passDue = (g s).passDue := by
  rcases withFreeOrder_cases g s with h | ⟨q, -, h⟩ <;> rw [h]
  rfl

@[simp] theorem minuteTimeouts_passDue (s : State) : (minuteTimeouts s).passDue = s.passDue := by
  unfold minuteTimeouts
  split
  · rw [serveLoop_passDue, withFreeOrder_passDue, takeMoments_passDue]
  · rfl

@[simp] theorem countMinutes_passDue (s : State) : (countMinutes s).passDue = s.passDue := by
  unfold countMinutes
  exact mapBays_passDue _ s

theorem takeMinute_passDue (s : State) : (takeMinute s).passDue = s.passDue := by
  rw [takeMinute, countSilences_passDue, minuteTimeouts_passDue, takeMoments_passDue, countMinutes_passDue]
  rfl

theorem advanceSecond_passDue (s : State) : (advanceSecond s).passDue = s.passDue := by
  unfold advanceSecond
  split <;> rfl

theorem countRound_passDue (s : State) : (countRound s).passDue = s.passDue := by
  unfold countRound
  split
  · rfl
  · split
    · rw [serveLoop_passDue, startRound_passDue]
    · rfl

theorem countOpenings_passDue (s : State) : (countOpenings s).passDue = s.passDue := by
  unfold countOpenings
  exact mapBays_passDue _ s

theorem takeSecond_passDue (s : State) : (takeSecond s).passDue = s.passDue := by
  unfold takeSecond
  dsimp only
  rw [countRound_passDue, takeMoments_passDue, countOpenings_passDue, advanceSecond_passDue]

/-- What the ticks keep of the state outside bays, loop, clock and alert unit. -/
structure KeepsOutside (s t : State) : Prop where
  pending : t.pending = s.pending
  moments : t.moments = s.moments
  port : t.port = s.port

theorem Keeps.outside {s t : State} (h : Keeps s t) : KeepsOutside s t := ⟨h.pending, h.moments, h.port⟩

theorem KeepsOutside.trans {s t u : State} (h : KeepsOutside s t) (k : KeepsOutside t u) : KeepsOutside s u :=
  ⟨k.pending.trans h.pending, k.moments.trans h.moments, k.port.trans h.port⟩

theorem advanceSecond_outside (s : State) : KeepsOutside s (advanceSecond s) := by
  unfold advanceSecond
  split <;> exact ⟨rfl, rfl, rfl⟩

theorem countRound_keeps (s : State) : Keeps s (countRound s) := by
  unfold countRound
  split
  · exact .refl s
  · split
    · exact (startRound_keeps s).trans (serveLoop_keeps _)
    · exact .of_eq rfl rfl rfl rfl rfl

theorem countSilences_outside (s : State) : KeepsOutside s (countSilences s) := by
  unfold countSilences
  exact ⟨rfl, rfl, rfl⟩

theorem countOpenings_keeps (s : State) : Keeps s (countOpenings s) := by
  unfold countOpenings
  exact mapBays_keeps _ s

theorem countMinutes_keeps (s : State) : Keeps s (countMinutes s) := by
  unfold countMinutes
  exact mapBays_keeps _ s

theorem takeSecond_outside (s : State) : KeepsOutside s (takeSecond s) := by
  unfold takeSecond
  exact (advanceSecond_outside s).trans
    (((countOpenings_keeps _).trans (takeMoments_keeps _ _)).trans (countRound_keeps _)).outside

theorem takeMinute_outside (s : State) : KeepsOutside s (takeMinute s) := by
  have h1 : KeepsOutside s (advanceMinute s) := ⟨rfl, rfl, rfl⟩
  have h2 := ((countMinutes_keeps (advanceMinute s)).trans (takeMoments_keeps (minuteEndings s) _)).trans
    (minuteTimeouts_keeps _)
  unfold takeMinute
  exact h1.trans (h2.outside.trans (countSilences_outside _))

/-- No command's effect touches the queue of waiting commands. -/
theorem CommandEffect.pending {s t : State} (h : CommandEffect s t) : t.pending = s.pending := by
  cases h with
  | same => rfl
  | reset high => rfl
  | request st r t h _ => exact h.keepsPort.pending
  | second => exact (takeSecond_outside s).pending
  | minuteThenSecond => exact ((takeMinute_outside s).trans (takeSecond_outside _)).pending
  | minute => exact (takeMinute_outside s).pending
  | moment m => exact (takeMoment_keeps m s).pending
  | timeout b => exact ((serveLoop_keeps _).pending).trans (takeMoment_keeps _ s).pending
  | silence st => rfl
  | round => exact ((startRound_keeps s).trans (serveLoop_keeps _)).pending
  | gapEnd b k ms v => exact ((serveLoop_keeps _).trans (haltTest_keeps _)).pending
  | windowOpen b k v => rfl
  | ended x j => exact (endExchange_keeps x j s).pending
  | halted => exact (haltTest_keeps s).pending
  | general t h => exact h.keepsPort.pending

/-- No command leaves a pass owed where none was (notes/assumptions/6.md). -/
theorem CommandEffect.rest {s t : State} (h : CommandEffect s t) (hs : s.passDue = false) : t.passDue = false := by
  cases h with
  | same => exact hs
  | reset high => rfl
  | request st r t h _ => exact h.keepsPort.rest hs
  | second => rw [takeSecond_passDue, hs]
  | minuteThenSecond => rw [takeSecond_passDue, takeMinute_passDue, hs]
  | minute => rw [takeMinute_passDue, hs]
  | moment m => rw [takeMoment_passDue, hs]
  | timeout b => rw [serveLoop_passDue, takeMoment_passDue, hs]
  | silence st => exact hs
  | round => rw [serveLoop_passDue, startRound_passDue, hs]
  | gapEnd b k ms v => rw [haltTest_passDue, serveLoop_passDue]; exact hs
  | windowOpen b k v => exact hs
  | ended x j => exact settle_passDue _
  | halted => rw [haltTest_passDue, hs]
  | general t h => exact h.keepsPort.rest hs

theorem takeMoment_moments (m : Moment) (s : State) : (takeMoment m s).moments = s.moments.erase m := by
  rcases takeMoment_cases m s with ⟨-, h⟩ | ⟨hm, h⟩ <;> rw [h]
  exact (List.erase_of_not_mem hm).symm

/-- No command leaves a moment open where none was (notes/assumptions/5.md). -/
theorem CommandEffect.moments {s t : State} (h : CommandEffect s t) (hs : s.moments = []) : t.moments = [] := by
  cases h with
  | same => exact hs
  | reset high => rfl
  | request st r t h _ => exact h.keepsPort.moments.trans hs
  | second => exact (takeSecond_outside s).moments.trans hs
  | minuteThenSecond => exact ((takeMinute_outside s).trans (takeSecond_outside _)).moments.trans hs
  | minute => exact (takeMinute_outside s).moments.trans hs
  | moment m => rw [takeMoment_moments, hs]; rfl
  | timeout b => rw [serveLoop_moments, takeMoment_moments, hs]; rfl
  | silence st => exact hs
  | round => exact ((startRound_keeps s).trans (serveLoop_keeps _)).moments.trans hs
  | gapEnd b k ms v => exact ((serveLoop_keeps _).trans (haltTest_keeps _)).moments.trans hs
  | windowOpen b k v => exact hs
  | ended x j => exact (endExchange_keeps x j s).moments.trans hs
  | halted => exact (haltTest_keeps s).moments.trans hs
  | general t h => exact h.keepsPort.moments.trans hs

theorem slotAt_congr {s t : State} (h : t.port = s.port) (st : Station) : slotAt t st = slotAt s st := by
  simp [slotAt, h]

theorem slotAt_receiveRequest (st u : Station) (s : State) :
    slotAt (receiveRequest st s) u = if u = st then { slotAt s st with inProgress := true } else slotAt s u :=
  slotAt_setSlot st u _ s

/-- After a request answered its station has none in progress, and no other station's slot has changed (R165). -/
theorem slotAt_request {st : Station} {s t : State} (h : AnswerEffect st (receiveRequest st s) t) (r : Reply)
    (u : Station) : slotAt (writeReply st r t) u = if u = st then ⟨false, heldReply r⟩ else slotAt s u := by
  rw [writeReply, slotAt_setSlot]
  split
  · rfl
  · next hu => rw [slotAt_congr h.keepsPort.port, slotAt_receiveRequest, if_neg hu]

/-- Every slot after a command is one of before or holds an answer, with no request in progress. -/
theorem CommandEffect.inProgress {s t : State} (h : CommandEffect s t)
    (hs : ∀ st, (slotAt s st).inProgress = false) (st : Station) : (slotAt t st).inProgress = false := by
  have hport (e : t.port = s.port) : (slotAt t st).inProgress = false := by rw [slotAt_congr e, hs]
  cases h with
  | same => exact hs st
  | reset high => cases st <;> rfl
  | request o r t h _ =>
    rw [slotAt_request h]
    split
    · rfl
    · exact hs st
  | second => exact hport (takeSecond_outside s).port
  | minuteThenSecond => exact hport ((takeMinute_outside s).trans (takeSecond_outside _)).port
  | minute => exact hport (takeMinute_outside s).port
  | moment m => exact hport (takeMoment_keeps m s).port
  | timeout b => exact hport ((serveLoop_port _).trans (takeMoment_keeps _ s).port)
  | silence o => exact hs st
  | round => exact hport ((startRound_keeps s).trans (serveLoop_keeps _)).port
  | gapEnd b k ms v => exact hport ((serveLoop_keeps _).trans (haltTest_keeps _)).port
  | windowOpen b k v => exact hs st
  | ended x j => exact hport (endExchange_keeps x j s).port
  | halted => exact hport (haltTest_keeps s).port
  | general t h => exact hport h.keepsPort.port

/-! ## One step -/

/-- A step with an empty queue idles; any other carries out the front command with the queue's rest. -/
theorem step_cases {s t : State} (h : step s = .next t) :
    t = s ∨ ∃ c rest, s.pending = c :: rest ∧ CommandEffect { s with pending := rest } t := by
  unfold step at h
  split at h
  · cases h; exact .inl rfl
  · next c rest hp => exact .inr ⟨c, rest, hp, exec_inv h⟩

/-- What every command keeps, where it does not read the queue of waiting commands, every step keeps. -/
theorem step_of_effect {P : State → Prop} (hq : ∀ s rest, P s → P { s with pending := rest })
    (h : ∀ s t, P s → CommandEffect s t → P t) {s t : State} (hs : P s) (hstep : step s = .next t) : P t := by
  rcases step_cases hstep with rfl | ⟨c, rest, -, he⟩
  · exact hs
  · exact h _ _ (hq s rest hs) he

theorem step_keeps_rest {s t : State} (hs : Safety.RestLaw s) (h : step s = .next t) : Safety.RestLaw t := by
  refine step_of_effect (P := Safety.RestLaw) (fun s rest h => h) (fun s t hs h => ?_) hs h
  obtain ⟨hpass, hmoments, hslots⟩ := hs
  have hall (st : Station) : (slotAt s st).inProgress = false := hslots st (by cases st <;> simp [allStations])
  exact ⟨h.rest hpass, h.moments hmoments, fun st _ => h.inProgress hall st⟩

end Sys2Proof.Machine

namespace Sys2Proof.Proofs

open Sys2Proof.Machine Sys2Proof.Claims

/-- Settles O1: the two branches of `step`. -/
theorem stepRunsFrontOrIdles : Obligations.StepRunsFrontOrIdles := by
  refine ⟨fun c rest s h => ?_, fun s h => ?_⟩
  · rw [step, h]
  · rw [step, h]

/-- Settles O2: no change a command can make touches the waiting commands. -/
theorem execCompletesAndKeepsQueue : Obligations.ExecCompletesAndKeepsQueue := fun c s =>
  let ⟨t, e, h⟩ := exec_effect c s
  ⟨t, e, h.pending⟩

end Sys2Proof.Proofs
end

section
/-! What an operation about one bay can touch (`ActsOn`): the bay's own record and places in the collections, the voided flag
of its exchange, raises for the bay, a pass owed. Said once for every operation of a change. -/

namespace Sys2Proof.Machine

open Sys2Proof.Claims

/-! ## Chains of raises -/

/-- An alert unit reached from another by raises of an element in categories of `K` (R151). -/
inductive RaiseChain (mode : Nesting) (K : Category → Prop) (e : Element) (u : AlertUnit) : AlertUnit → Prop
  | refl : RaiseChain mode K e u u
  | raise {v : AlertUnit} {c : Category} (h : RaiseChain mode K e u v) (hc : K c) :
      RaiseChain mode K e u (raiseIn mode c e v)

theorem RaiseChain.trans {mode : Nesting} {K : Category → Prop} {e : Element} {u v w : AlertUnit}
    (h : RaiseChain mode K e u v) (k : RaiseChain mode K e v w) : RaiseChain mode K e u w := by
  induction k with
  | refl => exact h
  | raise _ hc ih => exact ih.raise hc

theorem RaiseChain.mono {mode : Nesting} {K L : Category → Prop} {e : Element} {u v : AlertUnit}
    (h : RaiseChain mode K e u v) (hKL : ∀ c, K c → L c) : RaiseChain mode L e u v := by
  induction h with
  | refl => exact .refl
  | raise _ hc ih => exact ih.raise (hKL _ hc)

/-- A category that no raise of the chain names keeps its record. -/
theorem RaiseChain.catAt_eq {mode : Nesting} {K : Category → Prop} {e : Element} {u v : AlertUnit} {c : Category}
    (h : RaiseChain mode K e u v) (hc : ¬ K c) : catAt v c = catAt u c := by
  induction h with
  | refl => rfl
  | raise _ hd ih =>
    rw [catAt_raiseIn, if_neg, ih]
    rintro rfl
    exact hc hd

/-- A chain of raises adds its element alone. -/
theorem RaiseChain.mem_pending {mode : Nesting} {K : Category → Prop} {e x : Element} {u v : AlertUnit} {c : Category}
    (h : RaiseChain mode K e u v) (hx : x ∈ (catAt v c).pending) : x ∈ (catAt u c).pending ∨ x = e := by
  induction h with
  | refl => exact .inl hx
  | raise _ _ ih =>
    rw [catAt_raiseIn] at hx
    split at hx
    · next hd =>
      subst hd
      rcases (mem_insertElement _ _ _).mp hx with rfl | hx
      · exact .inr rfl
      · exact ih hx
    · exact ih hx

/-- A chain of no raise changes nothing. -/
theorem RaiseChain.eq_of_none {mode : Nesting} {e : Element} {u v : AlertUnit}
    (h : RaiseChain mode (fun _ => False) e u v) : v = u := by
  cases h with
  | refl => rfl
  | raise _ hc => exact hc.elim

/-! ## Operations about one bay -/

/-- The voided flag of an exchange in flight with a bay's node may have been set (R3); the exchange is otherwise the same. -/
def VoidedAt (b : Bay) (x y : Option Exchange) : Prop :=
  y = x ∨ ∃ e, x = some e ∧ e.bay = b ∧ inFlight e = true ∧ y = some { e with voided := true }

theorem VoidedAt.refl (b : Bay) (x : Option Exchange) : VoidedAt b x x := .inl rfl

theorem VoidedAt.trans {b : Bay} {x y z : Option Exchange} (h : VoidedAt b x y) (k : VoidedAt b y z) :
    VoidedAt b x z := by
  rcases h with rfl | ⟨e, rfl, hb, hf, rfl⟩
  · exact k
  · rcases k with rfl | ⟨e', he, -, -, rfl⟩
    · exact .inr ⟨e, rfl, hb, hf, rfl⟩
    · cases he
      exact .inr ⟨e, rfl, hb, hf, rfl⟩

/-- An operation about bay b, which may raise alerts for it in the categories of `K`. -/
structure ActsOn (b : Bay) (K : Category → Prop) (s t : State) : Prop where
  run : t.run = s.run
  alert : RaiseChain s.run.settings.nesting K (bayElement b) s.alert t.alert
  loop : t.loop = { s.loop with orders := t.loop.orders, exchange := t.loop.exchange }
  exchange : VoidedAt b s.loop.exchange t.loop.exchange
  orders : t.loop.orders.filter (fun o => decide (o.bay ≠ b)) = s.loop.orders.filter (fun o => decide (o.bay ≠ b))
  records : KeepsOthers b s t
  queue : t.arb.queue.filter (fun q => decide (q.bay ≠ b)) = s.arb.queue.filter (fun q => decide (q.bay ≠ b))
  active : t.arb.active.filter (fun x => decide (x ≠ b)) = s.arb.active.filter (fun x => decide (x ≠ b))
  sheds : ∀ f, (feederAt t f).stack.filter (fun e => decide (e.bay ≠ b))
    = (feederAt s f).stack.filter (fun e => decide (e.bay ≠ b))
  passDue : s.passDue = true → t.passDue = true

variable {b : Bay} {K L : Category → Prop} {s t u : State}

theorem ActsOn.refl (b : Bay) (K : Category → Prop) (s : State) : ActsOn b K s s :=
  ⟨rfl, .refl, rfl, .refl b _, rfl, .refl b s, rfl, rfl, fun _ => rfl, id⟩

theorem ActsOn.trans (h : ActsOn b K s t) (k : ActsOn b K t u) : ActsOn b K s u :=
  ⟨k.run.trans h.run, h.alert.trans (h.run ▸ k.alert), k.loop.trans (by rw [h.loop]), h.exchange.trans k.exchange,
    k.orders.trans h.orders, h.records.trans k.records, k.queue.trans h.queue, k.active.trans h.active,
    fun f => (k.sheds f).trans (h.sheds f), fun x => k.passDue (h.passDue x)⟩

theorem ActsOn.mono (h : ActsOn b K s t) (hKL : ∀ c, K c → L c) : ActsOn b L s t :=
  { h with alert := h.alert.mono hKL }

/-- An operation that raises nothing leaves the alert unit. -/
theorem ActsOn.alert_eq (h : ActsOn b (fun _ => False) s t) : t.alert = s.alert := h.alert.eq_of_none

theorem modBay_actsOn (b : Bay) (K : Category → Prop) (g : BayRecord → BayRecord) (s : State) :
    ActsOn b K s (modBay b g s) :=
  ⟨rfl, .refl, rfl, .refl b _, rfl, modBay_others b g s, rfl, rfl, fun _ => rfl, id⟩

theorem modDefrost_actsOn (b : Bay) (K : Category → Prop) (g : Defrost → Defrost) (s : State) :
    ActsOn b K s (modDefrost b g s) := modBay_actsOn b K _ s

theorem raiseAlert_actsOn_of (b : Bay) {K : Category → Prop} {c : Category} (hc : K c) (s : State) :
    ActsOn b K s (raiseAlert c (bayElement b) s) :=
  ⟨rfl, RaiseChain.refl.raise hc, rfl, .refl b _, rfl, .of_bays rfl, rfl, rfl, fun _ => rfl, id⟩

theorem raiseAlert_actsOn (b : Bay) (c : Category) (s : State) :
    ActsOn b (fun d => d = c) s (raiseAlert c (bayElement b) s) :=
  raiseAlert_actsOn_of (K := fun d => d = c) b rfl s

theorem owePass_actsOn (b : Bay) (K : Category → Prop) (s : State) : ActsOn b K s (owePass s) :=
  ⟨rfl, .refl, rfl, .refl b _, rfl, .of_bays rfl, rfl, rfl, fun _ => rfl, fun _ => rfl⟩

theorem owePassIf_actsOn (b : Bay) (K : Category → Prop) (x : Bool) (s : State) : ActsOn b K s (owePassIf x s) := by
  rcases owePassIf_cases x s with h | h <;> rw [h]
  · exact owePass_actsOn b K s
  · exact .refl b K s

/-- Orders replaced, those of other bays as they stood. -/
theorem setOrders_actsOn (b : Bay) (K : Category → Prop) {q : List Order} {s : State}
    (h : q.filter (fun o => decide (o.bay ≠ b)) = s.loop.orders.filter (fun o => decide (o.bay ≠ b))) :
    ActsOn b K s (setOrders q s) :=
  ⟨rfl, .refl, rfl, .refl b _, h, .of_bays rfl, rfl, rfl, fun _ => rfl, id⟩

theorem bay_of_isStartFor {o : Order} (h : isStartFor b o = true) : o.bay = b := by
  simp only [isStartFor, Bool.and_eq_true, decide_eq_true_eq] at h
  exact h.1

theorem placeStop_actsOn (b : Bay) (K : Category → Prop) (s : State) : ActsOn b K s (placeStop b s) := by
  unfold placeStop
  split
  · refine setOrders_actsOn b K ?_
    rw [List.filter_filter]
    refine List.filter_congr fun o _ => ?_
    by_cases ho : o.bay = b
    · simp [ho]
    · have hs : isStartFor b o = false := by
        by_contra hn
        exact ho (bay_of_isStartFor (by simpa using hn))
      simp [ho, hs]
  · split
    · exact .refl b K s
    · exact setOrders_actsOn b K (by simp)

theorem placeStart_actsOn (b : Bay) (K : Category → Prop) (resume : Bool) (s : State) :
    ActsOn b K s (placeStart b resume s) := setOrders_actsOn b K (by simp)

theorem leaveActive_actsOn (b : Bay) (K : Category → Prop) (s : State) : ActsOn b K s (leaveActive b s) :=
  ⟨rfl, .refl, rfl, .refl b _, rfl, .of_bays rfl, rfl, by simp [leaveActive], fun _ => rfl, id⟩

theorem joinActive_actsOn (b : Bay) (K : Category → Prop) (s : State) : ActsOn b K s (joinActive b s) :=
  ⟨rfl, .refl, rfl, .refl b _, rfl, .of_bays rfl, rfl, by simp [joinActive], fun _ => rfl, id⟩

theorem leaveQueue_actsOn (b : Bay) (K : Category → Prop) (s : State) : ActsOn b K s (leaveQueue b s) :=
  ⟨rfl, .refl, rfl, .refl b _, rfl, .of_bays rfl, by simp [leaveQueue], rfl, fun _ => rfl, id⟩

theorem leaveStacks_actsOn (b : Bay) (K : Category → Prop) (s : State) : ActsOn b K s (leaveStacks b s) :=
  ⟨rfl, .refl, rfl, .refl b _, rfl, .of_bays rfl, rfl, rfl, fun f => by simp [stackWithout], id⟩

/-- Recording an end on a bay's entries leaves the entries of other bays. -/
theorem filter_map_recordEnd (b : Bay) (r : StopReason) (l : List ShedEntry) :
    (l.map fun e => if e.bay = b then { e with ended := some r } else e).filter (fun e => decide (e.bay ≠ b))
      = l.filter (fun e => decide (e.bay ≠ b)) := by
  induction l with
  | nil => rfl
  | cons e l ih =>
    by_cases he : e.bay = b
    · simp_all
    · simp_all

theorem recordEnd_actsOn (b : Bay) (K : Category → Prop) (r : StopReason) (s : State) :
    ActsOn b K s (recordEnd b r s) :=
  ⟨rfl, .refl, rfl, .refl b _, rfl, .of_bays rfl, rfl, rfl,
    fun f => by rw [feederAt_recordEnd]; exact filter_map_recordEnd b r _, id⟩

theorem leaveCollections_actsOn (b : Bay) (K : Category → Prop) (s : State) : ActsOn b K s (leaveCollections b s) :=
  ((leaveActive_actsOn b K s).trans (leaveQueue_actsOn b K _)).trans (leaveStacks_actsOn b K _)

theorem voidedAt_map (b : Bay) (x : Option Exchange) : VoidedAt b x (x.map (voidExchange b)) := by
  cases x with
  | none => exact .inl rfl
  | some e =>
    by_cases h : e.bay = b ∧ inFlight e = true
    · exact .inr ⟨e, rfl, h.1, h.2, by simp [voidExchange, h]⟩
    · exact .inl (by simp [voidExchange, h])

theorem emptyRecord_actsOn (b : Bay) (K : Category → Prop) (s : State) : ActsOn b K s (emptyRecord b s) :=
  ⟨rfl, .refl, rfl, voidedAt_map b _, rfl, emptyRecord_others b s, rfl, rfl, fun _ => rfl, id⟩

theorem becomeVacant_actsOn (b : Bay) (K : Category → Prop) (s : State) : ActsOn b K s (becomeVacant b s) :=
  (emptyRecord_actsOn b K s).trans (owePassIf_actsOn b K _ _)

/-! ## The course of an episode -/

/-- An outcome may raise FROST (R131). -/
theorem endEpisode_actsOn (b : Bay) (o : DefrostOutcome) (s : State) :
    ActsOn b (fun c => c = .frost ∧ raisesFrost o = true) s (endEpisode b o s) := by
  have h (K : Category → Prop) := (leaveCollections_actsOn b K s).trans
    (modBay_actsOn b K (endedRecord s.run.settings.holdoff o) _)
  have h2 : ∀ x, ActsOn b (fun c => c = .frost ∧ raisesFrost o = true) s (owePassIf x (if raisesFrost o then
      raiseAlert .frost (bayElement b) (modBay b (endedRecord s.run.settings.holdoff o) (leaveCollections b s))
      else modBay b (endedRecord s.run.settings.holdoff o) (leaveCollections b s))) := by
    intro x
    refine ActsOn.trans ?_ (owePassIf_actsOn b _ x _)
    split
    · next hf => exact (h _).trans (raiseAlert_actsOn_of b ⟨rfl, hf⟩ _)
    · exact h _
  rw [endEpisode_cases]
  split
  · exact (h2 _).trans (becomeVacant_actsOn b _ _)
  · exact h2 _

/-- An outcome that raises no FROST raises nothing. -/
theorem endEpisode_actsOn_of_not {b : Bay} {o : DefrostOutcome} (h : raisesFrost o = false) (K : Category → Prop)
    (s : State) : ActsOn b K s (endEpisode b o s) :=
  (endEpisode_actsOn b o s).mono fun _ hc => by simp [h] at hc

theorem stopEpisode_actsOn (b : Bay) (K : Category → Prop) (r : StopReason) (s : State) :
    ActsOn b K s (stopEpisode b r s) :=
  ((leaveActive_actsOn b K s).trans (modDefrost_actsOn b K _ _)).trans (placeStop_actsOn b K _)

/-- Of the stop reasons TIMEOUT alone ends with an outcome that raises FROST (R131, R137). -/
theorem raisesFrost_outcomeOf (r : StopReason) : raisesFrost (outcomeOf r) = decide (r = .timeout) := by
  cases r <;> rfl

theorem endBusiness_actsOn (b : Bay) (r : StopReason) (s : State) :
    ActsOn b (fun c => c = .frost ∧ r = .timeout) s (endBusiness b r s) := by
  have hend (t : State) : ActsOn b (fun c => c = .frost ∧ r = .timeout) t (endEpisode b (outcomeOf r) t) :=
    (endEpisode_actsOn b _ t).mono fun c hc => by simpa [raisesFrost_outcomeOf] using hc
  rcases endBusiness_cases b r s with h | h | ⟨-, h⟩ | ⟨-, h⟩ | ⟨-, h⟩ | h <;> rw [h]
  · exact .refl b _ s
  · exact hend s
  · exact (placeStop_actsOn b _ s).trans (hend _)
  · exact stopEpisode_actsOn b _ r s
  · exact recordEnd_actsOn b _ r s
  · exact modDefrost_actsOn b _ _ s

/-- An event of R145 other than TIMEOUT raises nothing. -/
theorem endBusiness_actsOn_of_ne {r : StopReason} (hr : r ≠ .timeout) (b : Bay) (K : Category → Prop) (s : State) :
    ActsOn b K s (endBusiness b r s) := (endBusiness_actsOn b r s).mono fun _ hc => absurd hc.2 hr

theorem becomeLost_actsOn (b : Bay) (s : State) : ActsOn b (fun c => c = .link) s (becomeLost b s) :=
  ((raiseAlert_actsOn b .link s).trans (modBay_actsOn b _ _ _)).trans
    (endBusiness_actsOn_of_ne (r := .link) (by decide) b _ _)

theorem limitBay_actsOn (limit : Nat) (b : Bay) (s : State) : ActsOn b (fun c => c = .link) s (limitBay limit b s) := by
  unfold limitBay
  dsimp only
  split
  · exact modBay_actsOn b _ _ s
  · split
    · exact (modBay_actsOn b _ _ s).trans (becomeLost_actsOn b _)
    · exact .refl b _ s

theorem departHung_actsOn (b : Bay) (K : Category → Prop) (s : State) : ActsOn b K s (departHung b s) :=
  (owePassIf_actsOn b K _ s).trans (becomeVacant_actsOn b K _)

theorem departBay_actsOn (b : Bay) (K : Category → Prop) (s : State) : ActsOn b K s (departBay b s) := by
  unfold departBay
  split
  · exact becomeVacant_actsOn b K s
  · exact departHung_actsOn b K s
  · exact (modBay_actsOn b K _ s).trans (endBusiness_actsOn_of_ne (by decide) b K _)

theorem joinQueue_actsOn (b : Bay) (K : Category → Prop) (o : Origin) (s : State) : ActsOn b K s (joinQueue b o s) := by
  have h : ActsOn b K s { s with arb := { s.arb with queue := s.arb.queue ++ [⟨b, o, s.run.yardMinute, 0⟩] } } :=
    ⟨rfl, .refl, rfl, .refl b _, rfl, .of_bays rfl, by simp, rfl, fun _ => rfl, id⟩
  unfold joinQueue
  exact (h.trans (modDefrost_actsOn b K _ _)).trans (owePass_actsOn b K _)

/-! ## Shedding -/

/-- A feeder record written whose stack is the old one for every other bay. -/
theorem setFeeder_actsOn (b : Bay) (K : Category → Prop) {f : FeederIx} {r : Feeder} {s : State}
    (h : r.stack.filter (fun e => decide (e.bay ≠ b)) = (feederAt s f).stack.filter (fun e => decide (e.bay ≠ b))) :
    ActsOn b K s (setFeeder f r s) := by
  refine ⟨rfl, .refl, rfl, .refl b _, rfl, .of_bays rfl, rfl, rfl, fun g => ?_, id⟩
  rw [feederAt_setFeeder]
  split
  · next hg => subst hg; exact h
  · rfl

theorem pushShed_actsOn (f : FeederIx) (b : Bay) (s : State) : ActsOn b (fun c => c = .power) s (pushShed f b s) := by
  have h (n : Bool) : ActsOn b (fun c => c = .power) s
      (setFeeder f { feederAt s f with stack := ⟨b, none⟩ :: (feederAt s f).stack, nearFull := n } s) :=
    setFeeder_actsOn b _ (by simp)
  unfold pushShed
  dsimp only
  split
  · exact (h true).trans (raiseAlert_actsOn b _ _)
  · exact h _

theorem refusePush_actsOn (f : FeederIx) (b : Bay) (s : State) :
    ActsOn b (fun c => c = .power) s (refusePush f b s) :=
  (setFeeder_actsOn (f := f) (r := { feederAt s f with overflow := true }) b _ rfl).trans (raiseAlert_actsOn b .power _)

theorem shedRunning_actsOn (f : FeederIx) (b : Bay) (s : State) :
    ActsOn b (fun c => c = .power) s (shedRunning f b s) := by
  unfold shedRunning
  split
  · exact (pushShed_actsOn f b s).trans (stopEpisode_actsOn b _ _ _)
  · exact (refusePush_actsOn f b s).trans (stopEpisode_actsOn b _ _ _)

theorem shedUnsent_actsOn (f : FeederIx) (b : Bay) (s : State) :
    ActsOn b (fun c => c = .power) s (shedUnsent f b s) := by
  unfold shedUnsent
  split
  · exact ((((placeStop_actsOn b _ s).trans (leaveActive_actsOn b _ _)).trans (pushShed_actsOn f b _)).trans
      (modDefrost_actsOn b _ _ _)).trans (owePass_actsOn b _ _)
  · exact ((placeStop_actsOn b _ s).trans (refusePush_actsOn f b _)).trans (endEpisode_actsOn_of_not rfl _ _)

theorem shed_actsOn (f : FeederIx) (b : Bay) (s : State) : ActsOn b (fun c => c = .power) s (shed f b s) := by
  rcases shed_cases f b s with ⟨-, -, h⟩ | ⟨-, h⟩ | ⟨-, h⟩ | h <;> rw [h]
  · exact shedUnsent_actsOn f b s
  · exact modDefrost_actsOn b _ _ s
  · exact shedRunning_actsOn f b s
  · exact .refl b _ s

/-! ## Exchanges -/

theorem startTaken_actsOn (b : Bay) (s : State) : ActsOn b (fun c => c = .power) s (startTaken b s) := by
  rcases startTaken_cases b s with ⟨_, -, h⟩ | ⟨_, -, -, -, h⟩ | ⟨-, h⟩ <;> rw [h]
  · exact stopEpisode_actsOn b _ _ s
  · exact shedRunning_actsOn _ b s
  · exact modDefrost_actsOn b _ _ s

theorem stopUnanswered_actsOn (b : Bay) (s : State) : ActsOn b (fun c => c = .power) s (stopUnanswered b s) := by
  have h := (((leaveStacks_actsOn b (fun c => c = .power) s).trans (owePassIf_actsOn b _ (onStack s b) _)).trans
    (modDefrost_actsOn b _ (fun d => { d with state := .hung, reason := hungReason s b }) _)).trans
    (raiseAlert_actsOn b _ _)
  unfold stopUnanswered
  dsimp only
  split
  · exact h.trans (departHung_actsOn b _ _)
  · exact h

/-- The categories an exchange's outcome can raise for its bay. -/
abbrev fromOrder (c : Category) : Prop := c = .power ∨ c = .frost

theorem orderOutcome_actsOn (b : Bay) (o : OrderKind) (r : Option AckResult) (s : State) :
    ActsOn b fromOrder s (orderOutcome b o r s) := by
  rcases orderOutcome_cases b o r s with ⟨_, a, -, -, -, h⟩ | ⟨_, -, -, -, h⟩ | ⟨-, -, -, h⟩ | ⟨-, -, -, h⟩ | h <;> rw [h]
  · rcases startAnswered_cases b a s with ⟨-, k⟩ | ⟨-, k⟩ <;> rw [k]
    · exact (startTaken_actsOn b s).mono fun _ hc => .inl hc
    · exact (endEpisode_actsOn b _ s).mono fun _ hc => .inr hc.1
  · exact stopEpisode_actsOn b _ _ s
  · rcases stopAnswered_cases b s with ⟨_, k⟩ | ⟨-, k⟩ | ⟨-, k⟩ <;> rw [k]
    · exact (endEpisode_actsOn b _ s).mono fun _ hc => .inr hc.1
    · exact (modDefrost_actsOn b _ _ s).trans (owePass_actsOn b _ _)
    · exact .refl b _ s
  · exact (stopUnanswered_actsOn b s).mono fun _ hc => .inl hc
  · exact .refl b _ s

theorem modeStep_actsOn (b : Bay) (m : Mode) (s : State) : ActsOn b (fun c => c = .frost) s (modeStep b m s) := by
  rcases modeStep_cases b m s with h | ⟨-, -, h⟩ | ⟨-, -, -, h⟩ | ⟨_, -, -, -, h⟩ <;> rw [h]
  · exact .refl b _ s
  all_goals exact (endEpisode_actsOn b _ s).mono fun _ hc => hc.1

theorem chargeToSelf_actsOn (b : Bay) (K : Category → Prop) (s : State) : ActsOn b K s (chargeToSelf b s) :=
  (modDefrost_actsOn b K _ s).trans (owePassIf_actsOn b K _ _)

theorem sourceStep_actsOn (b : Bay) (src : Source) (s : State) :
    ActsOn b (fun c => c = .power) s (sourceStep b src s) := by
  rcases sourceStep_cases b src s with h | ⟨-, -, h⟩ | ⟨f, -, -, -, h⟩ <;> rw [h]
  · exact .refl b _ s
  · exact chargeToSelf_actsOn b _ s
  · rcases chargeToFeeder_cases b f s with k | k <;> rw [k]
    · exact modDefrost_actsOn b _ _ s
    · exact (modDefrost_actsOn b _ _ s).trans (shed_actsOn f b _)

theorem checkDoor_actsOn (b : Bay) (K : Category → Prop) (report : DoorReport) (s : State) :
    ActsOn b K s (checkDoor b report s) := by
  rcases checkDoor_cases b report s with ⟨-, h⟩ | ⟨-, h⟩ <;> rw [h]
  · exact (modBay_actsOn b K _ s).trans (endBusiness_actsOn_of_ne (by decide) b K _)
  · exact modBay_actsOn b K _ s

theorem checkFrost_actsOn (b : Bay) (m : Mode) (w : Working) (s : State) :
    ActsOn b (fun c => c = .frost) s (checkFrost b m w s) := by
  unfold checkFrost
  dsimp only
  split
  · exact (modBay_actsOn b _ _ s).trans (raiseAlert_actsOn b _ _)
  · exact modBay_actsOn b _ _ s

theorem checkFuel_actsOn (b : Bay) (src : Source) (w : Working) (s : State) :
    ActsOn b (fun c => c = .fuel) s (checkFuel b src w s) := by
  unfold checkFuel
  dsimp only
  split
  · exact (modBay_actsOn b _ _ s).trans (raiseAlert_actsOn b _ _)
  · exact modBay_actsOn b _ _ s

theorem checkEnd_actsOn (b : Bay) (s : State) : ActsOn b (fun c => c = .check) s (checkEnd b s) := by
  have h1 := modBay_actsOn b (fun c => c = .check) (fun r => { r with sticky := condsUnion r.sticky r.causes }) s
  unfold checkEnd
  dsimp only
  split <;> split
  · exact (h1.trans (raiseAlert_actsOn b _ _)).trans (joinQueue_actsOn b _ _ _)
  · exact h1.trans (raiseAlert_actsOn b _ _)
  · exact h1.trans (joinQueue_actsOn b _ _ _)
  · exact h1

theorem checkInputs_actsOn (b : Bay) (K : Category → Prop) (w : Working) (s : State) :
    ActsOn b K s (checkInputs b w s) := modBay_actsOn b K _ s

/-- The categories a check can raise for its bay. -/
abbrev fromCheck (c : Category) : Prop := c = .frost ∨ c = .fuel ∨ c = .check

theorem check_actsOn (b : Bay) (snap : Snapshot) (s : State) : ActsOn b fromCheck s (check b snap s) :=
  ((((checkInputs_actsOn b _ _ s).trans (checkDoor_actsOn b _ _ _)).trans
    ((checkFrost_actsOn b _ _ _).mono fun _ hc => .inl hc)).trans
    ((checkFuel_actsOn b _ _ _).mono fun _ hc => .inr (.inl hc))).trans
    ((checkEnd_actsOn b _).mono fun _ hc => .inr (.inr hc))

/-- The record of an answered poll and the arbiter's steps, before any check (R45, R136, R148). -/
def pollSteps (b : Bay) (snap : Snapshot) (s : State) : State :=
  sourceStep b snap.source (modeStep b snap.mode
    (owePassIf (queuedSourceChanges (bayAt s b) snap) (modBay b (answeredRecord snap) s)))

theorem pollAnswered_eq (b : Bay) (snap : Snapshot) (s : State) :
    pollAnswered b snap s
      = if startsCheck (pollSteps b snap s) b then check b snap (pollSteps b snap s) else pollSteps b snap s := rfl

theorem pollSteps_actsOn (b : Bay) (snap : Snapshot) (s : State) : ActsOn b fromOrder s (pollSteps b snap s) :=
  (((modBay_actsOn b _ _ s).trans (owePassIf_actsOn b _ _ _)).trans
    ((modeStep_actsOn b _ _).mono fun _ hc => .inr hc)).trans ((sourceStep_actsOn b _ _).mono fun _ hc => .inl hc)

theorem pollAnswered_actsOn (b : Bay) (snap : Snapshot) (s : State) :
    ActsOn b (fun c => c ≠ .link ∧ c ≠ .door) s (pollAnswered b snap s) := by
  have h : ActsOn b (fun c => c ≠ .link ∧ c ≠ .door) s (pollSteps b snap s) :=
    (pollSteps_actsOn b snap s).mono fun c hc => by rcases hc with rfl | rfl <;> decide
  rw [pollAnswered_eq]
  split
  · exact h.trans ((check_actsOn b snap _).mono fun c hc => by rcases hc with rfl | rfl | rfl <;> decide)
  · exact h

theorem pollMissed_actsOn (b : Bay) (o : ExchangeOutcome) (s : State) :
    ActsOn b (fun c => c = .link) s (pollMissed b o s) := by
  unfold pollMissed
  dsimp only
  split
  · exact (modBay_actsOn b _ _ s).trans (becomeLost_actsOn b _)
  · exact modBay_actsOn b _ _ s

theorem exchangeResult_actsOn (x : Exchange) (j : Judged) (s : State) :
    ActsOn x.bay (fun c => c ≠ .door) s (exchangeResult x j s) := by
  have horder (o : OrderKind) (e : ExchangeOutcome) (r : Option AckResult) :
      ActsOn x.bay (fun c => c ≠ .door) s (orderOutcome x.bay o r (noteOutcome x.bay e s)) :=
    (modBay_actsOn x.bay _ _ s).trans ((orderOutcome_actsOn x.bay o r _).mono fun c hc => by
      rcases hc with rfl | rfl <;> decide)
  unfold exchangeResult
  split
  · exact (pollAnswered_actsOn _ _ s).mono fun _ hc => hc.2
  · exact (pollMissed_actsOn _ _ s).mono fun _ hc => by rw [hc]; decide
  · exact horder _ _ _
  · exact horder _ _ _

/-! ## Moments -/

theorem doorTest_actsOn (b : Bay) (s : State) : ActsOn b (fun c => c = .door) s (doorTest b s) := by
  unfold doorTest
  split
  · exact (modBay_actsOn b _ _ s).trans (raiseAlert_actsOn b _ _)
  · exact .refl b _ s

theorem timeoutTest_actsOn (b : Bay) (K : Category → Prop) (s : State) : ActsOn b K s (timeoutTest b s) := by
  unfold timeoutTest
  split
  · exact stopEpisode_actsOn b K _ s
  · exact .refl b K s

/-- The bay of a moment. -/
def Moment.bay : Moment → Bay
  | .doorLimit b => b
  | .permitEnd b => b
  | .holdoffEnd b => b
  | .timeout b => b

theorem momentEffect_actsOn (m : Moment) (s : State) : ActsOn m.bay (fun c => c = .door) s (momentEffect m s) := by
  cases m with
  | doorLimit b => exact doorTest_actsOn b s
  | permitEnd b => exact doorTest_actsOn b s
  | holdoffEnd b => exact modDefrost_actsOn b _ _ s
  | timeout b => exact timeoutTest_actsOn b _ s

/-- What an operation touches does not depend on the open moments. -/
theorem ActsOn.withMoments (h : ActsOn b K s t) (ms : List Moment) : ActsOn b K s { t with moments := ms } :=
  ⟨h.run, h.alert, h.loop, h.exchange, h.orders, h.records, h.queue, h.active, h.sheds, h.passDue⟩

theorem takeMoment_actsOn (m : Moment) (s : State) : ActsOn m.bay (fun c => c = .door) s (takeMoment m s) := by
  rcases takeMoment_cases m s with ⟨-, h⟩ | ⟨-, h⟩ <;> rw [h]
  · exact (momentEffect_actsOn m s).withMoments _
  · exact .refl _ _ s

/-! ## Changes of many bays -/

/-- A relation between states that every operation of a list of operations satisfies. -/
theorem foldl_rel {α : Type} {R : State → State → Prop} (hrefl : ∀ s, R s s)
    (htrans : ∀ s t u, R s t → R t u → R s u) {g : State → α → State} (h : ∀ s a, R s (g s a)) (l : List α) (s : State) :
    R s (l.foldl g s) := by
  induction l generalizing s with
  | nil => exact hrefl s
  | cons a l ih => exact htrans _ _ _ (h s a) (ih (g s a))

end Sys2Proof.Machine
end

section
/-! The alert unit's laws (R150, R153): each operation of the unit keeps them, and so does every command. -/

namespace Sys2Proof.Machine

open Sys2Proof.Claims

/-! ## Sets -/

/-- An element added to a strictly rising list leaves it so, and not empty. -/
theorem insertElement_sorted (e : Element) {l : List Element} (h : l.Pairwise (· < ·)) :
    (insertElement e l).Pairwise (· < ·) := by
  induction l with
  | nil => exact List.pairwise_singleton _ e
  | cons x xs ih =>
    obtain ⟨hx, hxs⟩ := List.pairwise_cons.mp h
    unfold insertElement
    split
    · next hlt =>
      refine List.pairwise_cons.mpr ⟨fun y hy => ?_, h⟩
      rcases List.mem_cons.mp hy with rfl | hy
      · exact hlt
      · exact lt_trans hlt (hx y hy)
    · next hlt =>
      split
      · exact h
      · next hne =>
        refine List.pairwise_cons.mpr ⟨fun y hy => ?_, ih hxs⟩
        rcases (mem_insertElement e y xs).mp hy with rfl | hy
        · exact lt_of_le_of_ne (not_lt.mp hlt) (Ne.symm hne)
        · exact hx y hy

theorem insertElement_ne_nil (e : Element) (l : List Element) : insertElement e l ≠ [] :=
  List.ne_nil_of_mem ((mem_insertElement e e l).mpr (.inl rfl))

theorem unionElements_sorted (a : List Element) {l : List Element} (h : l.Pairwise (· < ·)) :
    (unionElements a l).Pairwise (· < ·) := by
  induction a with
  | nil => exact h
  | cons e a ih => exact insertElement_sorted e ih

theorem unionElements_ne_nil {a : List Element} (h : a ≠ []) (l : List Element) : unionElements a l ≠ [] := by
  cases a with
  | nil => exact absurd rfl h
  | cons e a => exact insertElement_ne_nil e _

/-! ## The laws as properties of every category and station -/

theorem mem_allCategories (c : Category) : c ∈ allCategories := by cases c <;> simp [allCategories]
theorem mem_allStations (st : Station) : st ∈ allStations := by cases st <;> simp [allStations]

/-- The laws of R150, without the lists of categories and stations. -/
structure UnitLaw (u : AlertUnit) : Prop where
  cats : ∀ c, Safety.CategoryLaw (catAt u c)
  stacks_ : ∀ st, Safety.StackLaw (alertAt u st).stack
  silence : ∀ st, (alertAt u st).silence ≤ 10
  unique : ∀ st o c, inServiceAt u st c = true → inServiceAt u o c = true → st = o

theorem alertLaw_iff (u : AlertUnit) : Safety.AlertLaw u ↔ UnitLaw u := by
  constructor
  · rintro ⟨hc, hs, hu⟩
    exact ⟨fun c => hc c (mem_allCategories c), fun st => (hs st (mem_allStations st)).1,
      fun st => (hs st (mem_allStations st)).2,
      fun st o c => hu st (mem_allStations st) o (mem_allStations o) c (mem_allCategories c)⟩
  · intro h
    exact ⟨fun c _ => h.cats c, fun st _ => ⟨h.stacks_ st, h.silence st⟩, fun st _ o _ c _ => h.unique st o c⟩

theorem inServiceAt_iff (u : AlertUnit) (st : Station) (c : Category) :
    inServiceAt u st c = true ↔ ∃ e ∈ (alertAt u st).stack, e.category = c := by
  simp [inServiceAt]

theorem inService_iff (u : AlertUnit) (c : Category) :
    inService u c = true ↔ ∃ st, ∃ e ∈ (alertAt u st).stack, e.category = c := by
  simp only [inService, List.any_eq_true, inServiceAt_iff]
  exact ⟨fun ⟨st, _, h⟩ => ⟨st, h⟩, fun ⟨st, h⟩ => ⟨st, mem_allStations st, h⟩⟩

/-- Whether the lines mean what R153 says. -/
def LinesLit (mode : Nesting) (u : AlertUnit) : Prop :=
  ∀ st, (alertAt u st).line = allCategories.any fun c => eligible mode u st c

theorem lineLaw_iff (s : State) : Safety.LineLaw s ↔ LinesLit s.run.settings.nesting s.alert :=
  ⟨fun h st => h st (mem_allStations st), fun h st _ => h st⟩

theorem evalLines_lit (mode : Nesting) (u : AlertUnit) : LinesLit mode (evalLines mode u) := by
  intro st
  have he (c : Category) : eligible mode (evalLines mode u) st c = eligible mode u st c :=
    eligible_congr (fun c => by rw [catAt_evalLines]) (fun x => by rw [alertAt_evalLines]; exact ⟨rfl, rfl⟩) st c
  simp only [he, alertAt_evalLines]

/-- The laws of R150 do not read the lines. -/
theorem UnitLaw.congr {u v : AlertUnit} (h : UnitLaw u) (hc : ∀ c, catAt v c = catAt u c)
    (hs : ∀ st, (alertAt v st).stack = (alertAt u st).stack ∧ (alertAt v st).silence = (alertAt u st).silence) :
    UnitLaw v := by
  have hserv (st : Station) (c : Category) : inServiceAt v st c = inServiceAt u st c := by
    simp only [inServiceAt, (hs st).1]
  exact ⟨fun c => hc c ▸ h.cats c, fun st => (hs st).1 ▸ h.stacks_ st, fun st => (hs st).2 ▸ h.silence st,
    fun st o c => by rw [hserv, hserv]; exact h.unique st o c⟩

theorem UnitLaw.evalLines {u : AlertUnit} (h : UnitLaw u) (mode : Nesting) : UnitLaw (evalLines mode u) :=
  h.congr (catAt_evalLines mode u) fun st => by rw [alertAt_evalLines]; exact ⟨rfl, rfl⟩

/-- A category's record replaced by a lawful one. -/
theorem UnitLaw.setCat {u : AlertUnit} (h : UnitLaw u) (c : Category) {r : CategoryRecord} (hr : Safety.CategoryLaw r) :
    UnitLaw (setCat c r u) := by
  refine ⟨fun d => ?_, h.stacks_, h.silence, h.unique⟩
  rw [catAt_setCat]
  split
  · exact hr
  · exact h.cats d

theorem categoryLaw_insert {r : CategoryRecord} (h : Safety.CategoryLaw r) (e : Element) :
    Safety.CategoryLaw { latch := true, pending := insertElement e r.pending } :=
  ⟨⟨fun _ => insertElement_ne_nil e _, fun _ => rfl⟩, insertElement_sorted e h.2⟩

theorem UnitLaw.raiseIn {u : AlertUnit} (h : UnitLaw u) (mode : Nesting) (c : Category) (e : Element) :
    UnitLaw (raiseIn mode c e u) := (h.setCat c (categoryLaw_insert (h.cats c) e)).evalLines mode

/-- A chain of raises keeps the laws and, but for no raise at all, lights the lines anew. -/
theorem RaiseChain.laws {mode : Nesting} {K : Category → Prop} {e : Element} {u v : AlertUnit}
    (h : RaiseChain mode K e u v) (hu : UnitLaw u ∧ LinesLit mode u) : UnitLaw v ∧ LinesLit mode v := by
  induction h with
  | refl => exact hu
  | raise _ _ ih => exact ⟨ih.1.raiseIn mode _ e, evalLines_lit mode _⟩

/-! ## A station's record replaced -/

/-- A station's record replaced by one with a lawful stack, whose categories no other station serves. -/
theorem UnitLaw.withStation {u : AlertUnit} (h : UnitLaw u) (st : Station) {r : AlertStation}
    (hr : Safety.StackLaw r.stack) (hs : r.silence ≤ 10)
    (hu : ∀ e ∈ r.stack, ∀ o, o ≠ st → inServiceAt u o e.category = false) : UnitLaw (setAlertAt st r u) := by
  have hown (o : Station) (ho : o ≠ st) (c : Category) :
      inServiceAt (setAlertAt st r u) o c = inServiceAt u o c := by
    simp only [inServiceAt, alertAt_setAlertAt, if_neg ho]
  have hnew (c : Category) (hc : inServiceAt (setAlertAt st r u) st c = true) (o : Station) (ho : o ≠ st) :
      inServiceAt u o c = false := by
    rw [inServiceAt_iff, alertAt_setAlertAt_same] at hc
    obtain ⟨e, he, rfl⟩ := hc
    exact hu e he o ho
  refine ⟨h.cats, fun o => ?_, fun o => ?_, fun a o c ha ho => ?_⟩
  · rw [alertAt_setAlertAt]
    split
    · exact hr
    · exact h.stacks_ o
  · rw [alertAt_setAlertAt]
    split
    · exact hs
    · exact h.silence o
  · by_cases hast : a = st <;> by_cases host : o = st
    · rw [hast, host]
    · subst hast
      rw [hown o host, hnew c ha o host] at ho
      contradiction
    · subst host
      rw [hown a hast, hnew c ho a hast] at ha
      contradiction
    · exact h.unique a o c (hown a hast c ▸ ha) (hown o host c ▸ ho)

/-- Categories in service at a station are so nowhere else. -/
theorem UnitLaw.others_free {u : AlertUnit} (h : UnitLaw u) {st : Station} {e : ServiceEntry}
    (he : e ∈ (alertAt u st).stack) (o : Station) (ho : o ≠ st) : inServiceAt u o e.category = false := by
  by_contra hn
  refine ho (h.unique o st e.category (by simpa using hn) ?_)
  exact (inServiceAt_iff u st e.category).mpr ⟨e, he, rfl⟩

/-- A station's mask, line or silence count replaced. -/
theorem UnitLaw.sameStack {u : AlertUnit} (h : UnitLaw u) (st : Station) {r : AlertStation}
    (hr : r.stack = (alertAt u st).stack) (hs : r.silence ≤ 10) : UnitLaw (setAlertAt st r u) :=
  h.withStation st (hr ▸ h.stacks_ st) hs (hr ▸ fun _ he => h.others_free he)

theorem UnitLaw.hearStation {u : AlertUnit} (h : UnitLaw u) (st : Station) : UnitLaw (hearStation st u) :=
  h.sameStack (r := { alertAt u st with silence := 0 }) st rfl (Nat.zero_le _)

theorem UnitLaw.countSilence {u : AlertUnit} (h : UnitLaw u) (st : Station) : UnitLaw (countSilence st u) :=
  h.sameStack (r := { alertAt u st with silence := min ((alertAt u st).silence + 1) 10 }) st rfl
    (Nat.min_le_right _ _)

theorem UnitLaw.maskIn {u : AlertUnit} (h : UnitLaw u) (mode : Nesting) (st : Station) (m : List Category) :
    UnitLaw (maskIn mode st m u) := (h.sameStack (r := { alertAt u st with mask := m }) st rfl (h.silence st)).evalLines mode

/-- A silence count changed leaves every line as lit as it was. -/
theorem LinesLit.setSilence {mode : Nesting} {u : AlertUnit} (h : LinesLit mode u) (st : Station) (n : Nat) :
    LinesLit mode (setAlertAt st { alertAt u st with silence := n } u) := by
  intro o
  have hs (o : Station) : (alertAt (setAlertAt st { alertAt u st with silence := n } u) o).mask = (alertAt u o).mask
      ∧ (alertAt (setAlertAt st { alertAt u st with silence := n } u) o).stack = (alertAt u o).stack
      ∧ (alertAt (setAlertAt st { alertAt u st with silence := n } u) o).line = (alertAt u o).line := by
    rw [alertAt_setAlertAt]
    split
    · next e => subst e; exact ⟨rfl, rfl, rfl⟩
    · exact ⟨rfl, rfl, rfl⟩
  have he (c : Category) := eligible_congr (mode := mode) (u := u)
    (v := setAlertAt st { alertAt u st with silence := n } u) (fun c => rfl) (fun o => ⟨(hs o).1, (hs o).2.1⟩) o c
  simp only [he, (hs o).2.2, h o]

/-! ## Take, release, silence release -/

/-- The conditions of eligibility (R153, R154). -/
theorem eligible_iff (mode : Nesting) (u : AlertUnit) (st : Station) (c : Category) :
    eligible mode u st c = true ↔ mayTake mode u st c := by
  have hnum (c : Category) : categoryNumber c = numberOf c := by cases c <;> rfl
  have hserv : inService u c = false ↔ ∀ o, ∀ e ∈ (alertAt u o).stack, e.category ≠ c := by
    rw [← Bool.not_eq_true, inService_iff]
    push Not
    rfl
  have hnest (stack : List ServiceEntry) : nestingTest mode stack c = true
      ↔ ∀ top ∈ stack.head?, mode = .nested ∧ numberOf c < numberOf top.category := by
    cases stack with
    | nil => simp [nestingTest]
    | cons top rest => cases mode <;> simp [nestingTest, hnum]
  simp only [eligible, Bool.and_eq_true, Bool.not_eq_true', hserv, hnest, mayTake]
  simp only [List.contains_eq_mem, decide_eq_false_iff_not, and_assoc]

theorem eligibleFor_eq_cons {mode : Nesting} {u : AlertUnit} {st : Station} {c : Category} {cs : List Category}
    (h : eligibleFor mode u st = c :: cs) : mayTake mode u st c := by
  have hc : c ∈ eligibleFor mode u st := by simp [h]
  exact (eligible_iff mode u st c).mp (List.mem_filter.mp hc).2

/-- The unit after a take of category c (R155). -/
def takenUnit (mode : Nesting) (st : Station) (c : Category) (u : AlertUnit) : AlertUnit :=
  evalLines mode (setCat c ⟨false, []⟩
    (setAlertAt st { alertAt u st with stack := ⟨c, (catAt u c).pending⟩ :: (alertAt u st).stack } u))

/-- A take finds nothing eligible, or takes the eligible category of highest priority (R155). -/
theorem takeIn_cases (mode : Nesting) (st : Station) (u : AlertUnit) :
    (eligibleFor mode u st = [] ∧ takeIn mode st u = (none, u))
      ∨ ∃ c cs, eligibleFor mode u st = c :: cs ∧ takeIn mode st u
          = (some ⟨c, (catAt u c).pending⟩, takenUnit mode st c u) := by
  unfold takeIn
  split
  · next h => exact .inl ⟨h, rfl⟩
  · next c cs h => exact .inr ⟨c, cs, h, rfl⟩

theorem UnitLaw.takenUnit {mode : Nesting} {st : Station} {c : Category} {u : AlertUnit} (h : UnitLaw u)
    (hc : mayTake mode u st c) : UnitLaw (takenUnit mode st c u) := by
  obtain ⟨hlatch, -, hfree, hnest⟩ := hc
  obtain ⟨hset, hsorted⟩ := h.cats c
  refine UnitLaw.evalLines (UnitLaw.setCat ?_ c ⟨by simp, List.Pairwise.nil⟩) mode
  refine h.withStation st ⟨List.pairwise_cons.mpr ⟨fun e he => ?_, (h.stacks_ st).1⟩, fun e he => ?_⟩ (h.silence st)
    fun e he o ho => ?_
  · have hnum (d : Category) : categoryNumber d = numberOf d := by cases d <;> rfl
    rw [hnum, hnum]
    have hsort := (h.stacks_ st).1
    cases hst : (alertAt u st).stack with
    | nil => rw [hst] at he; simp at he
    | cons top rest =>
      rw [hst] at hnest he hsort
      have htop := (hnest top rfl).2
      rcases List.mem_cons.mp he with rfl | he
      · exact htop
      · have := List.rel_of_pairwise_cons hsort he
        rw [hnum, hnum] at this
        exact htop.trans this
  · rcases List.mem_cons.mp he with rfl | he
    · exact ⟨hset.mp hlatch, hsorted⟩
    · exact (h.stacks_ st).2 e he
  · rcases List.mem_cons.mp he with rfl | he
    · by_contra hn
      obtain ⟨e, he, hec⟩ := (inServiceAt_iff u o c).mp (by simpa using hn)
      exact hfree o e he hec
    · exact h.others_free he o ho

theorem takeIn_laws {mode : Nesting} (st : Station) {u : AlertUnit} (h : UnitLaw u ∧ LinesLit mode u) :
    UnitLaw (takeIn mode st u).2 ∧ LinesLit mode (takeIn mode st u).2 := by
  rcases takeIn_cases mode st u with ⟨-, e⟩ | ⟨c, cs, hc, e⟩ <;> rw [e]
  · exact h
  · exact ⟨h.1.takenUnit (eligibleFor_eq_cons hc), evalLines_lit mode _⟩

/-- A release pops the top entry when it is of the category named (R156). -/
theorem releaseIn_eq_some {mode : Nesting} {st : Station} {c : Category} {u v : AlertUnit}
    (h : releaseIn mode st c u = some v) : ∃ top rest, (alertAt u st).stack = top :: rest ∧ top.category = c
      ∧ v = evalLines mode (setAlertAt st { alertAt u st with stack := rest } u) := by
  unfold releaseIn at h
  split at h
  · cases h
  · next top rest hs =>
    split at h
    · next hc => cases h; exact ⟨top, rest, hs, hc, rfl⟩
    · cases h

theorem StackLaw_tail {top : ServiceEntry} {rest : List ServiceEntry} (h : Safety.StackLaw (top :: rest)) :
    Safety.StackLaw rest := ⟨(List.pairwise_cons.mp h.1).2, fun e he => h.2 e (List.mem_cons_of_mem _ he)⟩

theorem releaseIn_laws {mode : Nesting} {st : Station} {c : Category} {u v : AlertUnit} (h : UnitLaw u)
    (hv : releaseIn mode st c u = some v) : UnitLaw v ∧ LinesLit mode v := by
  obtain ⟨top, rest, hs, -, rfl⟩ := releaseIn_eq_some hv
  refine ⟨UnitLaw.evalLines ?_ mode, evalLines_lit mode _⟩
  exact h.withStation st (StackLaw_tail (hs ▸ h.stacks_ st)) (h.silence st)
    fun e he => h.others_free (hs ▸ List.mem_cons_of_mem top he)

/-- The merge-back of lawful entries keeps the laws (R160, R161). -/
theorem UnitLaw.mergeEntries {u : AlertUnit} (h : UnitLaw u) {l : List ServiceEntry} (hl : ∀ e ∈ l, e.set ≠ []) :
    UnitLaw (l.foldr mergeEntry u) := by
  induction l with
  | nil => exact h
  | cons e l ih =>
    have hi := ih fun e he => hl e (List.mem_cons_of_mem _ he)
    exact hi.setCat e.category ⟨⟨fun _ => unionElements_ne_nil (hl e List.mem_cons_self) _, fun _ => rfl⟩,
      unionElements_sorted _ (hi.cats e.category).2⟩

@[simp] theorem alertAt_mergeEntries (l : List ServiceEntry) (u : AlertUnit) (st : Station) :
    alertAt (l.foldr mergeEntry u) st = alertAt u st := by
  induction l with
  | nil => rfl
  | cons e l ih => exact ih

/-- The unit after the silence release of a station (R160). -/
def releasedUnit (mode : Nesting) (st : Station) (u : AlertUnit) : AlertUnit :=
  evalLines mode (setAlertAt st { alertAt u st with stack := [] } ((alertAt u st).stack.foldr mergeEntry u))

theorem silenceReleaseIn_cases (mode : Nesting) (st : Station) (u : AlertUnit) :
    ((alertAt u st).silence = 10 ∧ (alertAt u st).stack ≠ [] ∧ silenceReleaseIn mode st u = releasedUnit mode st u)
      ∨ (((alertAt u st).silence ≠ 10 ∨ (alertAt u st).stack = []) ∧ silenceReleaseIn mode st u = u) := by
  unfold silenceReleaseIn
  dsimp only
  split
  · next h => exact .inl ⟨h.1, h.2, rfl⟩
  · next h => exact .inr ⟨by tauto, rfl⟩

theorem UnitLaw.releasedUnit {u : AlertUnit} (h : UnitLaw u) (mode : Nesting) (st : Station) :
    UnitLaw (releasedUnit mode st u) := by
  refine UnitLaw.evalLines ?_ mode
  refine (h.mergeEntries fun e he => ((h.stacks_ st).2 e he).1).withStation st ⟨List.Pairwise.nil, by simp⟩ (h.silence st)
    (by simp)

theorem silenceReleaseIn_laws {mode : Nesting} (st : Station) {u : AlertUnit} (h : UnitLaw u ∧ LinesLit mode u) :
    UnitLaw (silenceReleaseIn mode st u) ∧ LinesLit mode (silenceReleaseIn mode st u) := by
  rcases silenceReleaseIn_cases mode st u with ⟨-, -, e⟩ | ⟨-, e⟩ <;> rw [e]
  · exact ⟨h.1.releasedUnit mode st, evalLines_lit mode _⟩
  · exact h

/-- What every turn of a list of operations keeps, the whole list keeps. -/
theorem foldl_inv {α β : Type} {P : β → Prop} {g : β → α → β} (h : ∀ x a, P x → P (g x a)) (l : List α) {x : β}
    (hx : P x) : P (l.foldl g x) := by
  induction l generalizing x with
  | nil => exact hx
  | cons a l ih => exact ih (h x a hx)

theorem alertMinute_laws {mode : Nesting} {u : AlertUnit} (h : UnitLaw u ∧ LinesLit mode u) :
    UnitLaw (alertMinute mode u) ∧ LinesLit mode (alertMinute mode u) := by
  have hcount : UnitLaw (allStations.foldl (fun u st => countSilence st u) u)
      ∧ LinesLit mode (allStations.foldl (fun u st => countSilence st u) u) :=
    foldl_inv (P := fun u => UnitLaw u ∧ LinesLit mode u)
      (fun u st hu => ⟨hu.1.countSilence st, hu.2.setSilence st _⟩) allStations h
  exact foldl_inv (P := fun u => UnitLaw u ∧ LinesLit mode u) (fun u st hu => silenceReleaseIn_laws st hu) allStations
    hcount

/-! ## Every command -/

/-- The alert unit's laws and the meaning of its lines under the nesting mode in force. -/
def Lit (s : State) : Prop := UnitLaw s.alert ∧ LinesLit s.run.settings.nesting s.alert

theorem lit_iff (s : State) : Lit s ↔ Safety.AlertLaw s.alert ∧ Safety.LineLaw s := by
  rw [Lit, alertLaw_iff, lineLaw_iff]

theorem Lit.congr {s t : State} (h : Lit s) (hr : t.run.settings = s.run.settings) (ha : t.alert = s.alert) : Lit t := by
  unfold Lit
  rw [hr, ha]
  exact h

/-- A state whose alert unit is replaced by a lawful one. -/
theorem Lit.ofUnit {s : State} {u : AlertUnit} (h : UnitLaw u ∧ LinesLit s.run.settings.nesting u) :
    Lit { s with alert := u } := h

theorem Lit.actsOn {b : Bay} {K : Category → Prop} {s t : State} (h : Lit s) (k : ActsOn b K s t) : Lit t := by
  unfold Lit
  rw [k.run]
  exact k.alert.laws h

theorem Lit.settle {s : State} (h : Lit s) : Lit (settle s) := h.congr (settle_keeps s).settings (settle_alert s)

theorem Lit.raiseAlert {s : State} (h : Lit s) (c : Category) (e : Element) : Lit (raiseAlert c e s) :=
  ⟨h.1.raiseIn _ c e, evalLines_lit _ _⟩

theorem Lit.serveLoop {s : State} (h : Lit s) : Lit (serveLoop s) :=
  h.congr (by rw [serveLoop_run]) (serveLoop_alert s)

theorem Lit.startRound {s : State} (h : Lit s) : Lit (startRound s) := by
  unfold Machine.startRound
  dsimp only
  split
  · exact h.congr (by rw [endRound_run]) (by rw [endRound_alert])
  · exact Lit.raiseAlert (s := { s with loop := _ }) h _ _

theorem Lit.forBays {g : Bay → State → State} {K : Category → Prop} (hg : ∀ b s, ActsOn b K s (g b s)) {s : State}
    (h : Lit s) : Lit (forBays g s) := foldl_inv (P := Lit) (fun t b ht => ht.actsOn (hg b t)) allBays h

theorem Lit.withFreeOrder {g : State → State} {s : State} (h : Lit (g s)) : Lit (withFreeOrder g s) := by
  rcases withFreeOrder_cases g s with e | ⟨q, -, e⟩ <;> rw [e]
  · exact h
  · exact h.congr rfl rfl

theorem Lit.takeMoments {s : State} (h : Lit s) (ms : List Moment) : Lit (takeMoments ms s) :=
  foldl_inv (P := Lit) (fun t m ht => ht.actsOn (takeMoment_actsOn m t)) ms (h.congr rfl rfl)

theorem Lit.shedWalk {s : State} (h : Lit s) (f : FeederIx) : Lit (shedWalk f s) :=
  foldl_inv (P := Lit) (fun t b ht => by
    unfold walkStep
    dsimp only
    split
    · exact ht
    · split
      · exact ht.actsOn (shed_actsOn f b t)
      · exact ht) _ h

theorem Lit.budgetChanged {s : State} (h : Lit s) (f : FeederIx) (old : Nat) : Lit (budgetChanged f old s) := by
  unfold Machine.budgetChanged
  dsimp only
  split
  · exact h.congr rfl rfl
  · split
    · exact h.shedWalk f
    · exact h

theorem writeNumber_nesting (id v : Nat) (g : Settings) :
    (writeNumber id v g).nesting = g.nesting := by
  unfold writeNumber
  split <;> rfl

/-- A stored setting changes the loss limit or the nesting mode, not both (R32). -/
theorem storeSetting_nesting {id v : Nat} {g g' : Settings} {clamped : Bool}
    (h : storeSetting id v g = some (g', clamped)) : g'.nesting = g.nesting ∨ g'.lossLimit = g.lossLimit := by
  unfold storeSetting at h
  split at h
  · cases h; exact .inl (writeNumber_nesting _ _ _)
  · split at h
    · cases h; exact .inr rfl
    · split at h
      · cases h; exact .inl rfl
      · cases h

theorem Lit.settingChanged {s : State} {g : Settings} (h : Lit s)
    (hg : g.nesting = s.run.settings.nesting ∨ g.lossLimit = s.run.settings.lossLimit) :
    Lit (settingChanged s.run.settings { s with run := { s.run with settings := g } }) := by
  have hstored (hn : g.nesting = s.run.settings.nesting) : Lit { s with run := { s.run with settings := g } } := by
    refine ⟨h.1, ?_⟩
    show LinesLit g.nesting s.alert
    rw [hn]
    exact h.2
  unfold Machine.settingChanged
  split
  · next hl =>
    have hn : g.nesting = s.run.settings.nesting := hg.resolve_right fun e => hl e.symm
    exact ((Lit.forBays (limitBay_actsOn g.lossLimit) (hstored hn)).withFreeOrder
      (g := Machine.forBays (limitBay g.lossLimit))).settle
  · split
    · exact ⟨h.1.evalLines _, evalLines_lit _ _⟩
    · next hn => exact hstored (not_not.mp hn).symm

theorem AnswerEffect.lit {st : Station} {s t : State} (he : AnswerEffect st s t) (h : Lit s) : Lit t := by
  have hmod (b : Bay) (g : BayRecord → BayRecord) : Lit (modBay b g s) := h.congr rfl rfl
  cases he with
  | same => exact h
  | arrive b i c d => exact (hmod b _).serveLoop
  | depart b => exact (h.actsOn (departBay_actsOn b (fun _ => False) s)).settle
  | departure b d => exact hmod b _
  | bayData b c f a =>
    unfold storeBayData
    dsimp only
    split
    · exact Lit.settle (h.congr rfl rfl)
    · exact hmod b _
  | close b => exact hmod b _
  | opened b => exact h.congr rfl rfl
  | mark b m =>
    unfold setMark
    dsimp only
    split
    · exact hmod b _
    · cases m with
      | hold => exact ((hmod b _).actsOn (endBusiness_actsOn b _ _)).settle
      | fuelOrdered => exact hmod b _
      | noDiesel => exact hmod b _
  | unmark b m =>
    unfold clearMark
    dsimp only
    split
    · cases m with
      | noDiesel => exact Lit.settle (h.congr rfl rfl)
      | hold => exact hmod b _
      | fuelOrdered => exact hmod b _
    · exact hmod b _
  | defrostNow b => exact (h.actsOn (joinQueue_actsOn b (fun _ => False) _ s)).settle
  | withdraw b => exact (h.actsOn (endBusiness_actsOn b _ s)).settle
  | budget f v =>
    have h0 : Lit (setBudget f (storedBudget v).1 s) := h.congr rfl rfl
    exact (h0.budgetChanged f _).settle
  | budgets v =>
    unfold changeBudgets
    refine (foldl_inv (P := Lit) (fun t f ht => ht.budgetChanged f _) allFeeders ?_).settle
    exact foldl_inv (P := Lit) (fun t f ht => ht.congr rfl rfl) allFeeders h
  | release b => exact (h.actsOn (endEpisode_actsOn b _ s)).settle
  | permit b minutes =>
    unfold storePermit
    dsimp only
    split
    · exact (hmod b _).takeMoments _
    · exact hmod b _
  | clearFlags b => exact hmod b _
  | clearAllFlags => exact h.congr (by rw [mapBays_run]) (mapBays_alert _ s)
  | feederFlags f => exact h.congr rfl rfl
  | takeAlert =>
    have hu := takeIn_laws (mode := s.run.settings.nesting) st h
    exact Lit.ofUnit (s := s) hu
  | releaseAlert c u hu => exact Lit.ofUnit (releaseIn_laws h.1 hu)
  | alertMask m => exact Lit.ofUnit ⟨h.1.maskIn _ st m, evalLines_lit _ _⟩
  | begin => exact (Lit.startRound (s := setRunState .running s) (h.congr rfl rfl)).serveLoop
  | halt =>
    exact (Lit.withFreeOrder (g := Machine.forBays fun b => endBusiness b .halt)
      (Lit.forBays (fun b t => endBusiness_actsOn b .halt t)
        (Lit.congr (t := stopSchedule (setRunState .halting s)) h rfl rfl))).settle
  | setting id v g c hs => exact h.settingChanged (storeSetting_nesting hs)

theorem Lit.takeSecond {s : State} (h : Lit s) : Lit (takeSecond s) := by
  have h0 : Lit (advanceSecond s) := by
    unfold advanceSecond
    split <;> exact h.congr rfl rfl
  have h1 : Lit (countOpenings (advanceSecond s)) :=
    h0.congr (countOpenings_keeps _).settings (by unfold countOpenings; exact mapBays_alert _ _)
  unfold Machine.takeSecond countRound
  dsimp only
  split
  · exact h1.takeMoments _
  · split
    · exact (h1.takeMoments _).startRound.serveLoop
    · exact (h1.takeMoments _).congr rfl rfl

theorem Lit.takeMinute {s : State} (h : Lit s) : Lit (takeMinute s) := by
  have h1 : Lit (countMinutes (advanceMinute s)) :=
    h.congr (countMinutes_keeps (advanceMinute s)).settings (by unfold countMinutes; exact mapBays_alert _ _)
  have h2 : Lit (minuteTimeouts (Machine.takeMoments (minuteEndings s) (countMinutes (advanceMinute s)))) := by
    unfold minuteTimeouts
    split
    · exact ((h1.takeMoments _).takeMoments _).withFreeOrder.serveLoop
    · exact h1.takeMoments _
  unfold Machine.takeMinute countSilences
  exact Lit.ofUnit (alertMinute_laws h2)

theorem Lit.receiveRequest {s : State} (h : Lit s) (st : Station) : Lit (receiveRequest st s) := by
  have hu : UnitLaw (hearStation st s.alert) ∧ LinesLit s.run.settings.nesting (hearStation st s.alert) :=
    ⟨h.1.hearStation st, h.2.setSilence st 0⟩
  unfold Machine.receiveRequest
  exact Lit.ofUnit (s := setSlot st { slotAt s st with inProgress := true } s) hu

theorem Lit.endExchange {s : State} (h : Lit s) (x : Exchange) (j : Judged) : Lit (endExchange x j s) := by
  have h0 (y : Option Exchange) : Lit { s with loop := { s.loop with exchange := y } } := h.congr rfl rfl
  unfold Machine.endExchange
  refine Lit.settle ?_
  split
  · exact h0 _
  · exact (h0 _).actsOn (exchangeResult_actsOn x j _)

theorem Lit.haltTest {s : State} (h : Lit s) : Lit (haltTest s) :=
  h.congr (haltTest_keeps s).settings (haltTest_alert s)

theorem reset_lit (high : Bool) (s : State) : Lit (resetState high s) := by
  have hc (c : Category) : catAt (resetState high s).alert c = ⟨false, []⟩ := by cases c <;> rfl
  have hs (st : Station) : alertAt (resetState high s).alert st = ⟨[], [], 0, false⟩ := by cases st <;> rfl
  have hserv (st : Station) (c : Category) : inServiceAt (resetState high s).alert st c = false := by
    simp [inServiceAt, hs]
  refine ⟨⟨fun c => ?_, fun st => ?_, fun st => ?_, fun st o c h => ?_⟩, fun st => ?_⟩
  · rw [hc]; exact ⟨by simp, List.Pairwise.nil⟩
  · rw [hs]; exact ⟨List.Pairwise.nil, by simp⟩
  · rw [hs]; exact Nat.zero_le _
  · rw [hserv] at h; contradiction
  · rw [hs]
    simp [eligible, hc]

/-- Every command keeps the alert unit's laws and the meaning of its lines. -/
theorem CommandEffect.lit {s t : State} (he : CommandEffect s t) (h : Lit s) : Lit t := by
  cases he with
  | same => exact h
  | reset high => exact reset_lit high s
  | request st r t ha _ => exact (ha.lit (h.receiveRequest st)).congr rfl rfl
  | second => exact h.takeSecond
  | minuteThenSecond => exact h.takeMinute.takeSecond
  | minute => exact h.takeMinute
  | moment m => exact h.actsOn (takeMoment_actsOn m s)
  | timeout b => exact (h.actsOn (takeMoment_actsOn _ s)).serveLoop
  | silence st => exact Lit.ofUnit (silenceReleaseIn_laws st h)
  | round => exact h.startRound.serveLoop
  | gapEnd b k ms v => exact (Lit.serveLoop (s := { s with loop := { s.loop with exchange := none } }) h).haltTest
  | windowOpen b k v => exact h.congr rfl rfl
  | ended x j => exact h.endExchange x j
  | halted => exact h.haltTest
  | general t ha => exact ha.lit h

end Sys2Proof.Machine
end

section
/-! The loop controller's laws (R36, R37, R41, R52): every command keeps them. With the alert unit's laws this settles O59. -/

namespace Sys2Proof.Machine

open Sys2Proof.Claims Sys2Proof.Safety

/-- An exchange is sending its request. -/
def sendingNow (x : Option Exchange) : Prop := ∃ e ∈ x.toList, e.phase = .sending

/-- The loop controller's laws without the part that reads the run state. -/
structure LoopShape (l : LoopControl) : Prop where
  lde : l.lde = true ↔ sendingNow l.exchange
  ltx : l.lde = false → l.ltx = []
  orderRun : l.orderRun ≤ 4
  overruns : l.overruns ≤ 65535

/-- The schedule runs, and a round is in progress, only in RUNNING (R41). -/
structure Schedule (x : RunState) (l : LoopControl) : Prop where
  next : l.nextRound.isSome = true ↔ x = .running
  round : l.round.isSome = true → x = .running

theorem loopLaw_iff (s : State) : LoopLaw s ↔ LoopShape s.loop ∧ Schedule s.run.state s.loop :=
  ⟨fun ⟨h1, h2, h3, h4, h5, h6⟩ => ⟨⟨h1, h2, h3, h4⟩, ⟨h5, h6⟩⟩, fun ⟨h, k⟩ => ⟨h.1, h.2, h.3, h.4, k.1, k.2⟩⟩

theorem sendingNow_some (x : Exchange) : sendingNow (some x) ↔ x.phase = .sending := by simp [sendingNow]

theorem not_sendingNow_none : ¬ sendingNow none := by simp [sendingNow]

/-- Setting the voided flag leaves the phase. -/
theorem VoidedAt.sendingNow_iff {b : Bay} {x y : Option Exchange} (h : VoidedAt b x y) : sendingNow y ↔ sendingNow x := by
  rcases h with rfl | ⟨e, rfl, -, -, rfl⟩
  · exact Iff.rfl
  · rw [sendingNow_some, sendingNow_some]

/-- Orders and an exchange in the same phase do not meet the laws. -/
theorem LoopShape.congr {l m : LoopControl} (h : LoopShape l)
    (he : m = { l with orders := m.orders, exchange := m.exchange })
    (hx : sendingNow m.exchange ↔ sendingNow l.exchange) : LoopShape m := by
  rw [he]
  exact ⟨h.lde.trans hx.symm, h.ltx, h.orderRun, h.overruns⟩

theorem Schedule.congr {x : RunState} {l m : LoopControl} (h : Schedule x l) (hn : m.nextRound = l.nextRound)
    (hr : m.round = l.round) : Schedule x m := ⟨hn ▸ h.next, hr ▸ h.round⟩

/-- The loop controller's laws hold of a state. -/
def LoopOk (s : State) : Prop := LoopShape s.loop ∧ Schedule s.run.state s.loop

theorem LoopOk.congr {s t : State} (h : LoopOk s) (hr : t.run.state = s.run.state) (hl : t.loop = s.loop) : LoopOk t := by
  unfold LoopOk
  rw [hr, hl]
  exact h

theorem LoopOk.actsOn {b : Bay} {K : Category → Prop} {s t : State} (h : LoopOk s) (k : ActsOn b K s t) : LoopOk t := by
  obtain ⟨hshape, hsched⟩ := h
  refine ⟨hshape.congr k.loop k.exchange.sendingNow_iff, ?_⟩
  rw [k.run, k.loop]
  exact hsched.congr rfl rfl

theorem LoopOk.setOrders {s : State} (h : LoopOk s) (q : List Order) : LoopOk (setOrders q s) :=
  ⟨h.1.congr rfl Iff.rfl, h.2.congr rfl rfl⟩

theorem LoopOk.runPass {s : State} (h : LoopOk s) : LoopOk (runPass s) := by
  have hf := (runPass_frame s).loop
  refine ⟨?_, ?_⟩
  · rw [hf]; exact h.1.congr rfl Iff.rfl
  · rw [runPass_run, hf]; exact h.2.congr rfl rfl

theorem LoopOk.endRound {s : State} (h : LoopOk s) : LoopOk (endRound s) := by
  rcases endRound_cases s with e | ⟨p, -, -, -, e⟩ <;> rw [e]
  · exact h
  · exact ⟨⟨h.1.lde, h.1.ltx, h.1.orderRun, h.1.overruns⟩, ⟨h.2.next, fun hr => by simp at hr⟩⟩

/-- An exchange that begins asserts LDE and has its frame on LTX (R37). -/
theorem LoopShape.begun {l : LoopControl} (hr : l.orderRun ≤ 4) (ho : l.overruns ≤ 65535) (b : Bay) (k : ExchangeKind) :
    LoopShape { l with exchange := some ⟨b, k, .sending, false⟩, lde := true, ltx := requestFrame b k } :=
  ⟨by simp [sendingNow_some], by simp, hr, ho⟩

theorem LoopOk.serveLoop {s : State} (h : LoopOk s) : LoopOk (serveLoop s) := by
  rcases serveLoop_cases s with e | ⟨o, rest, -, -, -, e⟩ | ⟨b, -, hr, -, -, e⟩ <;> rw [e]
  · exact h
  · exact ⟨LoopShape.begun (l := { s.loop with orders := rest, orderRun := min (s.loop.orderRun + 1) 4 })
      (Nat.min_le_right _ _) h.1.overruns _ _, h.2.congr rfl rfl⟩
  · exact ⟨LoopShape.begun (l := { s.loop with round := some (bayNumber b), orderRun := 0 }) (Nat.zero_le _)
      h.1.overruns _ _, ⟨h.2.next, fun _ => hr⟩⟩

theorem LoopOk.haltTest {s : State} (h : LoopOk s) : LoopOk (haltTest s) := by
  rcases haltTest_cases s with e | ⟨hs, -, e⟩
  · rw [e]; exact h
  · have hrun : (Machine.haltTest s).run.state = .halted := by rw [e, mapBays_run]
    refine ⟨?_, ?_⟩
    · rw [haltTest_loop]; exact h.1
    · rw [haltTest_loop, hrun]
      refine ⟨?_, fun hr => ?_⟩
      · rw [h.2.next, hs]
        decide
      · have := h.2.round hr
        rw [hs] at this
        contradiction

theorem LoopOk.settle {s : State} (h : LoopOk s) : LoopOk (settle s) := h.runPass.endRound.serveLoop.haltTest

/-- A round start in RUNNING leaves the schedule running (R41). -/
theorem LoopOk.startRound {s : State} (h : LoopShape s.loop) (hr : s.run.state = .running) : LoopOk (startRound s) := by
  have hsched (l : LoopControl) (hn : l.nextRound.isSome = true) : Schedule s.run.state l :=
    ⟨⟨fun _ => hr, fun _ => hn⟩, fun _ => hr⟩
  unfold Machine.startRound
  dsimp only
  split
  · have h0 : LoopOk { s with loop := { s.loop with nextRound := some s.run.settings.pollPeriod, round := some 0 } } :=
      ⟨⟨h.lde, h.ltx, h.orderRun, h.overruns⟩, hsched _ rfl⟩
    exact h0.endRound
  · exact ⟨⟨h.lde, h.ltx, h.orderRun, Nat.min_le_right _ _⟩, hsched _ rfl⟩

theorem LoopOk.takeMoments {s : State} (h : LoopOk s) (ms : List Moment) : LoopOk (takeMoments ms s) :=
  foldl_inv (P := LoopOk) (fun t m ht => ht.actsOn (takeMoment_actsOn m t)) ms
    (x := { s with moments := ms ++ s.moments }) (h.congr rfl rfl)

theorem LoopOk.withFreeOrder {g : State → State} {s : State} (h : LoopOk (g s)) : LoopOk (withFreeOrder g s) := by
  rcases withFreeOrder_cases g s with e | ⟨q, -, e⟩ <;> rw [e]
  · exact h
  · exact (h.setOrders q).congr rfl rfl

theorem LoopOk.forBays {g : Bay → State → State} {K : Category → Prop} (hg : ∀ b s, ActsOn b K s (g b s)) {s : State}
    (h : LoopOk s) : LoopOk (forBays g s) := foldl_inv (P := LoopOk) (fun t b ht => ht.actsOn (hg b t)) allBays h

theorem LoopOk.budgetChanged {s : State} (h : LoopOk s) (f : FeederIx) (old : Nat) : LoopOk (budgetChanged f old s) := by
  have hwalk (t : State) (b : Bay) (ht : LoopOk t) : LoopOk (walkStep f t b) := by
    unfold walkStep
    dsimp only
    split
    · exact ht
    · split
      · exact ht.actsOn (shed_actsOn f b t)
      · exact ht
  unfold Machine.budgetChanged
  dsimp only
  split
  · exact h.congr rfl rfl
  · split
    · exact foldl_inv (P := LoopOk) hwalk _ h
    · exact h

theorem LoopOk.settingChanged {s : State} (h : LoopOk s) (before : Settings) : LoopOk (settingChanged before s) := by
  unfold Machine.settingChanged
  split
  · exact (LoopOk.withFreeOrder (g := Machine.forBays (limitBay s.run.settings.lossLimit))
      (LoopOk.forBays (limitBay_actsOn s.run.settings.lossLimit) h)).settle
  · split
    · exact h
    · exact h

theorem AnswerEffect.loopOk {st : Station} {s t : State} (he : AnswerEffect st s t) (h : LoopOk s) : LoopOk t := by
  have hmod (b : Bay) (g : BayRecord → BayRecord) : LoopOk (modBay b g s) := h.congr rfl rfl
  have howed (b : Bay) (g : BayRecord → BayRecord) : LoopOk (owePass (modBay b g s)) := h.congr rfl rfl
  cases he with
  | same => exact h
  | arrive b i c d => exact (hmod b _).serveLoop
  | depart b => exact (h.actsOn (departBay_actsOn b (fun _ => False) s)).settle
  | departure b d => exact hmod b _
  | bayData b c f a =>
    unfold storeBayData
    dsimp only
    split
    · exact (howed b _).settle
    · exact hmod b _
  | close b => exact hmod b _
  | opened b => exact h.actsOn (emptyRecord_actsOn b (fun _ => False) s)
  | mark b m =>
    unfold setMark
    dsimp only
    split
    · exact hmod b _
    · cases m with
      | hold => exact ((hmod b _).actsOn (endBusiness_actsOn b _ _)).settle
      | fuelOrdered => exact hmod b _
      | noDiesel => exact hmod b _
  | unmark b m =>
    unfold clearMark
    dsimp only
    split
    · cases m with
      | noDiesel => exact (howed b _).settle
      | hold => exact hmod b _
      | fuelOrdered => exact hmod b _
    · exact hmod b _
  | defrostNow b => exact (h.actsOn (joinQueue_actsOn b (fun _ => False) _ s)).settle
  | withdraw b => exact (h.actsOn (endBusiness_actsOn b _ s)).settle
  | budget f v =>
    have h0 : LoopOk (setBudget f (storedBudget v).1 s) := h.congr rfl rfl
    exact (h0.budgetChanged f _).settle
  | budgets v =>
    unfold changeBudgets
    refine (foldl_inv (P := LoopOk) (fun t f ht => ht.budgetChanged f _) allFeeders ?_).settle
    exact foldl_inv (P := LoopOk) (fun t f ht => ht.congr rfl rfl) allFeeders h
  | release b => exact (h.actsOn (endEpisode_actsOn b _ s)).settle
  | permit b minutes =>
    unfold storePermit
    dsimp only
    split
    · exact (hmod b _).takeMoments _
    · exact hmod b _
  | clearFlags b => exact hmod b _
  | clearAllFlags => exact h.congr (by rw [mapBays_run]) (mapBays_loop _ s)
  | feederFlags f => exact h.congr rfl rfl
  | takeAlert => exact h
  | releaseAlert c u hu => exact h
  | alertMask m => exact h
  | begin => exact (LoopOk.startRound (s := setRunState .running s) h.1 rfl).serveLoop
  | halt =>
    have h0 : LoopOk (stopSchedule (setRunState .halting s)) :=
      ⟨⟨h.1.lde, h.1.ltx, h.1.orderRun, h.1.overruns⟩,
        ⟨by simp [stopSchedule, setRunState], by simp [stopSchedule]⟩⟩
    exact (LoopOk.withFreeOrder (g := Machine.forBays fun b => endBusiness b .halt)
      (LoopOk.forBays (fun b t => endBusiness_actsOn b .halt t) h0)).settle
  | setting id v g c hs =>
    have h0 : LoopOk { s with run := { s.run with settings := g } } := h
    exact h0.settingChanged _

theorem LoopOk.withAlert {s : State} (h : LoopOk s) (u : AlertUnit) : LoopOk { s with alert := u } := h

theorem LoopOk.takeSecond {s : State} (h : LoopOk s) : LoopOk (takeSecond s) := by
  have h0 : LoopOk (advanceSecond s) := by
    unfold advanceSecond
    split <;> exact h.congr rfl rfl
  have h1 : LoopOk (countOpenings (advanceSecond s)) := by
    unfold countOpenings
    exact h0.congr (by rw [mapBays_run]) (mapBays_loop _ _)
  have h2 (ms : List Moment) : LoopOk (Machine.takeMoments ms (countOpenings (advanceSecond s))) := h1.takeMoments ms
  unfold Machine.takeSecond countRound
  dsimp only
  split
  · exact h2 _
  · next n hn =>
    have hsome := (h2 _).2.next.mp (by rw [hn]; rfl)
    split
    · exact (LoopOk.startRound (h2 _).1 hsome).serveLoop
    · exact ⟨⟨(h2 _).1.lde, (h2 _).1.ltx, (h2 _).1.orderRun, (h2 _).1.overruns⟩,
        ⟨⟨fun _ => hsome, fun _ => rfl⟩, (h2 _).2.round⟩⟩

theorem LoopOk.takeMinute {s : State} (h : LoopOk s) : LoopOk (takeMinute s) := by
  have h1 : LoopOk (countMinutes (advanceMinute s)) := by
    unfold countMinutes
    exact h.congr (by rw [mapBays_run]; rfl) (mapBays_loop _ _)
  have h2 : LoopOk (minuteTimeouts (Machine.takeMoments (minuteEndings s) (countMinutes (advanceMinute s)))) := by
    unfold minuteTimeouts
    split
    · exact ((h1.takeMoments _).takeMoments _).withFreeOrder.serveLoop
    · exact h1.takeMoments _
  have h3 : LoopOk (countSilences (minuteTimeouts (Machine.takeMoments (minuteEndings s) (countMinutes (advanceMinute s))))) :=
    h2.withAlert _
  simpa only [Machine.takeMinute] using h3

/-- The end of an exchange releases nothing: its request had been sent, so LDE was released (R37). -/
theorem LoopOk.gapStarts {s : State} (h : LoopOk s) {x : Exchange} (hx : s.loop.exchange = some x)
    (hp : x.phase = .awaiting) (ms : Nat) :
    LoopOk { s with loop := { s.loop with exchange := some { x with phase := .gap ms } } } := by
  refine ⟨h.1.congr rfl ?_, h.2.congr rfl rfl⟩
  rw [hx, sendingNow_some, sendingNow_some, hp]
  simp

theorem LoopOk.endExchange {s : State} (h : LoopOk s) {x : Exchange} (hx : s.loop.exchange = some x)
    (hp : x.phase = .awaiting) (j : Judged) : LoopOk (endExchange x j s) := by
  have h0 := h.gapStarts hx hp (gapAfter (judgedOutcome j))
  unfold Machine.endExchange
  refine LoopOk.settle ?_
  split
  · exact h0
  · exact h0.actsOn (exchangeResult_actsOn x j _)

/-- Every command keeps the loop controller's laws. -/
theorem CommandEffect.loopOk {s t : State} (he : CommandEffect s t) (h : LoopOk s) : LoopOk t := by
  cases he with
  | same => exact h
  | reset high =>
    exact ⟨⟨by simp [resetState, State.reset, not_sendingNow_none], fun _ => rfl, Nat.zero_le _, Nat.zero_le _⟩,
      ⟨by simp [resetState, State.reset], by simp [resetState, State.reset]⟩⟩
  | request st r t ha _ => exact (ha.loopOk (h.congr rfl rfl)).congr rfl rfl
  | second => exact h.takeSecond
  | minuteThenSecond => exact h.takeMinute.takeSecond
  | minute => exact h.takeMinute
  | moment m => exact h.actsOn (takeMoment_actsOn m s)
  | timeout b => exact (h.actsOn (takeMoment_actsOn _ s)).serveLoop
  | silence st => exact h
  | round hd =>
    have hn : s.loop.nextRound = some 0 := by simpa [roundDue] using hd
    exact (LoopOk.startRound h.1 (h.2.next.mp (by rw [hn]; rfl))).serveLoop
  | gapEnd b k ms v hx =>
    have h0 : LoopOk { s with loop := { s.loop with exchange := none } } := by
      refine ⟨h.1.congr rfl ?_, h.2.congr rfl rfl⟩
      rw [hx, sendingNow_some]
      simp [not_sendingNow_none]
    exact h0.serveLoop.haltTest
  | windowOpen b k v hx =>
    exact ⟨⟨by simp [sendingNow_some], fun _ => rfl, h.1.orderRun, h.1.overruns⟩, h.2.congr rfl rfl⟩
  | ended x j hx hp => exact h.endExchange hx hp j
  | halted => exact h.haltTest
  | general t ha => exact ha.loopOk h

end Sys2Proof.Machine

namespace Sys2Proof.Proofs

open Sys2Proof.Machine Sys2Proof.Claims

/-- Settles O59: each change a command can make keeps the alert unit's laws (`CommandEffect.lit`) and the loop controller's
(`CommandEffect.loopOk`). -/
theorem stepKeepsAlertAndLoopLaws : Obligations.StepKeepsAlertAndLoopLaws := by
  refine ⟨fun s t ha hl h => ?_, fun s t hl h => ?_⟩
  · rw [← lit_iff]
    exact step_of_effect (P := Lit) (fun s rest h => h) (fun s t hs he => he.lit hs) ((lit_iff s).mpr ⟨ha, hl⟩) h
  · rw [loopLaw_iff]
    exact step_of_effect (P := LoopOk) (fun s rest h => h) (fun s t hs he => he.loopOk hs) ((loopLaw_iff s).mp hl) h

end Sys2Proof.Proofs
end

section
/-! The reset values (R2, R22), the datapath's divide (R65, R66) and the check byte (R174, R175): O3, O4, O57, O47, O10. -/

namespace Sys2Proof.Machine

open Sys2Proof.Claims

/-! ## After reset -/

@[simp] theorem bayAt_reset (b : Bay) : bayAt State.reset b = resetRecord 0 none 16 := by
  simp [bayAt, State.reset, BayRecord.empty, resetRecord, Conds.empty, Defrost.empty]

@[simp] theorem feederAt_reset (f : FeederIx) : feederAt State.reset f = ⟨0, [], false, false⟩ := by
  simp [feederAt, State.reset]

@[simp] theorem catAt_reset (c : Category) : catAt State.reset.alert c = ⟨false, []⟩ := by
  simp [catAt, State.reset]

@[simp] theorem alertAt_reset (st : Station) : alertAt State.reset.alert st = ⟨[], [], 0, false⟩ := by
  simp [alertAt, State.reset]

@[simp] theorem slotAt_reset (st : Station) : slotAt State.reset st = ⟨false, ⟨.noRequest, []⟩⟩ := by
  simp [slotAt, State.reset]

/-- No draw counts after reset, so every feeder's admitted current is 0. -/
theorem admitted_reset (f : FeederIx) : admitted State.reset f = 0 := by
  simp [admitted, admittedDraw, resetRecord]

theorem eligible_reset (mode : Nesting) (st : Station) (c : Category) : eligible mode State.reset.alert st c = false := by
  simp [eligible]

theorem emptied_eq (r : BayRecord) : emptied r = emptiedRecord r := rfl

theorem collectionLaw_reset : Safety.CollectionLaw State.reset := by
  have hq : State.reset.arb.queue = [] := rfl
  have ha : State.reset.arb.active = [] := rfl
  have ho : State.reset.loop.orders = [] := rfl
  exact ⟨⟨by simp [hq], by simp [ha], by simp [ho], fun f => by simp⟩,
    fun b => ⟨by simp [hq, resetRecord], by simp [ha, resetRecord], fun f => by simp [resetRecord]⟩⟩

theorem emptyLaw_reset : Safety.EmptyLaw State.reset := fun b _ => by
  rw [bayAt_reset]; rfl

theorem budgetInv_reset : BudgetInv State.reset := by
  have ho : State.reset.loop.orders = [] := rfl
  have hx : State.reset.loop.exchange = none := rfl
  have hstate (b : Bay) : (bayAt State.reset b).defrost.state = .idle := by rw [bayAt_reset]; rfl
  have hrun : State.reset.run.state = .setup := rfl
  refine ⟨collectionLaw_reset, ⟨by simp [ho], by simp [hx]⟩, fun f => by simp [admitted_reset], fun b _ => ?_,
    ⟨fun _ => ⟨rfl, fun b => ?_⟩, fun _ => ⟨rfl, fun b => .inl (hstate b)⟩, fun h => ?_⟩, emptyLaw_reset, fun b h => ?_,
    fun b _ => ⟨?_, ?_, by simp⟩, by simp [Safety.ExchangeLaw, hx]⟩
  · rw [hstate]; exact ⟨nofun, nofun⟩
  · rw [hstate]; nofun
  · rw [hrun] at h; contradiction
  · rw [bayAt_reset] at h; cases h
  · rw [hstate]; nofun
  · rw [hstate]; nofun

theorem recordLaws_reset (b : Bay) : Safety.BayInRange (bayAt State.reset b) := by
  rw [bayAt_reset]; decide

theorem alertLaw_reset : Safety.AlertLaw State.reset.alert := by
  refine ⟨fun c _ => ?_, fun st _ => ?_, fun st _ st' _ c _ h => ?_⟩
  · rw [catAt_reset]; exact ⟨by decide, .nil⟩
  · rw [alertAt_reset]; exact ⟨⟨.nil, by simp⟩, by decide⟩
  · simp [inServiceAt] at h

/-! ## Multiply and divide -/

theorem accValue_multiply (a b : Nat) : accValue (multiply a b) = a * b := by
  simp only [accValue, multiply]
  omega

/-- The high half is at or above the divisor exactly when the quotient needs more than 16 bits (R66). -/
theorem le_hi_iff {a : Acc} {d : Nat} (hlo : a.lo < 65536) (hd : 1 ≤ d) : d ≤ a.hi ↔ 65535 < accValue a / d := by
  rw [Nat.lt_iff_add_one_le, Nat.le_div_iff_mul_le hd, accValue]
  omega

theorem divide_of_le {a : Acc} {d : Nat} (h : d ≤ a.hi) :
    (divide a d).saturated = true ∧ (divide a d).acc.lo = 65535 := by
  rw [divide, if_pos h]
  exact ⟨rfl, rfl⟩

theorem divide_of_not_le {a : Acc} {d : Nat} (h : ¬ d ≤ a.hi) :
    divide a d = ⟨⟨accValue a % d, accValue a / d⟩, false⟩ := by
  rw [divide, if_neg h]

/-- A quotient magnitude with its dividend's sign is the quotient truncated toward zero (R66). -/
theorem withSign_tdiv (y : Int) (d : Nat) : withSign (decide (y < 0)) (y.natAbs / d) = y.tdiv d := by
  unfold withSign
  rcases lt_or_ge y 0 with h | h
  · obtain ⟨n, rfl⟩ : ∃ n : Nat, y = -n := ⟨y.natAbs, by omega⟩
    rw [if_pos (by simpa using h), Int.natAbs_neg, Int.natAbs_natCast, Int.neg_tdiv, Int.natCast_div,
      Int.tdiv_eq_ediv_of_nonneg (by omega)]
  · obtain ⟨n, rfl⟩ := Int.eq_ofNat_of_zero_le h
    rw [if_neg (by simp), Int.natAbs_natCast, Int.natCast_div, Int.tdiv_eq_ediv_of_nonneg h]

/-! ## The check byte -/

/-- The shift of the check register undone: a set lowest bit tells that the generator was added (R175). -/
def crcUnshift (r : Byte) : Byte := if r.getLsbD 0 then (r ^^^ 0x2F) >>> 1 ||| 0x80 else r >>> 1

theorem crcUnshift_crcShift : ∀ r : Byte, crcUnshift (crcShift r) = r := by decide

theorem crcShift_injective : Function.Injective crcShift :=
  Function.LeftInverse.injective crcUnshift_crcShift

/-- Shifts of the check register, counted by a list. -/
theorem foldl_crcShift_injective (l : List Nat) : Function.Injective fun r => l.foldl (fun r _ => crcShift r) r := by
  induction l with
  | nil => exact Function.injective_id
  | cons _ l ih => exact ih.comp crcShift_injective

theorem crcByte_left_injective (x : Byte) : Function.Injective fun r => crcByte r x := by
  intro r r' h
  have hx : r ^^^ x = r' ^^^ x := foldl_crcShift_injective (List.range 8) h
  simpa using hx

theorem crcByte_right_injective (r : Byte) : Function.Injective (crcByte r) := by
  intro x x' h
  have hx : r ^^^ x = r ^^^ x' := foldl_crcShift_injective (List.range 8) h
  simpa using hx

theorem checkByte_append (l m : List Byte) : checkByte (l ++ m) = m.foldl crcByte (checkByte l) := List.foldl_append

theorem crcByte_self (r : Byte) : crcByte r r = 0 := by
  rw [crcByte, BitVec.xor_self]
  rfl

/-- What follows keeps two different registers different (R175). -/
theorem foldl_crcByte_injective (l : List Byte) : Function.Injective fun r => l.foldl crcByte r := by
  induction l with
  | nil => exact Function.injective_id
  | cons x l ih => exact ih.comp (crcByte_left_injective x)

end Sys2Proof.Machine

namespace Sys2Proof.Proofs

open Sys2Proof.Machine Sys2Proof.Claims

/-- Settles O3: the reset state, field by field. -/
theorem resetEmptiesEveryBlock : Obligations.ResetEmptiesEveryBlock := by
  intro high s
  refine ⟨_, rfl, rfl, rfl, feederAt_reset, rfl, rfl, catAt_reset, alertAt_reset, rfl, fun st => ?_, fun st => rfl⟩
  simp [slotAt, resetState, State.reset]

/-- Settles O4: R2 after RESET and at the emptying of a record, and what the four views then show. -/
theorem resetAndVacancyEmptyRecords : Obligations.ResetAndVacancyEmptyRecords :=
  ⟨fun _ _ => ⟨_, rfl, bayAt_reset⟩,
    fun s b => ⟨by rw [bayAt_becomeVacant, if_pos rfl]; rfl, fun c hc => becomeVacant_others b s c hc⟩,
    fun _ => ⟨rfl, rfl, rfl, rfl⟩⟩

/-- Settles O57. -/
theorem lawsHoldAtReset : Obligations.LawsHoldAtReset := by
  refine ⟨⟨by decide, by decide, recordLaws_reset⟩, ⟨fun b => ?_, fun b c h => ?_⟩, ⟨by decide, fun b => ?_⟩, alertLaw_reset,
    fun st _ => ?_, by decide, budgetInv_reset, ⟨fun b => ?_, fun f => ?_, fun st => ?_⟩, rfl, rfl, fun st _ => ?_⟩
  · rw [bayAt_reset]; rfl
  · rw [bayAt_reset] at h; contradiction
  · rw [bayAt_reset]; decide
  · simp [eligible_reset]
  · simp [resetRecord]
  all_goals simp

/-- Settles O47. -/
theorem divideSaturatesAtTheHighHalf : Obligations.DivideSaturatesAtTheHighHalf := by
  refine ⟨fun a b ha hb => ⟨accValue_multiply a b, ?_, ?_⟩, fun a d _ hlo hd _ => ⟨?_, le_hi_iff hlo hd, ?_, ?_⟩,
    fun x m d _ => ?_⟩
  · have hab : a * b < 65536 * 65536 := Nat.mul_lt_mul'' ha hb
    simp only [multiply]
    omega
  · exact Nat.mod_lt _ (by decide)
  · refine ⟨fun h => ?_, fun h => (divide_of_le h).1⟩
    by_contra hn
    rw [divide_of_not_le hn] at h
    contradiction
  · exact fun h => (divide_of_le h).2
  · intro h
    rw [divide_of_not_le h]
    exact ⟨rfl, rfl⟩
  · have hm : x.natAbs * m = (x * m).natAbs := by rw [Int.natAbs_mul, Int.natAbs_natCast]
    rw [hm]
    exact withSign_tdiv (x * m) d

/-- Settles O10, by the check register's shifts being undoable. -/
theorem checkByteCatchesOneByte : Obligations.CheckByteCatchesOneByte := by
  refine ⟨fun bytes => ?_, fun pre post x y hxy h => hxy ?_, fun b => rfl, fun b => rfl, fun b resume => ?_⟩
  · rw [checkByte_append, List.foldl_cons, List.foldl_nil, crcByte_self]
  · simp only [checkByte_append, List.foldl_cons] at h
    exact crcByte_right_injective _ (foldl_crcByte_injective post h)
  · cases resume <;> rfl

end Sys2Proof.Proofs
end

section
/-! The bay loop's reply frames, assembled and judged (R38, R39, R174): O11, O12. -/

namespace Sys2Proof.Machine

open Sys2Proof.Claims

/-! ## Assembly -/

/-- Characters of which none opens a frame are dropped (R38). -/
theorem seekSync_append {noise : List RxChar} (h : noSync noise) (cs : List RxChar) :
    seekSync (noise ++ cs) = seekSync cs := by
  induction noise with
  | nil => rfl
  | cons c noise ih =>
    obtain ⟨hc, htail⟩ := List.forall_mem_cons.mp h
    exact (if_neg hc).trans (ih htail)

/-- A frame of the length its kind fixes is assembled after the noise, and what follows it is left out (R38). -/
theorem assembleReply_frame {noise after tail : List RxChar} {n k : RxChar} {kind : ReplyKind} (hn : noSync noise)
    (hk : replyKindOf k.byte = some kind) (hl : tail.length + 3 = replyLength kind) :
    assembleReply (noise ++ (⟨0xC3, true⟩ :: n :: k :: tail) ++ after)
      = .complete kind (⟨0xC3, true⟩ :: n :: k :: tail) := by
  have hseek : seekSync (noise ++ (⟨0xC3, true⟩ :: n :: k :: tail) ++ after)
      = ⟨0xC3, true⟩ :: n :: k :: (tail ++ after) := by
    rw [List.append_assoc, seekSync_append hn]
    exact if_pos ⟨rfl, rfl⟩
  have htake : (⟨0xC3, true⟩ :: n :: k :: (tail ++ after) : List RxChar).take (replyLength kind)
      = ⟨0xC3, true⟩ :: n :: k :: tail := by
    rw [← hl]
    simp
  unfold assembleReply
  simp only [hseek, hk]
  rw [if_pos (by simp; omega), htake]

/-! ## Judging -/

theorem map_byte_replyChars (covered : List Byte) (check : Byte) :
    (replyChars covered check).map (·.byte) = 0xC3 :: covered ++ [check] := by
  have hid : ((fun x : RxChar => x.byte) ∘ fun x : Byte => (⟨x, true⟩ : RxChar)) = id := rfl
  simp [replyChars, hid]

theorem covered_replyChars (covered : List Byte) (check : Byte) :
    ((replyChars covered check).map (·.byte)).tail.dropLast = covered := by
  rw [map_byte_replyChars, List.cons_append, List.tail_cons, List.dropLast_concat]

/-- A frame with every stop bit there passes test 1 of R39 exactly when it ends with the check byte of its covered bytes. -/
theorem frameCheckOk_replyChars (covered : List Byte) (check : Byte) :
    frameCheckOk (replyChars covered check) = decide (check = checkByte covered) := by
  have hall : (replyChars covered check).all (·.stopOk) = true := by simp [replyChars]
  have hlast : ((replyChars covered check).map (·.byte)).getLast? = some check := by
    rw [map_byte_replyChars, List.getLast?_concat]
  simp only [frameCheckOk, hall, hlast, covered_replyChars, Bool.true_and, Option.some.injEq]

theorem judge_badCheck {x : Exchange} {kind : ReplyKind} {frame : List RxChar} (h : frameCheckOk frame = false) :
    judge x kind frame = .failed .badCheck := by
  rw [judge, if_pos h]

/-- A frame from another bay's node is a WRONG-REPLY (R39). -/
theorem judge_otherNode {x : Exchange} {kind : ReplyKind} {node : Byte} {data : List Byte}
    (hn : node ≠ byteOf (bayNumber x.bay)) :
    judge x kind (replyChars (node :: data) (checkByte (node :: data))) = .failed .wrongReply := by
  unfold judge
  simp only [frameCheckOk_replyChars, covered_replyChars, decide_true, Bool.true_eq_false, if_false, List.headD_cons]
  rw [if_pos hn]

/-- A TELEMETRY frame from the polled bay is judged by its fields (R39). -/
theorem judge_telemetry (b : Bay) (phase : Phase) (voided : Bool) (kind : Byte) (data : List Byte) :
    judge ⟨b, .poll, phase, voided⟩ .telemetry (replyChars (bayByte b :: kind :: data) (checkByte (bayByte b :: kind :: data)))
      = (telemetryOf data).elim (.failed .wrongReply) .telemetry := by
  unfold judge
  simp only [frameCheckOk_replyChars, covered_replyChars, decide_true, Bool.true_eq_false, if_false, List.headD_cons,
    List.drop_succ_cons, List.drop_zero]
  rw [if_neg (by rw [not_not]; rfl)]
  cases telemetryOf data <;> rfl

/-- An ORDER-ACK from the bay of an order is judged by its result byte (R39). -/
theorem judge_orderAck (b : Bay) (o : OrderKind) (phase : Phase) (voided : Bool) (r : AckResult) :
    judge ⟨b, .order o, phase, voided⟩ .orderAck (replyChars (ackBytes b r) (checkByte (ackBytes b r)))
      = if ackAllowed o r then .ack r else .failed .wrongReply := by
  have hr : ackOfByte (ackByte r) = some r := by cases r <;> rfl
  unfold judge
  simp only [frameCheckOk_replyChars, covered_replyChars, decide_true, Bool.true_eq_false, if_false, ackBytes,
    List.headD_cons, List.drop_succ_cons, List.drop_zero, hr]
  rw [if_neg (by rw [not_not]; rfl)]

/-- A frame of the other reply kind is a WRONG-REPLY to the request sent (R39). -/
theorem judge_otherKind {x : Exchange} {kind : ReplyKind} {node : Byte} {data : List Byte}
    (h : (∃ o, x.kind = .order o ∧ kind = .telemetry) ∨ x.kind = .poll ∧ kind = .orderAck) :
    judge x kind (replyChars (node :: data) (checkByte (node :: data))) = .failed .wrongReply := by
  unfold judge
  simp only [frameCheckOk_replyChars, covered_replyChars, decide_true, Bool.true_eq_false, if_false]
  split
  · rfl
  · rcases h with ⟨o, hx, rfl⟩ | ⟨hx, rfl⟩ <;> rw [hx]

/-! ## Fields -/

/-- A half sent in two bytes and put together again is itself. -/
theorem half16_two (h : Half) : half16 (BitVec.ofNat 8 (h.toNat / 256)) (BitVec.ofNat 8 h.toNat) = h := by
  apply BitVec.eq_of_toNat_eq
  have hlt := h.isLt
  simp only [half16, word16, BitVec.toNat_ofNat]
  omega

/-- The nine data bytes of a TELEMETRY frame (R174). -/
def fieldBytes (m src d : Byte) (x : Snapshot) : List Byte :=
  [m, src, d] ++ two x.tc.toNat ++ two x.tr.toNat ++ two x.p.toNat

theorem codedBytes_eq (b : Bay) (m src d : Byte) (x : Snapshot) :
    codedBytes b m src d x = bayByte b :: 0x81 :: fieldBytes m src d x := rfl

theorem telemetryOf_fieldBytes {m src d : Byte} {mode : Mode} {source : Source} {door : DoorReport}
    (hm : modeOfByte m = some mode) (hs : sourceOfByte src = some source) (hd : doorReportOfByte d = some door)
    (x : Snapshot) : telemetryOf (fieldBytes m src d x) = some ⟨mode, source, door, x.tc, x.tr, x.p⟩ := by
  simp only [fieldBytes, two, List.cons_append, List.nil_append, telemetryOf, half16_two, hm, hs, hd]

theorem modeOfByte_modeByte (m : Mode) : modeOfByte (modeByte m) = some m := by cases m <;> rfl

theorem sourceOfByte_sourceByte (x : Source) : sourceOfByte (sourceByte x) = some x := by cases x <;> rfl

theorem doorReportOfByte_doorByte (x : DoorReport) : doorReportOfByte (doorByte x) = some x := by cases x <;> rfl

theorem modeOfByte_eq_none {x : Byte} (h : 4 < x.toNat) : modeOfByte x = none := by
  unfold modeOfByte
  split <;> simp_all

theorem sourceOfByte_eq_none {x : Byte} (h : 1 < x.toNat) : sourceOfByte x = none := by
  unfold sourceOfByte
  split <;> simp_all

theorem doorReportOfByte_eq_none {x : Byte} (h : x.toNat = 2 ∨ 3 < x.toNat) : doorReportOfByte x = none := by
  unfold doorReportOfByte
  split <;> simp_all

/-- A coded field outside its domain leaves no reading (R39). -/
theorem telemetryOf_outsideCodes {m src d : Byte} (h : outsideCodes m src d) (x : Snapshot) :
    telemetryOf (fieldBytes m src d x) = none := by
  simp only [fieldBytes, two, List.cons_append, List.nil_append, telemetryOf]
  split
  · next hm hs hd =>
    rcases h with h | h | h | h
    · rw [modeOfByte_eq_none h] at hm; contradiction
    · rw [sourceOfByte_eq_none h] at hs; contradiction
    · rw [doorReportOfByte_eq_none (.inl h)] at hd; contradiction
    · rw [doorReportOfByte_eq_none (.inr h)] at hd; contradiction
  · rfl

theorem judge_codedBytes (b : Bay) (phase : Phase) (voided : Bool) (m src d : Byte) (x : Snapshot) :
    judge ⟨b, .poll, phase, voided⟩ .telemetry (replyChars (codedBytes b m src d x) (checkByte (codedBytes b m src d x)))
      = (telemetryOf (fieldBytes m src d x)).elim (.failed .wrongReply) .telemetry := by
  rw [codedBytes_eq]
  exact judge_telemetry b phase voided 0x81 _

theorem bayByte_injective : Function.Injective bayByte := by
  intro b c h
  have := congrArg BitVec.toNat h
  rw [bayByte_toNat, bayByte_toNat] at this
  exact Fin.ext (by omega)

theorem ackAllowed_iff (o : OrderKind) (r : AckResult) : ackAllowed o r = true ↔ allowedFor o r := by
  cases o <;> cases r <;> simp [ackAllowed]

/-- A frame with a character that lacks its stop bit fails test 1 of R39. -/
theorem frameCheckOk_of_lostStop {frame : List RxChar} {k : Nat} {c : RxChar} (h : frame[k]? = some c) :
    frameCheckOk (frame.set k { c with stopOk := false }) = false := by
  have hk : k < frame.length := (List.getElem?_eq_some_iff.mp h).1
  have hall : (frame.set k { c with stopOk := false }).all (·.stopOk) = false := by
    rw [List.all_eq_false]
    exact ⟨_, List.mem_set hk _, by simp⟩
  simp only [frameCheckOk, hall, Bool.false_and]

end Sys2Proof.Machine

namespace Sys2Proof.Proofs

open Sys2Proof.Machine Sys2Proof.Claims

theorem assembleReply_telemetry {noise : List RxChar} (h : noSync noise) (after : List RxChar) (b : Bay) (m src d : Byte)
    (x : Snapshot) (check : Byte) :
    assembleReply (noise ++ replyChars (codedBytes b m src d x) check ++ after)
      = .complete .telemetry (replyChars (codedBytes b m src d x) check) :=
  assembleReply_frame (kind := .telemetry) h rfl rfl

/-- Settles O11. -/
theorem telemetryReplyRoundTrip : Obligations.TelemetryReplyRoundTrip := by
  intro b x noise after phase voided hn covered frame
  refine ⟨assembleReply_telemetry hn .., ?_, fun check hc => ⟨assembleReply_telemetry hn .., ?_⟩, fun c hc => ?_, fun o => ?_,
    fun m src d hout => ⟨assembleReply_telemetry hn .., ?_⟩⟩
  · refine (judge_codedBytes b phase voided (modeByte x.mode) (sourceByte x.source) (doorByte x.door) x).trans ?_
    rw [telemetryOf_fieldBytes (modeOfByte_modeByte _) (sourceOfByte_sourceByte _) (doorReportOfByte_doorByte _)]
    rfl
  · exact judge_badCheck (by rw [frameCheckOk_replyChars]; exact decide_eq_false hc)
  · exact judge_otherNode fun h => hc (bayByte_injective h).symm
  · exact judge_otherKind (.inl ⟨o, rfl, rfl⟩)
  · refine (judge_codedBytes b phase voided m src d x).trans ?_
    rw [telemetryOf_outsideCodes hout]
    rfl

/-- Settles O12. -/
theorem orderAckRoundTrip : Obligations.OrderAckRoundTrip := by
  intro b r o noise after phase voided hn covered frame
  refine ⟨assembleReply_frame (kind := .orderAck) hn rfl rfl, fun h => ?_, fun h => ?_, judge_otherKind (.inr ⟨rfl, rfl⟩),
    fun k c _ hk => judge_badCheck (frameCheckOk_of_lostStop hk)⟩
  · exact (judge_orderAck b o phase voided r).trans (if_pos ((ackAllowed_iff o r).mpr h))
  · exact (judge_orderAck b o phase voided r).trans (if_neg fun ha => h ((ackAllowed_iff o r).mp ha))

end Sys2Proof.Proofs
end

section
/-! The cabinet port's bus side and the checks of R168: O5, O7, O8. -/

namespace Sys2Proof.Machine

open Sys2Proof.Claims

/-! ## The tables of R169 and R172 -/

theorem kindOfByte_kindCode (k : RequestKind) : kindOfByte (kindCode k) = some k := by cases k <;> decide

theorem kindCode_eq (k : RequestKind) : kindCode k = BitVec.ofNat 8 (code k) := by cases k <;> rfl

/-- A byte that is no kind code names no kind (R168). -/
theorem kindOfByte_eq_none {x : Byte} (h : ∀ k, x ≠ BitVec.ofNat 8 (code k)) : kindOfByte x = none := by
  rw [kindOfByte, List.find?_eq_none]
  intro k _ hk
  exact h k ((kindCode_eq k) ▸ (of_decide_eq_true hk).symm)

theorem permitted_eq (k : RequestKind) (st : Station) : permitted k st = mayAsk k st := by
  cases k <;> cases st <;> rfl

theorem argCount_eq (k : RequestKind) : argCount k = argBytes k := by cases k <;> rfl

/-! ## The command of a write -/

theorem commandOfWrite_known (st : Station) (k : RequestKind) {args : List Byte} (h : args.length ≤ 31) :
    commandOfWrite st (kindCode k :: args) = some (commandOfKind k st args) := by
  simp only [commandOfWrite, maxArgs, kindOfByte_kindCode]
  exact if_neg (Nat.not_lt.mpr h)

theorem commandOfWrite_unknown (st : Station) {x : Byte} {args : List Byte} (h : args.length ≤ 31)
    (hx : kindOfByte x = none) : commandOfWrite st (x :: args) = some (.unknownKind st x args) := by
  simp only [commandOfWrite, maxArgs, hx]
  exact if_neg (Nat.not_lt.mpr h)

theorem commandOfWrite_overlong (st : Station) {x : Byte} {args : List Byte} (h : 31 < args.length) :
    commandOfWrite st (x :: args) = some (.overlong st (x :: args)) := if_pos h

/-- The MARK row that a write's arguments spell is none of another operation. -/
theorem otherMarkRow_markCommand (st : Station) (args : List Byte) :
    requestOf (markCommand st args) = some (st, .mark, args) ∧ otherMarkRow (markOpOf (markCommand st args)) args = false := by
  unfold markCommand otherMarkRow
  cases ho : (args[1]?).bind markOpOfByte with
  | none => exact ⟨rfl, rfl⟩
  | some o => cases o <;> exact ⟨rfl, rfl⟩

theorem requestOf_commandOfKind (k : RequestKind) (st : Station) (args : List Byte) :
    requestOf (commandOfKind k st args) = some (st, k, args) := by
  cases k
  case mark => exact (otherMarkRow_markCommand st args).1
  all_goals rfl

/-- The command of a closed write is taken as its request (R163, R168). -/
theorem exec_commandOfKind (k : RequestKind) (st : Station) (args : List Byte) (s : State) :
    exec (commandOfKind k st args) s
      = .next (takeRequest st k args (answerTo (markOpOf (commandOfKind k st args)) st args k) s) := by
  rcases exec_of_requestOf (requestOf_commandOfKind k st args) s with h | ⟨rfl, ho, -⟩
  · exact h
  · have := (otherMarkRow_markCommand st args).2
    rw [commandOfKind, this] at ho
    contradiction

/-! ## Refusals of the port -/

theorem receiveRequest_eq (st : Station) (s : State) : receiveRequest st s = taking st s := rfl

theorem takeRequest_of_role {st : Station} {k : RequestKind} {args : List Byte} (hl : args.length ≤ 31)
    (hp : permitted k st = false) (owner : State → Reply × State) (s : State) :
    takeRequest st k args owner s = told st .refusedRole [] s := by
  rcases takeRequest_cases st k args owner s with ⟨h, -⟩ | ⟨-, -, h⟩ | ⟨-, h, -⟩ | ⟨h, -⟩
  · omega
  · rw [h]; exact writeReply_taking st _ s
  · rw [hp] at h; contradiction
  · rw [hp] at h; contradiction

theorem takeRequest_of_length {st : Station} {k : RequestKind} {args : List Byte} (hl : args.length ≤ 31)
    (hp : permitted k st = true) (hn : args.length ≠ argCount k) (owner : State → Reply × State) (s : State) :
    takeRequest st k args owner s = told st .badLength [] s := by
  rcases takeRequest_cases st k args owner s with ⟨h, -⟩ | ⟨-, h, -⟩ | ⟨-, -, -, h⟩ | ⟨-, h, -⟩
  · omega
  · rw [hp] at h; contradiction
  · rw [h]; exact writeReply_taking st _ s
  · exact absurd h hn

theorem exec_unknownKind {st : Station} {x : Byte} {args : List Byte} (h : args.length ≤ 31) (hx : kindOfByte x = none)
    (s : State) : exec (.unknownKind st x args) s = .next (told st .unknownKind [] s) := by
  have : takeUnknown st x args s = told st .unknownKind [] s := by
    have hm : ¬ maxArgs < args.length := Nat.not_lt.mpr h
    simp only [takeUnknown, hx, if_neg hm]
    exact writeReply_taking st _ s
  exact congrArg Host.Outcome.next this

theorem exec_overlong {st : Station} {bytes : List Byte} (h : 32 < bytes.length) (s : State) :
    exec (.overlong st bytes) s = .next (told st .overlong [] s) := by
  refine congrArg Host.Outcome.next ?_
  rw [if_pos h]
  exact writeReply_taking st _ s

/-! ## The write that makes a command -/

/-- The write of a request row is its kind byte and its arguments (R172). -/
theorem writeOfCommand_request {i : Instr} {st : Station} {k : RequestKind} {args : List Byte}
    (h : requestOf i = some (st, k, args)) : writeOfCommand i = some (st, kindCode k :: args) := by
  cases i <;> simp only [requestOf, reduceCtorEq, Option.some.injEq, Prod.mk.injEq] at h <;>
    (obtain ⟨rfl, rfl, rfl⟩ := h; rfl)

/-- A request row the outside can give is the command of its kind and arguments. -/
theorem commandOfKind_of_wellFormed {i : Instr} {st : Station} {k : RequestKind} {args : List Byte}
    (h : requestOf i = some (st, k, args)) (hw : wellFormed i = true) :
    commandOfKind k st args = i ∧ args.length ≤ 31 := by
  have hfit {l : List Byte} (hl : argsFit l = true) : l.length ≤ 31 := of_decide_eq_true hl
  cases i <;> simp only [requestOf, reduceCtorEq, Option.some.injEq, Prod.mk.injEq] at h
  case markSet =>
    obtain ⟨rfl, rfl, rfl⟩ := h
    obtain ⟨hl, ho⟩ := Bool.and_eq_true _ _ ▸ hw
    refine ⟨?_, hfit hl⟩
    unfold opByteNoOther at ho
    unfold commandOfKind markCommand
    split at ho
    · next o hop => rw [hop, of_decide_eq_true ho]
    · next hop => rw [hop]
  case markTestSet | markClear | markTestClear =>
    obtain ⟨rfl, rfl, rfl⟩ := h
    obtain ⟨hl, ho⟩ := Bool.and_eq_true _ _ ▸ hw
    refine ⟨?_, hfit hl⟩
    unfold commandOfKind markCommand
    rw [of_decide_eq_true ho]
  all_goals
    obtain ⟨rfl, rfl, rfl⟩ := h
    exact ⟨rfl, hfit hw⟩

/-- A station's write makes a request row, UNKNOWN_KIND or OVERLONG. -/
theorem writeOfCommand_cases {i : Instr} {st : Station} {bytes : List Byte} (h : writeOfCommand i = some (st, bytes)) :
    (∃ k args, requestOf i = some (st, k, args) ∧ bytes = kindCode k :: args)
      ∨ (∃ x args, i = .unknownKind st x args ∧ bytes = x :: args) ∨ i = .overlong st bytes := by
  rcases hq : requestOf i with _ | ⟨st', k, args⟩
  · cases i <;> simp only [requestOf, reduceCtorEq] at hq
    case unknownKind st' x args => cases h; exact .inr (.inl ⟨x, args, rfl, rfl⟩)
    case overlong st' bytes' => cases h; exact .inr (.inr rfl)
    all_goals cases h
  · rw [writeOfCommand_request hq] at h
    cases h
    exact .inl ⟨k, args, rfl, rfl⟩

/-! ## Addresses and reads -/

theorem mem_stations (st : Station) : st ∈ allStations := by cases st <;> decide

theorem stationAddress_eq (s : State) (st : Station) :
    stationAddress s st = (if s.port.addrHigh then 0x4C else 0x44) + slotNumber st - 1 := rfl

theorem stationAddress_injective (s : State) : Function.Injective (stationAddress s) := by
  intro st o h
  rw [stationAddress_eq, stationAddress_eq] at h
  have hn : slotNumber st = slotNumber o := by
    have h1 : 1 ≤ slotNumber st := by cases st <;> decide
    have h2 : 1 ≤ slotNumber o := by cases o <;> decide
    omega
  revert hn
  cases st <;> cases o <;> decide

theorem addressStation_stationAddress (s : State) (st : Station) : addressStation s (stationAddress s st) = some st := by
  cases h : addressStation s (stationAddress s st) with
  | none =>
    have := List.find?_eq_none.mp h st (mem_stations st)
    simp at this
  | some o =>
    have := List.find?_some h
    rw [stationAddress_injective s (of_decide_eq_true this)]

theorem addressStation_isSome_iff (s : State) (a : Nat) :
    (addressStation s a).isSome = true ↔ ∃ st, a = stationAddress s st := by
  constructor
  · intro h
    obtain ⟨st, hst⟩ := Option.isSome_iff_exists.mp h
    have := List.find?_some (p := fun st => decide (stationAddress s st = a)) hst
    exact ⟨st, (of_decide_eq_true this).symm⟩
  · rintro ⟨st, rfl⟩
    rw [addressStation_stationAddress]
    rfl

theorem acknowledges_iff (s : State) (a : Nat) (isRead : Bool) :
    acknowledges s a isRead = true ↔ (∃ st, a = stationAddress s st) ∨ (a = 0 ∧ isRead = false) := by
  rw [acknowledges, Bool.or_eq_true, addressStation_isSome_iff, Bool.and_eq_true, decide_eq_true_iff, Bool.not_eq_true']

theorem resultByte_eq (c : ResultCode) : resultByte c = resultByteOf c := by cases c <;> rfl

theorem replyByte_eq (s : State) (st : Station) (i : Nat) :
    replyByte s st i = if i = 0 then resultByteOf (slotAt s st).reply.code
      else if i = 1 then BitVec.ofNat 8 (slotAt s st).reply.data.length
      else (slotAt s st).reply.data.getD (i - 2) 0xFF := by
  unfold replyByte
  match i with
  | 0 => exact resultByte_eq _
  | 1 => rfl
  | i + 2 => simp

theorem stretchesClock_setSlot (st o : Station) (x : Slot) (s : State) :
    stretchesClock (setSlot st x s) o = if o = st then x.inProgress else stretchesClock s o := by
  simp only [stretchesClock, slotAt_setSlot]
  split <;> rfl

/-! ## The assembly of a write, byte by byte -/

/-- The state with a write being assembled. -/
def assembling (w : Assembly) (s : State) : State := { s with port := { s.port with assembly := some w } }

/-- What a write has come to after its bytes (R163, R164). -/
def written (a : Nat) (bytes : List Byte) : Assembly := ⟨a, bytes.take 32, decide (32 < bytes.length)⟩

theorem writeByte_assembling (x : Byte) (w : Assembly) (s : State) :
    writeByte x (assembling w s) = (decide (w.bytes.length < 32),
      assembling (if w.bytes.length < 32 then { w with bytes := w.bytes ++ [x] } else { w with overlong := true }) s) := by
  simp only [writeByte, assembling]
  split
  · next h => rw [decide_eq_true h]
  · next h => rw [decide_eq_false h]

/-- A byte more: it joins the first 32, or the write runs on past them. -/
theorem written_concat (a : Nat) (bytes : List Byte) (x : Byte) :
    (if (written a bytes).bytes.length < 32 then { written a bytes with bytes := (written a bytes).bytes ++ [x] }
      else { written a bytes with overlong := true }) = written a (bytes ++ [x]) := by
  simp only [written, List.length_take, List.length_append, List.length_singleton]
  by_cases h : bytes.length < 32
  · rw [if_pos (by omega), List.take_of_length_le (by omega), List.take_of_length_le (by simp; omega)]
    simp only [Assembly.mk.injEq, true_and, decide_eq_decide]
    omega
  · rw [if_neg (by omega), List.take_append_of_le_length (by omega)]
    simp only [Assembly.mk.injEq, true_and]
    exact (decide_eq_true (by omega)).symm

theorem foldl_writeByte (a : Nat) (bytes : List Byte) (s : State) :
    bytes.foldl (fun t x => (writeByte x t).2) (assembling ⟨a, [], false⟩ s) = assembling (written a bytes) s := by
  induction bytes using List.reverseRecOn with
  | nil => rfl
  | append_singleton bytes x ih =>
    rw [List.foldl_append, ih, List.foldl_cons, List.foldl_nil, writeByte_assembling, written_concat]

theorem openWrite_stationAddress (s : State) (st : Station) :
    openWrite (stationAddress s st) s = assembling ⟨stationAddress s st, [], false⟩ s := by
  rw [openWrite, if_pos ((acknowledges_iff s _ false).mpr (.inl ⟨st, rfl⟩)), assembling]

/-- The closing of a write at a station's address: the command of its bytes, or none (R163, R164). -/
theorem closeWrite_assembling (whole : Bool) (st : Station) (bytes : List Byte) (s : State) :
    closeWrite whole (assembling (written (stationAddress s st) bytes) s)
      = (if whole = false ∨ bytes = [] then none
          else commandOfWrite st (if 32 < bytes.length then bytes.take 32 ++ [0] else bytes),
        { s with port := { s.port with assembly := none } }) := by
  have hbytes : (if (written (stationAddress s st) bytes).overlong then (written (stationAddress s st) bytes).bytes ++ [0]
      else (written (stationAddress s st) bytes).bytes) = if 32 < bytes.length then bytes.take 32 ++ [0] else bytes := by
    simp only [written, decide_eq_true_iff]
    split
    · rfl
    · exact List.take_of_length_le (by omega)
  have hnil : (if 32 < bytes.length then bytes.take 32 ++ [0] else bytes) = [] ↔ bytes = [] := by
    split
    · next h => simpa using List.ne_nil_of_length_pos (by omega)
    · exact Iff.rfl
  have haddr : addressStation (assembling (written (stationAddress s st) bytes) s)
      (written (stationAddress s st) bytes).address = some st := addressStation_stationAddress s st
  unfold closeWrite
  simp only [assembling] at haddr ⊢
  rw [hbytes, haddr, if_congr (or_congr Iff.rfl hnil) rfl rfl]
  split <;> rfl

end Sys2Proof.Machine

namespace Sys2Proof.Proofs

open Sys2Proof.Machine Sys2Proof.Claims

/-- Settles O5. -/
theorem requestsCheckedInOrder : Obligations.RequestsCheckedInOrder := by
  refine ⟨fun st kind args c s h => ⟨fun hl => ?_, fun hl hk => ?_, fun k hkind hl => ?_⟩,
    fun st kind args s hk hl => exec_unknownKind hl (kindOfByte_eq_none hk) s, fun st bytes s hl => exec_overlong hl s⟩
  · obtain rfl := Option.some.inj ((commandOfWrite_overlong st hl).symm.trans h)
    exact exec_overlong (bytes := kind :: args) (Nat.succ_lt_succ hl) s
  · have hx := kindOfByte_eq_none hk
    obtain rfl := Option.some.inj ((commandOfWrite_unknown st hl hx).symm.trans h)
    exact exec_unknownKind hl hx s
  · rw [hkind, ← kindCode_eq] at h
    obtain rfl := Option.some.inj ((commandOfWrite_known st k hl).symm.trans h)
    rw [exec_commandOfKind, ← permitted_eq, ← argCount_eq]
    exact ⟨fun hp => by rw [takeRequest_of_role hl hp], fun hp hn => by rw [takeRequest_of_length hl hp hn]⟩

/-- Settles O7. -/
theorem busWriteMakesItsCommand : Obligations.BusWriteMakesItsCommand := by
  refine ⟨acknowledges_iff, fun s a h => ?_, replyByte_eq, fun s st o x => ⟨?_, ?_⟩, fun s st bytes => ?_⟩
  · rw [openWrite, h]; rfl
  · have hr : stretchesClock (receiveRequest st s) o = stretchesClock (setSlot st { slotAt s st with inProgress := true } s) o := rfl
    rw [hr, stretchesClock_setSlot]
    split <;> simp [*]
  · rw [writeReply, stretchesClock_setSlot]
    split <;> simp [*]
  · have hfilled : bytes.foldl (fun t x => (writeByte x t).2) (openWrite (stationAddress s st) s)
        = assembling (written (stationAddress s st) bytes) s := by
      rw [openWrite_stationAddress, foldl_writeByte]
    intro filled closed
    simp only [filled, hfilled, closeWrite_assembling]
    refine ⟨rfl, fun x => ?_, by simp [closed], fun h => by simp [h, closed], fun h hl => ?_, fun hl => ?_⟩
    · rw [writeByte_assembling]
      simp [written]
    · rw [if_neg (by simpa using h), if_neg (by omega)]
    · refine ⟨bytes.take 32 ++ [0], by simp; omega, ?_⟩
      have hne : bytes ≠ [] := List.ne_nil_of_length_pos (by omega)
      rw [if_neg (by simpa using hne), if_pos hl]
      obtain ⟨x, rest, rfl⟩ := List.exists_cons_of_ne_nil hne
      rw [List.take_succ_cons, List.cons_append, commandOfWrite_overlong st (by simp at hl ⊢; omega)]

/-- Settles O8. -/
theorem writeRoundTrip : Obligations.WriteRoundTrip := by
  intro i st bytes hw h
  rcases writeOfCommand_cases h with ⟨k, args, hr, rfl⟩ | ⟨x, args, rfl, rfl⟩ | rfl
  · obtain ⟨hi, hl⟩ := commandOfKind_of_wellFormed hr hw
    rw [commandOfWrite_known st k hl, hi]
  · obtain ⟨hl, hx⟩ := Bool.and_eq_true _ _ ▸ hw
    exact commandOfWrite_unknown st (of_decide_eq_true hl) (Option.isNone_iff_eq_none.mp hx)
  · have hl : 32 < bytes.length := of_decide_eq_true hw
    obtain ⟨x, rest, rfl⟩ := List.exists_cons_of_ne_nil (List.ne_nil_of_length_pos (by omega : 0 < bytes.length))
    exact commandOfWrite_overlong st (Nat.succ_lt_succ_iff.mp hl)

end Sys2Proof.Proofs
end

section
/-! What holds of the alert unit through every raise (R151) holds through every change that is not the stations' own; a
request keeps the other stations: O6. -/

namespace Sys2Proof.Machine

open Sys2Proof.Claims

/-! ## Properties of the alert unit that a raise keeps -/

/-- A property of the alert unit that every raise keeps (R151). -/
def KeptByRaises (P : AlertUnit → Prop) : Prop := ∀ mode c e u, P u → P (raiseIn mode c e u)

theorem withFreeOrder_keepsAlert {P : AlertUnit → Prop} {g : State → State} {s : State} (hg : P (g s).alert) :
    P (withFreeOrder g s).alert := by
  rcases withFreeOrder_cases g s with e | ⟨q, -, e⟩ <;> rw [e]
  · exact hg
  · exact hg

section

variable {P : AlertUnit → Prop} (hP : KeptByRaises P)

include hP

theorem RaiseChain.keeps {mode : Nesting} {K : Category → Prop} {e : Element} {u v : AlertUnit}
    (h : RaiseChain mode K e u v) (hu : P u) : P v := by
  induction h with
  | refl => exact hu
  | raise _ _ ih => exact hP _ _ _ _ ih

theorem ActsOn.keepsAlert {b : Bay} {K : Category → Prop} {s t : State} (h : ActsOn b K s t) (hs : P s.alert) :
    P t.alert := h.alert.keeps hP hs

theorem forBays_keepsAlert {g : Bay → State → State} {K : Category → Prop} (hg : ∀ b s, ActsOn b K s (g b s)) {s : State}
    (hs : P s.alert) : P (forBays g s).alert :=
  foldl_inv (P := fun t : State => P t.alert) (fun t b ht => (hg b t).keepsAlert hP ht) allBays hs

theorem takeMoments_keepsAlert (ms : List Moment) {s : State} (hs : P s.alert) : P (takeMoments ms s).alert :=
  foldl_inv (P := fun t : State => P t.alert) (fun t m ht => (takeMoment_actsOn m t).keepsAlert hP ht) ms
    (x := { s with moments := ms ++ s.moments }) hs

theorem shedWalk_keepsAlert (f : FeederIx) {s : State} (hs : P s.alert) : P (shedWalk f s).alert :=
  foldl_inv (P := fun t : State => P t.alert) (fun t b ht => by
    unfold walkStep
    dsimp only
    split
    · exact ht
    · split
      · exact (shed_actsOn f b t).keepsAlert hP ht
      · exact ht) _ hs

theorem budgetChanged_keepsAlert (f : FeederIx) (old : Nat) {s : State} (hs : P s.alert) :
    P (budgetChanged f old s).alert := by
  unfold budgetChanged
  dsimp only
  split
  · exact hs
  · split
    · exact shedWalk_keepsAlert hP f hs
    · exact hs

theorem changeBudgets_keepsAlert (v : FeederIx → Nat) {s : State} (hs : P s.alert) : P (changeBudgets v s).alert := by
  unfold changeBudgets
  refine foldl_inv (P := fun t : State => P t.alert) (fun t f ht => budgetChanged_keepsAlert hP f _ ht) allFeeders ?_
  exact foldl_inv (P := fun t : State => P t.alert) (fun t f ht => ht) allFeeders hs

theorem startRound_keepsAlert {s : State} (hs : P s.alert) : P (startRound s).alert := by
  unfold startRound
  dsimp only
  split
  · rw [endRound_alert]; exact hs
  · exact hP _ _ _ _ hs

theorem settingChanged_keepsAlert (he : ∀ mode u, P u → P (evalLines mode u)) (before : Settings) {s : State}
    (hs : P s.alert) : P (settingChanged before s).alert := by
  unfold settingChanged
  split
  · rw [applyLossLimit, settle_alert]
    exact withFreeOrder_keepsAlert (forBays_keepsAlert hP (limitBay_actsOn _) hs)
  · split
    · exact he _ _ hs
    · exact hs

/-- An answer of an owning block keeps what raises keep, if the alert unit's own answers to the station do. -/
theorem AnswerEffect.keepsAlert {st : Station} {s t : State} (h : AnswerEffect st s t)
    (ht : ∀ mode, P s.alert → P (takeIn mode st s.alert).2)
    (hr : ∀ mode c u, releaseIn mode st c s.alert = some u → P s.alert → P u)
    (hm : ∀ mode mask, P s.alert → P (maskIn mode st mask s.alert)) (he : ∀ mode u, P u → P (evalLines mode u))
    (hs : P s.alert) : P t.alert := by
  have hacts {b : Bay} {K : Category → Prop} {u v : State} (hu : P u.alert) (h : ActsOn b K u v) : P (settle v).alert := by
    rw [settle_alert]
    exact h.keepsAlert hP hu
  cases h with
  | same => exact hs
  | arrive b i c d => rw [serveLoop_alert]; exact hs
  | depart b => exact hacts hs (departBay_actsOn b (fun _ => False) s)
  | departure b d => exact hs
  | bayData b c f a =>
    unfold storeBayData
    dsimp only
    split
    · rw [settle_alert]; exact hs
    · exact hs
  | close b => exact hs
  | opened b => exact hs
  | mark b m =>
    unfold setMark
    dsimp only
    split
    · exact hs
    · cases m with
      | hold => exact hacts (u := modBay b (markOn st .hold) s) hs (endBusiness_actsOn b _ _)
      | fuelOrdered => exact hs
      | noDiesel => exact hs
  | unmark b m =>
    unfold clearMark
    dsimp only
    split
    · cases m with
      | noDiesel => rw [settle_alert]; exact hs
      | hold => exact hs
      | fuelOrdered => exact hs
    · exact hs
  | defrostNow b => exact hacts hs (joinQueue_actsOn b (fun _ => False) _ s)
  | withdraw b => exact hacts hs (endBusiness_actsOn b _ s)
  | budget f v => rw [settle_alert]; exact budgetChanged_keepsAlert hP f _ hs
  | budgets v => rw [settle_alert]; exact changeBudgets_keepsAlert hP v hs
  | release b => exact hacts hs (endEpisode_actsOn b _ s)
  | permit b minutes =>
    unfold storePermit
    dsimp only
    split
    · exact takeMoments_keepsAlert hP _ hs
    · exact hs
  | clearFlags b => exact hs
  | clearAllFlags => rw [mapBays_alert]; exact hs
  | feederFlags f => exact hs
  | takeAlert => exact ht _ hs
  | releaseAlert c u hu => exact hr _ c u hu hs
  | alertMask m => exact hm _ m hs
  | begin =>
    rw [beginRunning, serveLoop_alert]
    exact startRound_keepsAlert hP hs
  | halt =>
    rw [haltRunning, settle_alert]
    exact withFreeOrder_keepsAlert (forBays_keepsAlert hP (fun b t => endBusiness_actsOn b .halt t) hs)
  | setting id v g c => exact settingChanged_keepsAlert hP he _ hs

end

/-! ## The other stations -/

/-- Every station but one has the mask, the stack and the silence count it had; that one's silence count is 0. -/
structure OthersKept (st : Station) (u v : AlertUnit) : Prop where
  others : ∀ o, o ≠ st → (alertAt v o).mask = (alertAt u o).mask ∧ (alertAt v o).stack = (alertAt u o).stack
    ∧ (alertAt v o).silence = (alertAt u o).silence
  heard : (alertAt v st).silence = 0

theorem OthersKept.evalLines {st : Station} {u v : AlertUnit} (h : OthersKept st u v) (mode : Nesting) :
    OthersKept st u (evalLines mode v) :=
  ⟨fun o ho => by rw [alertAt_evalLines]; exact h.others o ho, by rw [alertAt_evalLines]; exact h.heard⟩

theorem OthersKept.setCat {st : Station} {u v : AlertUnit} (h : OthersKept st u v) (c : Category) (r : CategoryRecord) :
    OthersKept st u (Machine.setCat c r v) := ⟨h.others, h.heard⟩

theorem OthersKept.setStation {st : Station} {u v : AlertUnit} (h : OthersKept st u v) {a : AlertStation}
    (ha : a.silence = 0) : OthersKept st u (setAlertAt st a v) := by
  refine ⟨fun o ho => ?_, ?_⟩
  · rw [alertAt_setAlertAt, if_neg ho]
    exact h.others o ho
  · rw [alertAt_setAlertAt, if_pos rfl]
    exact ha

theorem OthersKept.keptByRaises (st : Station) (u : AlertUnit) : KeptByRaises (OthersKept st u) :=
  fun mode _ _ _ h => (h.setCat _ _).evalLines mode

/-- Setting a station's silence count back is all that hearing it does (R159). -/
theorem OthersKept.heardStation (st : Station) (u : AlertUnit) : OthersKept st u (hearStation st u) := by
  refine ⟨fun o ho => ?_, ?_⟩
  · rw [hearStation, alertAt_setAlertAt, if_neg ho]
    exact ⟨rfl, rfl, rfl⟩
  · rw [hearStation, alertAt_setAlertAt, if_pos rfl]

theorem OthersKept.takeIn {st : Station} {u v : AlertUnit} (h : OthersKept st u v) (mode : Nesting) :
    OthersKept st u (takeIn mode st v).2 := by
  rcases takeIn_cases mode st v with ⟨-, e⟩ | ⟨c, cs, -, e⟩ <;> rw [e]
  · exact h
  · have hs := h.setStation (a := { alertAt v st with stack := ⟨c, (catAt v c).pending⟩ :: (alertAt v st).stack }) h.heard
    exact (hs.setCat c _).evalLines mode

theorem OthersKept.releaseIn {st : Station} {u v w : AlertUnit} {mode : Nesting} {c : Category} (h : OthersKept st u v)
    (hw : releaseIn mode st c v = some w) : OthersKept st u w := by
  obtain ⟨top, rest, -, -, rfl⟩ := releaseIn_eq_some hw
  exact (h.setStation (a := { alertAt v st with stack := rest }) h.heard).evalLines mode

theorem OthersKept.maskIn {st : Station} {u v : AlertUnit} (h : OthersKept st u v) (mode : Nesting) (mask : List Category) :
    OthersKept st u (maskIn mode st mask v) :=
  (h.setStation (a := { alertAt v st with mask := mask }) h.heard).evalLines mode

/-- A request keeps the other stations of the alert unit, and hears its own (R159). -/
theorem AnswerEffect.othersKept {st : Station} {s t : State} {u : AlertUnit} (h : AnswerEffect st s t)
    (hs : OthersKept st u s.alert) : OthersKept st u t.alert :=
  h.keepsAlert (OthersKept.keptByRaises st u) (fun mode hu => hu.takeIn mode) (fun _ _ _ hw hu => hu.releaseIn hw)
    (fun mode mask hu => hu.maskIn mode mask) (fun mode _ hu => hu.evalLines mode) hs

/-- What every request of a station leaves as it was, and what it does to the station's own slot (R159, R163, R165). -/
structure Answered (st : Station) (s t : State) : Prop where
  alert : OthersKept st s.alert t.alert
  done : (slotAt t st).inProgress = false
  data : (slotAt t st).reply.code ≠ .done → (slotAt t st).reply.data = []
  assembly : t.port.assembly = s.port.assembly
  strap : t.port.addrHigh = s.port.addrHigh
  slots : ∀ o, o ≠ st → slotAt t o = slotAt s o

theorem heldReply_data (r : Reply) (h : (heldReply r).code ≠ .done) : (heldReply r).data = [] := by
  obtain ⟨c, d⟩ := r
  cases c
  case done => exact absurd rfl h
  all_goals rfl

/-- An answer written into the station's buffer. -/
theorem answered_writeReply {st : Station} {s t : State} (r : Reply) (h : AnswerEffect st (receiveRequest st s) t) :
    Answered st s (writeReply st r t) := by
  have hport := h.keepsPort.port
  have hown : slotAt (writeReply st r t) st = ⟨false, heldReply r⟩ := by rw [writeReply, slotAt_setSlot, if_pos rfl]
  refine ⟨h.othersKept (OthersKept.heardStation st s.alert), by rw [hown], fun hc => ?_, ?_, ?_, fun o ho => ?_⟩
  · rw [hown] at hc ⊢
    exact heldReply_data r hc
  · have ha : t.port.assembly = (receiveRequest st s).port.assembly := by rw [hport]
    exact ha
  · have ha : t.port.addrHigh = (receiveRequest st s).port.addrHigh := by rw [hport]
    exact ha
  · rw [writeReply, slotAt_setSlot, if_neg ho, slotAt_congr hport, slotAt_receiveRequest, if_neg ho]

theorem answered_told (st : Station) (c : ResultCode) (s : State) : Answered st s (told st c [] s) := by
  rw [← writeReply_taking]
  exact answered_writeReply (s := s) ⟨c, []⟩ .same

theorem answered_takeRequest (st : Station) (k : RequestKind) (args : List Byte) (op : MarkOp) (s : State) :
    Answered st s (takeRequest st k args (answerTo op st args k) s) := by
  rcases takeRequest_cases st k args (answerTo op st args k) s with ⟨-, h⟩ | ⟨-, -, h⟩ | ⟨-, -, -, h⟩ | ⟨-, -, h⟩ <;>
    rw [h]
  · exact answered_writeReply _ .same
  · exact answered_writeReply _ .same
  · exact answered_writeReply _ .same
  · exact answered_writeReply _ (answerTo_effect op st args k _)

end Sys2Proof.Machine

namespace Sys2Proof.Proofs

open Sys2Proof.Machine Sys2Proof.Claims

/-- Settles O6. -/
theorem requestsKeepOtherStations : Obligations.RequestsKeepOtherStations := by
  intro i st bytes s t hw hb ht
  have h : Answered st s t := by
    rcases writeOfCommand_cases hb with ⟨k, args, hr, -⟩ | ⟨x, args, rfl, -⟩ | rfl
    · obtain ⟨rfl, -⟩ := commandOfKind_of_wellFormed hr hw
      rw [exec_commandOfKind] at ht
      cases ht
      exact answered_takeRequest st k args _ s
    · obtain ⟨hl, hx⟩ := Bool.and_eq_true _ _ ▸ hw
      rw [exec_unknownKind (of_decide_eq_true hl) (Option.isNone_iff_eq_none.mp hx)] at ht
      cases ht
      exact answered_told st _ s
    · rw [exec_overlong (of_decide_eq_true hw)] at ht
      cases ht
      exact answered_told st _ s
  refine ⟨h.alert.heard, h.done, h.data, h.assembly, h.strap, fun other ho => ⟨h.slots other ho, ?_⟩⟩
  obtain ⟨hmask, hstack, hsilence⟩ := h.alert.others other ho
  exact ⟨hsilence, hmask, hstack⟩

end Sys2Proof.Proofs
end

section
/-! The reading requests (R20, R21, R30, R126, R127, R130, R173): O13, O14, O15. -/

namespace Sys2Proof.Machine

open Sys2Proof.Claims

/-! ## A reading request answers DONE with its data and changes nothing -/

theorem permitted_read {k : RequestKind} (h : permittedSlots k = allStations) (st : Station) : permitted k st = true := by
  rw [permitted, h]
  cases st <;> rfl

theorem exec_read {i : Instr} {st : Station} {k : RequestKind} {args data : List Byte} {owner : State → Reply × State}
    {s : State} (hi : exec i s = .next (takeRequest st k args owner s)) (hk : permittedSlots k = allStations)
    (hn : args.length = argCount k) (ho : owner (taking st s) = answer data (taking st s)) :
    exec i s = .next (told st .done data s) := by
  rw [hi, takeRequest_of_permitted (permitted_read hk st) hn, ho]
  exact congrArg _ (writeReply_done_taking st data s)

/-- An owning block's refusal leaves the station told of it, and nothing else. -/
theorem exec_refused {i : Instr} {st : Station} {k : RequestKind} {args : List Byte} {owner : State → Reply × State}
    {s : State} {c : ResultCode} (hi : exec i s = .next (takeRequest st k args owner s)) (hp : permitted k st = true)
    (hn : args.length = argCount k) (ho : owner (taking st s) = refuse c (taking st s)) :
    exec i s = .next (told st c [] s) := by
  rw [hi, takeRequest_of_permitted hp hn, ho]
  exact congrArg _ (writeReply_taking st c s)

/-! ## READ BAY -/

theorem viewOfByte_viewByte (v : View) : viewOfByte (viewByte v) = some v := by cases v <;> rfl

theorem viewOfByte_eq_none {x : Byte} (h : 4 ≤ x.toNat) : viewOfByte x = none := by
  unfold viewOfByte
  split <;> simp_all

theorem be32_eq (n : Nat) : be32 n = four n := by
  have h1 : BitVec.ofNat 8 (n / 65536 / 256) = BitVec.ofNat 8 (n / 16777216) := by rw [Nat.div_div_eq_div_mul]
  simp [be32, four, two, byteOf, h1]

/-- A signed field in two's complement (section 5.5). -/
theorem be16Signed_eq (x : Int) : be16Signed x = signed x := by
  have h : (BitVec.ofInt 16 x).toNat = (x % 65536).toNat := by simp [BitVec.toNat_ofInt]
  rw [be16Signed, h]
  rfl

theorem occupancyByte_eq (o : Occupancy) : byteOf (occupancyCode o) = occupancyByte o := by cases o <;> rfl

theorem ownerByte_eq (o : Option Station) : ownerField o = ownerByte o := by
  rcases o with _ | st
  · rfl
  · cases st <;> rfl

theorem feederField_eq (f : Option FeederIx) : feederField f = f.elim 0 feederByte := by
  cases f <;> rfl

theorem linkByte_eq (l : Link) : byteOf (linkCode l) = linkByte l := by cases l <;> rfl

theorem exchangeByte_eq (o : ExchangeOutcome) : byteOf (exchangeOutcomeCode o) = exchangeByte o := by cases o <;> rfl

theorem modeByte_eq (m : Mode) : byteOf (modeCode m) = modeByte m := by cases m <;> rfl

theorem sourceByte_eq (x : Source) : byteOf (sourceCode x) = sourceByte x := by cases x <;> rfl

theorem doorByte_eq (x : DoorReport) : byteOf (doorReportCode x) = doorByte x := by cases x <;> rfl

theorem confirmedByte_eq (d : DoorState) : byteOf (doorStateCode d) = confirmedByte d := by cases d <;> rfl

theorem pendingBytes_eq (p : Option DoorPos) : [byteOf (pendingCode p), byteOf (agreeCount p)] = pendingBytes p := by
  rcases p with _ | x
  · rfl
  · cases x <;> rfl

theorem stateByte_eq (d : DefrostState) : byteOf (defrostStateCode d) = stateByte d := by cases d <;> rfl

theorem reasonByte_eq (r : Option StopReason) : byteOf (stopReasonCode r) = reasonByte r := by
  rcases r with _ | x
  · rfl
  · cases x <;> rfl

theorem chargeByte_eq (c : Charge) : byteOf (chargeCode c) = chargeByte c := by cases c <;> rfl

theorem originByte_eq (o : Option Origin) : byteOf (originCode o) = originByte o := by
  rcases o with _ | x
  · rfl
  · cases x <;> rfl

theorem outcomeByte_eq (o : Option DefrostOutcome) : byteOf (outcomeCode o) = outcomeByte o := by
  rcases o with _ | x
  · rfl
  · cases x <;> rfl

theorem identView_eq (b : Bay) (r : BayRecord) : identView b r = viewBytes b r .ident := by
  simp only [identView, viewBytes, occupancyByte_eq, ownerByte_eq, feederField_eq]
  cases r.feeder <;> rfl

theorem telemetryView_eq (b : Bay) (r : BayRecord) : telemetryView b r = viewBytes b r .telemetry := by
  simp only [telemetryView, viewBytes, linkByte_eq, exchangeByte_eq]
  rcases r.snapshot with _ | x
  · rfl
  · simp only [snapshotField, modeByte_eq, sourceByte_eq, doorByte_eq]
    rfl

theorem checksView_eq (b : Bay) (r : BayRecord) : checksView b r = viewBytes b r .checks := by
  have hp : ∀ l : List Byte, byteOf (pendingCode r.door.pending) :: byteOf (agreeCount r.door.pending) :: l
      = pendingBytes r.door.pending ++ l := fun l => by rw [← pendingBytes_eq]; rfl
  simp only [checksView, viewBytes, field16Signed, be16Signed_eq, confirmedByte_eq, be32_eq, List.append_assoc,
    List.cons_append, List.nil_append, hp]
  rfl

theorem defrostView_eq (b : Bay) (r : BayRecord) : defrostView b r = viewBytes b r .defrost := by
  simp only [defrostView, viewBytes, stateByte_eq, reasonByte_eq, chargeByte_eq, originByte_eq, outcomeByte_eq]
  rfl

theorem bayView_eq (v : View) (b : Bay) (r : BayRecord) : bayView v b r = viewBytes b r v := by
  cases v
  · exact identView_eq b r
  · exact telemetryView_eq b r
  · exact checksView_eq b r
  · exact defrostView_eq b r

/-- Bytes of each view of READ BAY (R173). -/
def viewLength : View → Nat
  | .ident => 24
  | .telemetry => 16
  | .checks => 37
  | .defrost => 12

theorem length_pendingBytes (p : Option DoorPos) : (pendingBytes p).length = 2 := by
  rw [← pendingBytes_eq]
  rfl

theorem length_viewBytes (b : Bay) {r : BayRecord} (h : ∀ i, r.ident = some i → i.length = 8) (v : View) :
    (viewBytes b r v).length = viewLength v := by
  cases v
  · have hi : (r.ident.getD [0, 0, 0, 0, 0, 0, 0, 0]).length = 8 := by
      cases hr : r.ident with
      | none => rfl
      | some i => exact h i hr
    simp only [viewBytes, two, List.length_append, List.length_cons, List.length_nil, hi, viewLength]
  · cases hs : r.snapshot <;> simp [viewBytes, two, hs, viewLength]
  · simp [viewBytes, two, four, signed, length_pendingBytes, viewLength]
  · rfl

theorem readBayOwner_bayByte (b : Bay) (v : View) (s : State) :
    readBayOwner [bayByte b, viewByte v] s = answer (bayView v b (bayAt s b)) s := by
  simp only [readBayOwner, withBay_bayByte, viewOfByte_viewByte]

/-- A request refused for every bay is refused for every byte. -/
theorem withBay_refused {x : Byte} {g : Bay → State → Reply × State} {s : State}
    (h : ∀ b, g b s = refuse .badArgument s) : withBay x g s = refuse .badArgument s := by
  rcases withBay_cases x g s with ⟨b, -, e⟩ | e
  · exact e.trans (h b)
  · exact e

theorem readBayOwner_refused {x v : Byte} (h : noBay x ∨ 4 ≤ v.toNat) (s : State) :
    readBayOwner [x, v] s = refuse .badArgument s := by
  simp only [readBayOwner]
  rcases h with h | h
  · exact withBay_of_noBay h _ s
  · refine withBay_refused fun b => ?_
    rw [viewOfByte_eq_none h]

/-! ## READ FEEDER, READ QUEUE, READ ACTIVE -/

theorem feederView_eq (s : State) (f : FeederIx) :
    feederView s f = [feederByte f, BitVec.ofNat 8 (feederAt s f).budget] ++ two (committed s f)
      ++ [BitVec.ofNat 8 (admitted s f), BitVec.ofNat 8 (feederAt s f).stack.length,
          BitVec.ofNat 8 ((if (feederAt s f).nearFull then 1 else 0) + (if (feederAt s f).overflow then 2 else 0))]
      ++ (feederAt s f).stack.reverse.flatMap fun e =>
          [bayByte e.bay, if (bayAt s e.bay).defrost.state = .shed then 0 else 1,
           BitVec.ofNat 8 (bayAt s e.bay).defrost.draw] := by
  have hflags : setByte (feederAt s f).nearFull (feederAt s f).overflow false false
      = BitVec.ofNat 8 ((if (feederAt s f).nearFull then 1 else 0) + (if (feederAt s f).overflow then 2 else 0)) := by
    cases (feederAt s f).nearFull <;> cases (feederAt s f).overflow <;> rfl
  have hentry (e : ShedEntry) : shedEntryBytes s e = [bayByte e.bay,
      if (bayAt s e.bay).defrost.state = .shed then 0 else 1, BitVec.ofNat 8 (bayAt s e.bay).defrost.draw] := by
    simp only [shedEntryBytes, apply_ite byteOf]
    rfl
  have hentries : shedEntryBytes s = fun e => [bayByte e.bay,
      if (bayAt s e.bay).defrost.state = .shed then 0 else 1, BitVec.ofNat 8 (bayAt s e.bay).defrost.draw] := funext hentry
  simp only [feederView, hflags, hentries]
  rfl

theorem queueEntryBytes_eq (q : QueueEntry) :
    queueEntryBytes q = [bayByte q.bay, originByte (some q.origin)] ++ two q.joined ++ [BitVec.ofNat 8 q.passOver] := by
  rw [← originByte_eq]
  rfl

theorem byteOf_toNat (x : Byte) : byteOf x.toNat = x := by simp [byteOf]

theorem placeOk_iff {p : Byte} : placeOk p = true ↔ 1 ≤ p.toNat ∧ p.toNat ≤ 40 := by
  simp [placeOk]

theorem placeOk_eq_false {p : Byte} (h : noBay p) : placeOk p = false := by
  rw [← Bool.not_eq_true, placeOk_iff]
  omega

/-! ## READ YARD -/

theorem countBays_eq (p : BayRecord → Bool) (s : State) : countBays p s = howMany p s := by
  simp only [countBays, howMany, allBays, List.countP_eq_length_filter]

theorem countOccupancy_eq (o : Occupancy) (s : State) :
    countOccupancy o s = howMany (fun r => decide (r.occupancy = o)) s := countBays_eq _ s

/-- Run state byte (R173). -/
def runStateByte : RunState → Byte
  | .setup => 0
  | .running => 1
  | .halting => 2
  | .halted => 3

theorem runStateByte_eq (x : RunState) : byteOf (runStateCode x) = runStateByte x := by cases x <;> rfl

theorem startingOrStopping_eq (d : Defrost) :
    startingOrStopping d = decide (d.state = .starting ∨ d.state = .stopping) := by
  unfold startingOrStopping
  split <;> simp_all

/-- Every bay has one of the five occupancies (R2). -/
theorem sum_occupancies (l : List Bay) (s : State) :
    l.countP (fun b => decide ((bayAt s b).occupancy = .vacant)) + l.countP (fun b => decide ((bayAt s b).occupancy = .arriving))
      + l.countP (fun b => decide ((bayAt s b).occupancy = .parked))
      + l.countP (fun b => decide ((bayAt s b).occupancy = .departing))
      + l.countP (fun b => decide ((bayAt s b).occupancy = .outOfService)) = l.length := by
  induction l with
  | nil => rfl
  | cons b l ih =>
    simp only [List.countP_cons, List.length_cons]
    cases (bayAt s b).occupancy <;> simp <;> omega

end Sys2Proof.Machine

namespace Sys2Proof.Proofs

open Sys2Proof.Machine Sys2Proof.Claims

/-- Settles O13. -/
theorem readBayAnswersItsView : Obligations.ReadBayAnswersItsView := by
  intro st s
  refine ⟨fun b v => ⟨?_, fun h => ?_⟩, fun x v h => exec_refused rfl (permitted_read rfl st) rfl (readBayOwner_refused h _)⟩
  · refine exec_read rfl rfl rfl ((readBayOwner_bayByte b v (taking st s)).trans ?_)
    rw [bayView_eq]
    rfl
  · rw [length_viewBytes b h v]
    cases v <;> rfl

/-- Settles O14. -/
theorem readFeederQueueActiveAnswer : Obligations.ReadFeederQueueActiveAnswer := by
  intro st s
  refine ⟨fun f => ?_, fun p h1 h2 => ?_, fun p h1 h2 => ?_, fun x h => ?_, fun p h => ⟨?_, ?_⟩⟩
  · rw [← feederView_eq]
    exact exec_read rfl rfl rfl (withFeeder_feederByte f _ _)
  · refine (exec_read (data := queueView s p.toNat) rfl rfl rfl (if_pos (placeOk_iff.mpr ⟨h1, h2⟩))).trans ?_
    rw [queueView, byteOf_toNat, funext queueEntryBytes_eq]
    congr 4
    funext q
    cases q.origin <;> rfl
  · refine exec_read rfl rfl rfl ((if_pos (placeOk_iff.mpr ⟨h1, h2⟩)).trans ?_)
    rw [activeView, byteOf_toNat]
    rfl
  · exact exec_refused rfl (permitted_read rfl st) rfl (withFeeder_of_noFeeder h _ _)
  · exact exec_refused rfl (permitted_read rfl st) rfl (if_neg (by rw [placeOk_eq_false h]; nofun))
  · exact exec_refused rfl (permitted_read rfl st) rfl (if_neg (by rw [placeOk_eq_false h]; nofun))

/-- Settles O15. -/
theorem readYardAnswersCounts : Obligations.ReadYardAnswersCounts := by
  intro st s
  refine ⟨?_, ?_⟩
  · refine (exec_read (data := yardView s) rfl rfl rfl rfl).trans ?_
    rw [yardView, runStateByte_eq]
    simp only [countOccupancy_eq, countBays_eq, startingOrStopping_eq]
    rfl
  · exact (sum_occupancies (List.finRange 40) s).trans (List.length_finRange)

end Sys2Proof.Proofs
end

section
/-! The bay table's own requests and the door's moments: O16, O17, O19, O21, O25, O26, O31. -/

namespace Sys2Proof.Machine

open Sys2Proof.Claims

@[simp] theorem bayAt_withBayRecord_same (b : Bay) (r : BayRecord) (s : State) : bayAt (withBayRecord b r s) b = r :=
  bayAt_modBay_same b (fun _ => r) s

theorem bayAt_withBayRecord_ne {b c : Bay} (h : c ≠ b) (r : BayRecord) (s : State) :
    bayAt (withBayRecord b r s) c = bayAt s c := bayAt_modBay_ne h (fun _ => r) s

@[simp] theorem bayAt_told (st : Station) (c : ResultCode) (data : List Byte) (s : State) (b : Bay) :
    bayAt (told st c data s) b = bayAt s b := rfl

/-- A request that passes the port's checks is answered by its owning block. -/
theorem exec_taken {i : Instr} {st : Station} {k : RequestKind} {args : List Byte} {owner : State → Reply × State}
    {s : State} (hi : exec i s = .next (takeRequest st k args owner s)) (hp : permitted k st = true)
    (hn : args.length = argCount k) :
    exec i s = .next (writeReply st (owner (taking st s)).1 (owner (taking st s)).2) := by
  rw [hi, takeRequest_of_permitted hp hn]

/-- A request whose answer writes one bay record, and nothing else. -/
theorem exec_recordWritten {i : Instr} {st : Station} {k : RequestKind} {args : List Byte} {owner : State → Reply × State}
    {s : State} {b : Bay} {r : BayRecord} {c : ResultCode} (hi : exec i s = .next (takeRequest st k args owner s))
    (hp : permitted k st = true) (hn : args.length = argCount k)
    (ho : owner (taking st s) = (⟨c, []⟩, withBayRecord b r (taking st s))) :
    exec i s = .next (told st c [] (withBayRecord b r s)) := by
  rw [exec_taken hi hp hn, ho, writeReply_withBayRecord_taking]

/-! ## ARRIVE -/

theorem identCharOk_iff (c : Byte) : identCharOk c = true
    ↔ (0x41 ≤ c.toNat ∧ c.toNat ≤ 0x5A) ∨ (0x30 ≤ c.toNat ∧ c.toNat ≤ 0x39) ∨ c.toNat = 0x20 := by
  simp [identCharOk, or_assoc]

theorem identOk_iff (i : List Byte) : identOk i = true ↔ identForm i := by
  simp only [identOk, Bool.and_eq_true, beq_iff_eq, List.all_eq_true, identCharOk_iff, Bool.not_eq_true',
    List.all_eq_false, and_assoc]

theorem identHeldElsewhere_iff (s : State) (b : Bay) (i : List Byte) : identHeldElsewhere s b i = true
    ↔ ∃ x, x ≠ b ∧ (bayAt s x).occupancy ≠ .vacant ∧ (bayAt s x).ident = some i := by
  simp [identHeldElsewhere, allBays, List.mem_finRange, and_assoc]

theorem clampAbove_fst (hi v : Nat) : (clampAbove hi v).1 = min v hi := by
  unfold clampAbove
  split <;> simp <;> omega

theorem clampAbove_snd (hi v : Nat) : (clampAbove hi v).2 = decide (hi < v) := by
  unfold clampAbove
  split
  · next h => exact (decide_eq_false (by omega)).symm
  · next h => exact (decide_eq_true (by omega)).symm

theorem storedDeparture_fst (v : Nat) : (storedDeparture v).1 = min v 4095 := clampAbove_fst 4095 v

theorem storedDeparture_snd (v : Nat) : (storedDeparture v).2 = decide (4095 < v) := clampAbove_snd 4095 v

theorem optional16_eq (hi lo : Byte) :
    optional16 hi lo = if number hi lo = 65535 then none else some (number hi lo) := rfl

/-- The capacity and the countdown given with an ARRIVE, where they are stored otherwise than given (R4, R11). -/
theorem enrol_clamped (c1 c0 d1 d0 : Byte) :
    (((optional16 c1 c0).map fun v => (storedCapacity v).2).getD false
      || ((optional16 d1 d0).map fun v => (storedDeparture v).2).getD false)
      = decide ((number c1 c0 ≠ 65535 ∧ tank (number c1 c0) ≠ number c1 c0)
          ∨ (number d1 d0 ≠ 65535 ∧ 4095 < number d1 d0)) := by
  have hc : ((optional16 c1 c0).map fun v => (storedCapacity v).2).getD false
      = decide (number c1 c0 ≠ 65535 ∧ tank (number c1 c0) ≠ number c1 c0) := by
    rw [optional16_eq]
    split <;> simp [*, storedCapacity_snd]
  have hd : ((optional16 d1 d0).map fun v => (storedDeparture v).2).getD false
      = decide (number d1 d0 ≠ 65535 ∧ 4095 < number d1 d0) := by
    rw [optional16_eq]
    split <;> simp [*, storedDeparture_snd]
  rw [hc, hd, Bool.decide_or]

theorem arrivedRecord_eq (i : List Byte) (minute : Nat) (c1 c0 d1 d0 : Byte) (r : BayRecord) :
    arrivedRecord i minute (optional16 c1 c0) (optional16 d1 d0) r
      = { r with
          occupancy := .arriving, ident := some i, arrival := some minute,
          capacity := if number c1 c0 = 65535 then r.capacity else tank (number c1 c0),
          departure := if number d1 d0 = 65535 then none else some (min (number d1 d0) 4095) } := by
  rw [arrivedRecord, optional16_eq, optional16_eq]
  by_cases hc : number c1 c0 = 65535 <;> by_cases hd : number d1 d0 = 65535 <;> simp [hc, hd, storedDeparture_fst]

section

variable (b : Bay) (i0 i1 i2 i3 i4 i5 i6 i7 c1 c0 d1 d0 : Byte)

/-- ARRIVE at a bay, its first two checks passed and failed (R4). -/
theorem arriveOwner_bayByte (s : State) :
    arriveOwner [bayByte b, i0, i1, i2, i3, i4, i5, i6, i7, c1, c0, d1, d0] s
      = if identOk [i0, i1, i2, i3, i4, i5, i6, i7] = false then refuse .badArgument s
        else if (bayAt s b).occupancy ≠ .vacant then refuse .refusedState s
        else if identHeldElsewhere s b [i0, i1, i2, i3, i4, i5, i6, i7] then refuse .refusedState s
        else enrol b [i0, i1, i2, i3, i4, i5, i6, i7] (optional16 c1 c0) (optional16 d1 d0) s := by
  simp only [arriveOwner, withBay_bayByte]

theorem exec_arrive_taken (x : Byte) (s : State) :
    exec (.arrive .gate [x, i0, i1, i2, i3, i4, i5, i6, i7, c1, c0, d1, d0]) s
      = .next (writeReply .gate (arriveOwner [x, i0, i1, i2, i3, i4, i5, i6, i7, c1, c0, d1, d0] (taking .gate s)).1
          (arriveOwner [x, i0, i1, i2, i3, i4, i5, i6, i7, c1, c0, d1, d0] (taking .gate s)).2) :=
  exec_taken rfl rfl rfl

theorem exec_arrive_badArgument {x : Byte} (h : noBay x ∨ ¬ identForm [i0, i1, i2, i3, i4, i5, i6, i7]) (s : State) :
    exec (.arrive .gate [x, i0, i1, i2, i3, i4, i5, i6, i7, c1, c0, d1, d0]) s
      = .next (told .gate .badArgument [] s) := by
  refine exec_refused rfl rfl rfl ?_
  simp only [arriveOwner]
  rcases h with h | h
  · exact withBay_of_noBay h _ _
  · have hok : identOk [i0, i1, i2, i3, i4, i5, i6, i7] = false := by rwa [← Bool.not_eq_true, identOk_iff]
    exact withBay_refused fun b => if_pos hok

theorem exec_arrive_refusedState {s : State} (hi : identForm [i0, i1, i2, i3, i4, i5, i6, i7])
    (h : (bayAt s b).occupancy ≠ .vacant
      ∨ ∃ y, y ≠ b ∧ (bayAt s y).occupancy ≠ .vacant ∧ (bayAt s y).ident = some [i0, i1, i2, i3, i4, i5, i6, i7]) :
    exec (.arrive .gate [bayByte b, i0, i1, i2, i3, i4, i5, i6, i7, c1, c0, d1, d0]) s
      = .next (told .gate .refusedState [] s) := by
  refine exec_refused rfl rfl rfl ?_
  have hok : ¬ identOk [i0, i1, i2, i3, i4, i5, i6, i7] = false := by simpa [identOk_iff] using hi
  refine (arriveOwner_bayByte b i0 i1 i2 i3 i4 i5 i6 i7 c1 c0 d1 d0 (taking .gate s)).trans ?_
  rw [if_neg hok]
  by_cases hv : (bayAt s b).occupancy = .vacant
  · have hheld : identHeldElsewhere (taking .gate s) b [i0, i1, i2, i3, i4, i5, i6, i7] = true :=
      (identHeldElsewhere_iff _ b _).mpr (h.resolve_left (not_not.mpr hv))
    exact (if_neg (not_not.mpr hv)).trans (if_pos hheld)
  · exact if_pos hv

end

/-- The loop arbiter leaves a loop that an exchange holds. -/
theorem serveLoop_of_busy {s : State} (h : s.loop.exchange.isSome = true) : serveLoop s = s := by
  rcases serveLoop_cases s with e | ⟨o, rest, hx, -⟩ | ⟨b, hx, -⟩
  · exact e
  · rw [hx] at h; contradiction
  · rw [hx] at h; contradiction

/-! ## CLOSE BAY and OPEN BAY -/

theorem closeBayOwner_bayByte (b : Bay) (s : State) :
    closeBayOwner [bayByte b] s = if (bayAt s b).occupancy = .vacant then
      (plain .done, modBay b (fun r => { r with occupancy := .outOfService }) s) else refuse .refusedState s := by
  simp only [closeBayOwner, withBay_bayByte]

theorem openBayOwner_bayByte (b : Bay) (s : State) :
    openBayOwner [bayByte b] s = if (bayAt s b).occupancy = .outOfService then (plain .done, emptyRecord b s)
      else refuse .refusedState s := by
  simp only [openBayOwner, withBay_bayByte]

theorem closeBayOwner_of_noBay {x : Byte} (h : noBay x) (s : State) : closeBayOwner [x] s = refuse .badArgument s := by
  simp only [closeBayOwner, withBay_of_noBay h, refuse, plain]

theorem openBayOwner_of_noBay {x : Byte} (h : noBay x) (s : State) : openBayOwner [x] s = refuse .badArgument s := by
  simp only [openBayOwner, withBay_of_noBay h, refuse, plain]

/-! ## MARK refused -/

theorem markOpOfByte_opByte (op : MarkOp) : markOpOfByte (opByte op) = some op := by cases op <;> rfl

theorem markOfByte_markByte (m : Mark) : markOfByte (markByte m) = some m := by cases m <;> rfl

theorem markOpOfByte_eq_none {o : Byte} (h : 4 ≤ o.toNat) : markOpOfByte o = none := by
  unfold markOpOfByte
  split <;> simp_all

theorem markOfByte_eq_none {y : Byte} (h : 3 ≤ y.toNat) : markOfByte y = none := by
  unfold markOfByte
  split <;> simp_all

theorem markPermitted_eq (m : Mark) (st : Station) : markPermitted m st = mayMark m st := by
  cases m <;> cases st <;> rfl

theorem stands_iff (r : BayRecord) : stands r ↔ ¬ (r.occupancy = .vacant ∨ r.occupancy = .outOfService) := by
  unfold stands
  cases r.occupancy <;> simp

/-- A MARK row with its own operation byte is taken as its request. -/
theorem exec_markRow (op : MarkOp) (st : Station) (x y : Byte) (s : State) :
    exec (markRow op st [x, opByte op, y]) s
      = .next (takeRequest st .mark [x, opByte op, y] (markOwner op st [x, opByte op, y]) s) := by
  have hrow : exec (markRow op st [x, opByte op, y]) s = .next (takeMark op st [x, opByte op, y] s) := by
    cases op <;> rfl
  have hother : otherMarkRow op [x, opByte op, y] = false := by cases op <;> rfl
  rw [hrow, takeMark, hother]
  rfl

theorem markOwner_bayByte (op : MarkOp) (st : Station) (b : Bay) (m : Mark) (s : State) :
    markOwner op st [bayByte b, opByte op, markByte m] s
      = if markPermitted m st = false then refuse .refusedRole s
        else if (bayAt s b).occupancy = .vacant ∨ (bayAt s b).occupancy = .outOfService then refuse .refusedState s
        else applyMark op st b m s := by
  simp only [markOwner, withBay_bayByte, markOpOfByte_opByte, markOfByte_markByte]

/-! ## The door's alerts -/

theorem isRunning_iff (s : State) : isRunning s = true ↔ s.run.state = .running := by simp [isRunning]

theorem openingCounts_iff (s : State) (r : BayRecord) :
    openingCounts (isRunning s) r = true ↔ timed s.run.state r := by
  simp only [openingCounts, isRunning, Bool.and_eq_true, decide_eq_true_iff, and_assoc]
  tauto

theorem doorDue_iff (s : State) (b : Bay) : doorDue s b = true ↔ timed s.run.state (bayAt s b)
    ∧ s.run.settings.doorLimit ≤ (bayAt s b).door.openSeconds ∧ (bayAt s b).permit = 0
    ∧ (bayAt s b).door.alertGiven = false := by
  simp only [doorDue, Bool.and_eq_true, openingCounts_iff, decide_eq_true_iff, Bool.not_eq_true', and_assoc]

/-- A raise, as the alert unit's laws tell it (R151, R153). -/
theorem raised_raiseIn (mode : Nesting) (c : Category) (e : Element) (u : AlertUnit) :
    raised mode c e u (raiseIn mode c e u) := by
  refine ⟨by rw [catAt_raiseIn, if_pos rfl], fun x => ?_, fun d hd => by rw [catAt_raiseIn, if_neg hd],
    fun st => alertAt_raiseIn mode c e u st, fun st => line_raiseIn mode c e u st⟩
  rw [catAt_raiseIn, if_pos rfl, mem_insertElement]
  exact or_comm

/-- One moment standing open in a change of its own is taken in it. -/
theorem takeMoments_singleton (m : Moment) (s : State) :
    takeMoments [m] s = { momentEffect m { s with moments := m :: s.moments } with moments := s.moments } := by
  have hm : m ∈ ({ s with moments := m :: s.moments } : State).moments := List.mem_cons_self
  have herase : ({ s with moments := m :: s.moments } : State).moments.erase m = s.moments := List.erase_cons_head m _
  rcases takeMoment_cases m { s with moments := m :: s.moments } with ⟨-, h⟩ | ⟨h, -⟩
  · exact h.trans (by rw [herase])
  · exact absurd hm h

/-- DOOR raised for a bay and door-alert-given set. -/
theorem giveDoorAlert_eq (b : Bay) (s : State) :
    giveDoorAlert b s = { withBayRecord b { bayAt s b with door := { (bayAt s b).door with alertGiven := true } } s with
      alert := raiseIn s.run.settings.nesting .door b.succ s.alert } := rfl

/-- An accepted DOOR PERMIT: stored, and where it has brought a running permit to 0, DOOR tested as at its end (R105, R106). -/
theorem storePermit_eq (b : Bay) (minutes : Nat) (s : State) :
    let stored := { bayAt s b with permit := min minutes 480 }
    storePermit b minutes s = (⟨doneUnless (480 < minutes), []⟩,
      if 0 < (bayAt s b).permit ∧ stored.permit = 0 ∧ doorDue (withBayRecord b stored s) b = true then
        giveDoorAlert b (withBayRecord b stored s) else withBayRecord b stored s) := by
  intro stored
  have hmod : modBay b (fun r => { r with permit := min minutes 480 }) s = withBayRecord b stored s := rfl
  have htest (t : State) (ms : List Moment) : doorTest b { t with moments := ms }
      = { doorTest b t with moments := ms } := by
    have hd : doorDue { t with moments := ms } b = doorDue t b := rfl
    unfold doorTest
    rw [hd]
    split <;> rfl
  simp only [storePermit, clampAbove_fst, clampAbove_snd, doneOr_eq _ _ rfl, hmod, Prod.mk.injEq, true_and]
  by_cases h : 0 < (bayAt s b).permit ∧ min minutes 480 = 0
  · rw [if_pos h, takeMoments_singleton]
    have heffect : momentEffect (.permitEnd b) { withBayRecord b stored s with
        moments := .permitEnd b :: (withBayRecord b stored s).moments }
        = { doorTest b (withBayRecord b stored s) with moments := .permitEnd b :: (withBayRecord b stored s).moments } :=
      htest _ _
    rw [heffect]
    unfold doorTest
    by_cases hd : doorDue (withBayRecord b stored s) b = true
    · rw [if_pos hd, if_pos ⟨h.1, h.2, hd⟩]
      rfl
    · rw [if_neg hd, if_neg fun hc => hd hc.2.2]
  · rw [if_neg h, if_neg fun hc => h ⟨hc.1, hc.2.1⟩]

/-- The command of a door's moment takes that moment (R104, R106). -/
theorem exec_doorMoment {s : State} {b : Bay} {i : Instr} {m : Moment}
    (hi : i = .doorLimitReached b ∧ m = .doorLimit b ∨ i = .permitEnd b ∧ m = .permitEnd b) :
    exec i s = .next (takeMoment m s) ∧ momentEffect m s = doorTest b s := by
  rcases hi with ⟨rfl, rfl⟩ | ⟨rfl, rfl⟩ <;> exact ⟨rfl, rfl⟩

end Sys2Proof.Machine

namespace Sys2Proof.Proofs

open Sys2Proof.Machine Sys2Proof.Claims

/-- Settles O17. -/
theorem arriveRefusedInOrder : Obligations.ArriveRefusedInOrder := by
  intro s x i0 i1 i2 i3 i4 i5 i6 i7 c1 c0 d1 d0 i arrive
  refine ⟨fun h => exec_arrive_badArgument _ _ _ _ _ _ _ _ _ _ _ _ h s, ?_⟩
  rintro b rfl hi h
  exact exec_arrive_refusedState b _ _ _ _ _ _ _ _ _ _ _ _ hi h

/-- Settles O16. -/
theorem arriveEnrols : Obligations.ArriveEnrols := by
  intro s b i0 i1 i2 i3 i4 i5 i6 i7 c1 c0 d1 d0 i c d hv hi hu
  have hok : ¬ identOk i = false := by simpa [identOk_iff] using hi
  have hfree : ¬ identHeldElsewhere (taking .gate s) b i = true := by
    rw [identHeldElsewhere_iff]
    rintro ⟨x, hx, ho, he⟩
    exact hu x hx ho he
  have howner := arriveOwner_bayByte b i0 i1 i2 i3 i4 i5 i6 i7 c1 c0 d1 d0 (taking .gate s)
  have hvac : ¬ (bayAt (taking .gate s) b).occupancy ≠ .vacant := not_not.mpr hv
  rw [if_neg hok, if_neg hvac, if_neg hfree, enrol, enrol_clamped] at howner
  refine ⟨_, exec_arrive_taken i0 i1 i2 i3 i4 i5 i6 i7 c1 c0 d1 d0 (bayByte b) s, ?_⟩
  rw [howner, doneOr_eq _ _ rfl]
  have hbays (u : State) (x : Bay) (r : Reply) : bayAt (writeReply .gate r (serveLoop u)) x = bayAt u x :=
    bayAt_congr (serveLoop_bays u) x
  refine ⟨?_, fun x hx => ?_, ?_, ?_, ?_, ?_, fun h => ?_⟩
  · rw [hbays, bayAt_modBay_same, arrivedRecord_eq]
    rfl
  · rw [hbays, bayAt_modBay_ne hx]
    rfl
  · rw [slotAt_writeReply_plain]
  · exact serveLoop_run _
  · exact serveLoop_arb _
  · exact serveLoop_alert _
  · have hbusy : ((modBay b (arrivedRecord i s.run.yardMinute (optional16 c1 c0) (optional16 d1 d0))
        (taking .gate s)).loop.exchange).isSome = true := h
    have hloop := congrArg State.loop (serveLoop_of_busy hbusy)
    exact hloop

/-- Settles O19. -/
theorem setDepartureStores : Obligations.SetDepartureStores := by
  intro s st hst
  have hp : permitted .setDeparture st = true := by rcases hst with rfl | rfl <;> rfl
  refine ⟨fun b m1 m0 ho => exec_recordWritten rfl hp rfl ?_, fun b m1 m0 ha hk => exec_refused rfl hp rfl ?_,
    fun x m1 m0 h => exec_refused rfl hp rfl ?_⟩
  · simp only [setDepartureOwner, withBay_bayByte]
    refine (if_pos ho).trans ?_
    rw [optional16_eq]
    by_cases h : number m1 m0 = 65535
    · rw [if_pos h]
      simp only [h, doneUnless]
      rfl
    · rw [if_neg h]
      simp only [storedDeparture_fst, storedDeparture_snd, doneOr_eq _ _ rfl, h, ne_eq, not_false_eq_true,
        true_and, if_false]
      rfl
  · simp only [setDepartureOwner, withBay_bayByte]
    exact if_neg (not_or.mpr ⟨ha, hk⟩)
  · simp only [setDepartureOwner]
    exact withBay_of_noBay h _ _

theorem exec_closeBay_vacant {s : State} {b : Bay} (h : (bayAt s b).occupancy = .vacant) :
    exec (.closeBay .service [bayByte b]) s
      = .next (told .service .done [] (withBayRecord b { bayAt s b with occupancy := .outOfService } s)) :=
  exec_recordWritten rfl rfl rfl ((closeBayOwner_bayByte b _).trans (if_pos h))

theorem exec_closeBay_refused {s : State} {b : Bay} (h : (bayAt s b).occupancy ≠ .vacant) :
    exec (.closeBay .service [bayByte b]) s = .next (told .service .refusedState [] s) :=
  exec_refused rfl rfl rfl ((closeBayOwner_bayByte b _).trans (if_neg h))

/-- Settles O21. -/
theorem closeAndOpenBay : Obligations.CloseAndOpenBay := by
  refine ⟨fun s b h => exec_closeBay_vacant h, fun s b h => exec_closeBay_refused h, fun s b h => ?_,
    fun s b h => exec_refused rfl rfl rfl ((openBayOwner_bayByte b _).trans (if_neg h)),
    fun s x h => ⟨exec_refused rfl rfl rfl (closeBayOwner_of_noBay h _), exec_refused rfl rfl rfl (openBayOwner_of_noBay h _)⟩,
    fun s t b i0 i1 i2 i3 i4 i5 i6 i7 c1 c0 d1 d0 hv hi ht => ?_, fun s t b args _ ho => exec_closeBay_refused ?_⟩
  · have howner : openBayOwner [bayByte b] (taking .service s) = (plain .done, emptyRecord b (taking .service s)) :=
      (openBayOwner_bayByte b _).trans (if_pos h)
    have ht : exec (.openBay .service [bayByte b]) s
        = .next (writeReply .service ⟨.done, []⟩ (emptyRecord b (taking .service s))) := by
      rw [exec_taken (k := .openBay) (owner := openBayOwner [bayByte b]) rfl rfl rfl, howner]
      rfl
    refine ⟨_, ht, by rw [slotAt_writeReply_plain], ?_, fun c hc => ?_, rfl, rfl, rfl⟩
    · exact (bayAt_emptyRecord b b (taking .service s)).trans (if_pos rfl)
    · exact emptyRecord_others b (taking .service s) c hc
  · rw [exec_closeBay_vacant hv] at ht
    cases ht
    refine exec_arrive_refusedState b i0 i1 i2 i3 i4 i5 i6 i7 c1 c0 d1 d0 hi (.inl ?_)
    rw [bayAt_told, bayAt_withBayRecord_same]
    nofun
  · rw [ho]
    nofun

/-- Settles O25. -/
theorem markRefusedInOrder : Obligations.MarkRefusedInOrder := by
  intro s st hst
  have hp : permitted .mark st = true := (permitted_eq .mark st).trans hst
  refine ⟨fun op x y h => exec_refused (exec_markRow op st x y s) hp rfl ?_, fun x o y h => ?_,
    fun op b m h => exec_refused (exec_markRow op st _ _ s) hp rfl ?_,
    fun op b m hm h => exec_refused (exec_markRow op st _ _ s) hp rfl ?_⟩
  · simp only [markOwner]
    rcases h with h | h
    · exact withBay_of_noBay h _ _
    · refine withBay_refused fun b => ?_
      simp only [markOpOfByte_opByte, markOfByte_eq_none h]
  · have hrow : exec (.markSet st [x, o, y]) s = .next (takeRequest st .mark [x, o, y] (markOwner .set st [x, o, y]) s) := by
      have hother : otherMarkRow .set [x, o, y] = false := by
        simp [otherMarkRow, markOpOfByte_eq_none h]
      show Host.Outcome.next (takeMark .set st [x, o, y] s) = _
      rw [takeMark, hother]
      rfl
    refine exec_refused hrow hp rfl ?_
    simp only [markOwner]
    exact withBay_refused fun b => by simp only [markOpOfByte_eq_none h]
  · rw [markOwner_bayByte, if_pos ((markPermitted_eq m st).trans h)]
  · rw [markOwner_bayByte, if_neg (by rw [markPermitted_eq, hm]; nofun)]
    exact if_pos (not_not.mp fun hn => h ((stands_iff _).mpr hn))

/-- Settles O31. -/
theorem doorMomentsRaiseOnce : Obligations.DoorMomentsRaiseOnce := by
  intro s b i m hi due
  obtain ⟨hexec, heffect⟩ := exec_doorMoment (s := s) hi
  rw [hexec]
  have hdue : doorDue s b = true ↔ due := doorDue_iff s b
  rcases takeMoment_cases m s with ⟨hm, e⟩ | ⟨hm, e⟩ <;> rw [e]
  · refine ⟨fun _ hd => ⟨_, rfl, ?_⟩, fun _ hd => ?_, fun h => absurd hm h⟩
    · rw [heffect, doorTest, if_pos (hdue.mpr hd), giveDoorAlert_eq]
      exact ⟨raised_raiseIn _ _ _ _, rfl⟩
    · rw [heffect, doorTest, if_neg fun h => hd (hdue.mp h)]
  · exact ⟨fun h => absurd h hm, fun h => absurd h hm, fun _ => rfl⟩

/-- Settles O26. -/
theorem doorPermitStoresAndEnds : Obligations.DoorPermitStoresAndEnds := by
  intro s st hst
  have hp : permitted .doorPermit st = true := by rcases hst with rfl | rfl <;> rfl
  refine ⟨fun b m1 m0 ho => ?_, fun b m1 m0 ho => exec_refused rfl hp rfl ?_, fun x m1 m0 h => exec_refused rfl hp rfl ?_⟩
  · intro due reply stored
    have howner : doorPermitOwner [bayByte b, m1, m0] (taking st s) = storePermit b (number m1 m0) (taking st s) := by
      simp only [doorPermitOwner, withBay_bayByte]
      exact if_neg ((stands_iff _).mp ho)
    have hstored : doorDue (withBayRecord b stored (taking st s)) b = true ↔ timed s.run.state (bayAt s b)
        ∧ s.run.settings.doorLimit ≤ (bayAt s b).door.openSeconds ∧ stored.permit = 0
        ∧ (bayAt s b).door.alertGiven = false := by
      rw [doorDue_iff]
      rw [bayAt_withBayRecord_same]
      exact Iff.rfl
    have hzero : stored.permit = 0 ↔ number m1 m0 = 0 := by
      show min (number m1 m0) 480 = 0 ↔ _
      omega
    have hpermit : storePermit b (number m1 m0) (taking st s) = (⟨reply, []⟩,
        if 0 < (bayAt s b).permit ∧ stored.permit = 0 ∧ doorDue (withBayRecord b stored (taking st s)) b = true then
          giveDoorAlert b (withBayRecord b stored (taking st s)) else withBayRecord b stored (taking st s)) :=
      storePermit_eq b (number m1 m0) (taking st s)
    have hdue : due ↔ 0 < (bayAt s b).permit ∧ stored.permit = 0
        ∧ doorDue (withBayRecord b stored (taking st s)) b = true := by
      rw [hstored, hzero]
      simp only [due]
      tauto
    refine ⟨fun hn => exec_recordWritten rfl hp rfl (howner.trans (hpermit.trans ?_)), fun hd => ?_⟩
    · rw [if_neg fun h => hn (hdue.mpr h)]
    · rw [if_pos (hdue.mp hd)] at hpermit
      have ht : exec (.doorPermit st [bayByte b, m1, m0]) s
          = .next (writeReply st ⟨reply, []⟩ (giveDoorAlert b (withBayRecord b stored (taking st s)))) := by
        rw [exec_taken (k := .doorPermit) (owner := doorPermitOwner [bayByte b, m1, m0]) rfl hp rfl, howner, hpermit]
      refine ⟨_, ht, by rw [slotAt_writeReply_plain], ?_, fun c hc => ?_, raised_raiseIn _ _ _ _, rfl, rfl, rfl⟩
      · refine (bayAt_modBay_same b (fun r => { r with door := { r.door with alertGiven := true } }) _).trans ?_
        rw [bayAt_withBayRecord_same]
      · exact (bayAt_modBay_ne hc (fun r => { r with door := { r.door with alertGiven := true } }) _).trans
          (bayAt_withBayRecord_ne hc _ _)
  · simp only [doorPermitOwner, withBay_bayByte]
    exact if_pos (not_not.mp fun hn => ho ((stands_iff _).mpr hn))
  · simp only [doorPermitOwner]
    exact withBay_of_noBay h _ _

end Sys2Proof.Proofs
end

section
/-! The loop arbiter's table (R52) and the round schedule (R41 to R44): O33, O34, O36; the timeouts of R132: O30. -/

namespace Sys2Proof.Machine

open Sys2Proof.Claims

/-! ## The next poll of a round (R42) -/

theorem polled_iff (o : Occupancy) : polled o = true ↔ o = .arriving ∨ o = .parked ∨ o = .departing := by
  cases o <;> simp [polled]

theorem nextPoll_eq_none_iff (s : State) (p : Nat) : nextPoll s p = none ↔ nothingAbove s p := by
  simp only [nextPoll, List.find?_eq_none, allBays, List.mem_finRange, true_implies, Bool.and_eq_true, decide_eq_true_eq,
    polled_iff, not_and']
  exact Iff.rfl

theorem nextPoll_some {s : State} {p : Nat} {b : Bay} (h : nextPoll s p = some b) : nextToPoll s p b := by
  obtain ⟨hb, before, after, hl, hnone⟩ := List.find?_eq_some_iff_append.mp h
  simp only [Bool.and_eq_true, decide_eq_true_eq, polled_iff] at hb
  refine ⟨hb.2, hb.1, fun c hc hpc => ?_⟩
  have hsorted : (before ++ b :: after).Pairwise (· < ·) := hl ▸ List.pairwise_lt_finRange 40
  have hmem : c ∈ before ++ b :: after := hl ▸ List.mem_finRange c
  rcases List.mem_append.mp hmem with hcb | hca
  · have := hnone c hcb
    rw [(polled_iff _).mpr hc] at this
    simp [bayNumber, hpc] at this
  · rcases List.mem_cons.mp hca with rfl | hca
    · exact le_refl _
    · exact le_of_lt ((List.pairwise_cons.mp (List.pairwise_append.mp hsorted).2.1).1 c hca)

theorem nextPoll_eq_some_iff (s : State) (p : Nat) (b : Bay) : nextPoll s p = some b ↔ nextToPoll s p b := by
  refine ⟨nextPoll_some, fun ⟨hb, hpb, hmin⟩ => ?_⟩
  cases hn : nextPoll s p with
  | none => exact absurd hpb ((nextPoll_eq_none_iff s p).mp hn b hb)
  | some c =>
    obtain ⟨hc, hpc, hcmin⟩ := nextPoll_some hn
    have hbc : b.val = c.val := le_antisymm (hmin c hc hpc) (hcmin b hb hpb)
    rw [Fin.ext hbc]

theorem nextPoll_congr {s t : State} (h : ∀ b, (bayAt t b).occupancy = (bayAt s b).occupancy) (p : Nat) :
    nextPoll t p = nextPoll s p := by
  simp only [nextPoll, h]

theorem pollLeft_eq_some_iff (s : State) (b : Bay) : pollLeft s = some b ↔ hasPollLeft s b := by
  unfold pollLeft hasPollLeft
  cases s.loop.round with
  | none => simp
  | some p => simpa using nextPoll_eq_some_iff s p b

theorem pollLeft_eq_none_iff (s : State) : pollLeft s = none ↔ noPollLeft s := by
  unfold pollLeft noPollLeft
  cases s.loop.round with
  | none => simp
  | some p => simpa using nextPoll_eq_none_iff s p

/-! ## The table of R52 -/

/-- The loop with an exchange begun on it (R37). -/
def LoopControl.begin (b : Bay) (k : ExchangeKind) (l : LoopControl) : LoopControl :=
  { l with exchange := some ⟨b, k, .sending, false⟩, lde := true, ltx := requestFrame b k }

/-- The loop after its head order is taken (R52). -/
def LoopControl.order (l : LoopControl) : LoopControl :=
  match l.orders with
  | [] => l
  | o :: rest => { l with orders := rest, orderRun := min (l.orderRun + 1) 4 }.begin o.bay (.order o.kind)

/-- The loop after the arbiter's choice, by the run state and the poll that is left (R52). -/
def LoopControl.served (x : RunState) (poll : Option Bay) (l : LoopControl) : LoopControl :=
  match l.exchange, x, poll with
  | none, .running, some b =>
    if l.orders ≠ [] ∧ l.orderRun < 4 then l.order
    else { l with round := some (bayNumber b), orderRun := 0 }.begin b .poll
  | none, .running, none => l.order
  | none, .halting, _ => l.order
  | _, _, _ => l

theorem takeOrder_loop (s : State) : (takeOrder s).loop = s.loop.order := by
  unfold takeOrder LoopControl.order
  cases s.loop.orders <;> rfl

/-- What the loop arbiter's choice makes of the loop. -/
theorem serveLoop_loop (s : State) : (serveLoop s).loop = s.loop.served s.run.state (pollLeft s) := by
  unfold serveLoop LoopControl.served
  cases s.loop.exchange with
  | some x => rfl
  | none =>
    cases s.run.state with
    | running =>
      cases pollLeft s with
      | some b =>
        dsimp only
        split
        · exact takeOrder_loop s
        · rfl
      | none => exact takeOrder_loop s
    | halting => exact takeOrder_loop s
    | setup => rfl
    | halted => rfl

theorem LoopControl.order_cons {l : LoopControl} {o : Order} {rest : List Order} (h : l.orders = o :: rest) :
    l.order = { l with orders := rest, orderRun := min (l.orderRun + 1) 4 }.begin o.bay (.order o.kind) := by
  unfold order
  rw [h]

theorem LoopControl.order_nil {l : LoopControl} (h : l.orders = []) : l.order = l := by
  unfold order
  rw [h]

/-- The loop is free in RUNNING: a poll is left and its turn has come. -/
theorem LoopControl.served_poll {l : LoopControl} (hx : l.exchange = none) (b : Bay)
    (h : l.orders = [] ∨ 4 ≤ l.orderRun) :
    l.served .running (some b) = { l with round := some (bayNumber b), orderRun := 0 }.begin b .poll := by
  unfold served
  rw [hx]
  refine if_neg fun ⟨ho, hr⟩ => ?_
  rcases h with h | h
  · exact ho h
  · omega

/-- The loop is free in RUNNING: the head order's turn has come. -/
theorem LoopControl.served_order {l : LoopControl} (hx : l.exchange = none) {poll : Option Bay}
    (h : l.orderRun < 4 ∨ poll = none) (ho : l.orders ≠ []) : l.served .running poll = l.order := by
  unfold served
  rw [hx]
  cases poll with
  | none => rfl
  | some b => exact if_pos ⟨ho, h.resolve_right nofun⟩

theorem LoopControl.served_halting {l : LoopControl} (hx : l.exchange = none) (poll : Option Bay) :
    l.served .halting poll = l.order := by
  unfold served
  rw [hx]

theorem LoopControl.served_idle {l : LoopControl} (hx : l.exchange = none) {x : RunState} {poll : Option Bay}
    (h : (x = .running ∧ l.orders = [] ∧ poll = none) ∨ (x = .halting ∧ l.orders = []) ∨ x = .setup ∨ x = .halted) :
    l.served x poll = l := by
  unfold served
  rw [hx]
  rcases h with ⟨rfl, ho, rfl⟩ | ⟨rfl, ho⟩ | rfl | rfl
  · exact order_nil ho
  · exact order_nil ho
  · rfl
  · rfl

theorem LoopControl.served_busy {l : LoopControl} (hx : l.exchange.isSome = true) (x : RunState) (poll : Option Bay) :
    l.served x poll = l := by
  unfold served
  cases he : l.exchange with
  | none => rw [he] at hx; contradiction
  | some y => rfl

/-! ## A round start (R41 to R44) -/

/-- The loop after a round start, before the arbiter's choice; `empty` says that no bay is polled. -/
def LoopControl.roundBegun (period : Nat) (empty : Bool) (l : LoopControl) : LoopControl :=
  { l with
    nextRound := some period
    overruns := if l.round = none then l.overruns else min (l.overruns + 1) 65535
    round := if l.round = none ∧ empty = true then none else some (l.round.getD 0) }

/-- No poll in flight is at position 0: no bay has that number (R1). -/
theorem roundPollInFlight_zero (s : State) : roundPollInFlight s 0 = false := by
  unfold roundPollInFlight
  cases s.loop.exchange with
  | none => rfl
  | some x => simp [bayNumber]

theorem startRound_loop (s : State) :
    (startRound s).loop = s.loop.roundBegun s.run.settings.pollPeriod (nextPoll s 0).isNone := by
  unfold startRound LoopControl.roundBegun
  dsimp only
  cases hr : s.loop.round with
  | none =>
    unfold endRound
    dsimp only
    rw [roundPollInFlight_zero]
    have hnext : nextPoll { s with loop := { s.loop with nextRound := some s.run.settings.pollPeriod, round := some 0 } } 0
        = nextPoll s 0 := rfl
    rw [hnext]
    cases (nextPoll s 0).isNone <;> simp
  | some p => simp

theorem startRound_bayAt (s : State) (b : Bay) : bayAt (startRound s) b = bayAt s b := by
  unfold startRound
  dsimp only
  split
  · exact bayAt_congr (endRound_bays _) b
  · rfl

theorem startRound_alert (s : State) : (startRound s).alert
    = if s.loop.round = none then s.alert else raiseIn s.run.settings.nesting .link yard s.alert := by
  unfold startRound
  dsimp only
  split
  · next h => rw [endRound_alert, if_pos h]
  · next h => rw [if_neg (by rw [h]; nofun)]; rfl

/-- The poll left after a round start: of the round begun, or of the one that goes on. -/
theorem pollLeft_startRound (s : State) : pollLeft (startRound s) = nextPoll s (s.loop.round.getD 0) := by
  unfold pollLeft
  rw [startRound_loop]
  by_cases h : s.loop.round = none ∧ (nextPoll s 0).isNone = true
  · simp only [LoopControl.roundBegun, if_pos h]
    rw [h.1]
    exact (Option.isNone_iff_eq_none.mp h.2).symm
  · simp only [LoopControl.roundBegun, if_neg h]
    exact nextPoll_congr (fun b => by rw [startRound_bayAt]) _

/-- The loop after a round start and the arbiter's choice. -/
theorem startedLoop_eq (s : State) : (serveLoop (startRound s)).loop
    = (s.loop.roundBegun s.run.settings.pollPeriod (nextPoll s 0).isNone).served s.run.state
        (nextPoll s (s.loop.round.getD 0)) := by
  rw [serveLoop_loop, startRound_loop, startRound_run, pollLeft_startRound]

theorem LoopControl.served_keeps (l : LoopControl) (x : RunState) (poll : Option Bay) :
    (l.served x poll).nextRound = l.nextRound ∧ (l.served x poll).overruns = l.overruns := by
  have horder : l.order.nextRound = l.nextRound ∧ l.order.overruns = l.overruns := by
    unfold order
    split <;> exact ⟨rfl, rfl⟩
  unfold served
  split
  · split
    · exact horder
    · exact ⟨rfl, rfl⟩
  · exact horder
  · exact horder
  · exact ⟨rfl, rfl⟩

theorem isNone_nextPoll_iff (s : State) (p : Nat) : (nextPoll s p).isNone = true ↔ nothingAbove s p :=
  Option.isNone_iff_eq_none.trans (nextPoll_eq_none_iff s p)

theorem roundBegun_eq (s : State) : s.loop.roundBegun s.run.settings.pollPeriod (nextPoll s 0).isNone
    = { s.loop with
        nextRound := some s.run.settings.pollPeriod
        overruns := if s.loop.round = none then s.loop.overruns else min (s.loop.overruns + 1) 65535
        round := if s.loop.round = none ∧ nothingAbove s 0 then none else some (s.loop.round.getD 0) } := by
  simp only [LoopControl.roundBegun, isNone_nextPoll_iff]

theorem roundStarted_serveLoop (s : State) : roundStarted s (serveLoop (startRound s)) := by
  have hrun : (serveLoop (startRound s)).run.state = s.run.state := by rw [serveLoop_run, startRound_run]
  have hkeeps := LoopControl.served_keeps (s.loop.roundBegun s.run.settings.pollPeriod (nextPoll s 0).isNone) s.run.state
    (nextPoll s (s.loop.round.getD 0))
  have hbegun := roundBegun_eq s
  have hloop := startedLoop_eq s
  generalize s.loop.roundBegun s.run.settings.pollPeriod (nextPoll s 0).isNone = l at hkeeps hbegun hloop
  have hexchange : l.exchange = s.loop.exchange := by rw [hbegun]
  have horders : l.orders = s.loop.orders := by rw [hbegun]
  have horderRun : l.orderRun = s.loop.orderRun := by rw [hbegun]
  simp only [roundStarted, begun, hrun, hloop]
  refine ⟨hkeeps.1.trans (by rw [hbegun]), hkeeps.2.trans (by rw [hbegun]), fun hx => ?_,
    fun hx hr => ⟨fun b hb ho => ?_, fun o rest ho hn => ?_, fun hn ho => ?_⟩⟩
  · rw [LoopControl.served_busy (hexchange ▸ hx), hbegun]
  · rw [hr, (nextPoll_eq_some_iff s _ b).mpr hb,
      LoopControl.served_poll (hexchange.trans hx) b (horders.symm ▸ horderRun.symm ▸ ho)]
    exact ⟨⟨rfl, rfl, rfl⟩, rfl, rfl, horders⟩
  · have hne : l.orders ≠ [] := by rw [horders, ho]; nofun
    rw [hr, LoopControl.served_order (hexchange.trans hx)
      (hn.imp (horderRun ▸ id) (nextPoll_eq_none_iff s _).mpr) hne, LoopControl.order_cons (horders.trans ho), hbegun]
    exact ⟨⟨rfl, rfl, rfl⟩, rfl, rfl, rfl⟩
  · rw [LoopControl.served_idle (hexchange.trans hx)
      (.inl ⟨hr, horders.trans ho, (nextPoll_eq_none_iff s _).mpr hn⟩), hbegun]

/-- A round start is told by the loop and the run state it leaves. -/
theorem roundStarted_congr {s t u : State} (hl : t.loop = u.loop) (hr : t.run.state = u.run.state)
    (h : roundStarted s u) : roundStarted s t := by
  unfold roundStarted at h ⊢
  simp only [begun, hl, hr] at h ⊢
  exact h

/-! ## Stops on their way -/

theorem startUnsent_iff (s : State) (b : Bay) : startUnsent s b = true ↔ startWaits s b := by
  simp only [startUnsent, List.any_eq_true, startWaits]
  constructor
  · rintro ⟨⟨c, k⟩, ho, h⟩
    cases k with
    | start resume =>
      obtain rfl : c = b := bay_of_isStartFor h
      exact ⟨resume, ho⟩
    | stop => simp [isStartFor] at h
  · rintro ⟨resume, ho⟩
    exact ⟨_, ho, by simp [isStartFor]⟩

/-- The order queue with a STOP placed for a bay (R49, R50). -/
def withStop (b : Bay) (q : List Order) : List Order :=
  if q.any (isStartFor b) then q.filter fun o => !isStartFor b o
  else if q.any (isStopFor b) then q else q ++ [⟨b, .stop⟩]

theorem placeStop_loop (b : Bay) (s : State) :
    (placeStop b s).loop = { s.loop with orders := withStop b s.loop.orders } := by
  unfold placeStop withStop startUnsent
  split
  · rfl
  · split <;> rfl

/-- A STOP placed for a bay with no START to remove stands in the queue (R49). -/
theorem stop_mem_placeStop {s : State} {b : Bay} (h : ¬ startWaits s b) :
    (⟨b, .stop⟩ : Order) ∈ (placeStop b s).loop.orders := by
  rw [placeStop_loop]
  have hs : ¬ s.loop.orders.any (isStartFor b) = true := fun hs => h ((startUnsent_iff s b).mp hs)
  simp only [withStop, if_neg hs]
  split
  · next ho =>
    obtain ⟨o, ho, hb⟩ := List.any_eq_true.mp ho
    exact of_decide_eq_true hb ▸ ho
  · exact List.mem_append_right _ (List.mem_singleton.mpr rfl)

theorem not_startWaits_of_noOrder {s : State} {b : Bay} (h : noOrder s b) : ¬ startWaits s b :=
  fun ⟨_, ho⟩ => h _ ho rfl

/-- The loop arbiter takes a waiting STOP for the loop, or leaves it in the queue. -/
theorem stopOnItsWay_served {s t : State} {b : Bay} {x : RunState} {poll : Option Bay}
    (ht : t.loop = s.loop.served x poll) (h : (⟨b, .stop⟩ : Order) ∈ s.loop.orders) : stopOnItsWay t b := by
  have horder : (⟨b, .stop⟩ : Order) ∈ s.loop.order.orders
      ∨ s.loop.order.exchange = some ⟨b, .order .stop, .sending, false⟩ := by
    cases ho : s.loop.orders with
    | nil => rw [ho] at h; cases h
    | cons o rest =>
      rw [LoopControl.order_cons ho]
      rw [ho] at h
      rcases List.mem_cons.mp h with rfl | h
      · exact .inr rfl
      · exact .inl h
  unfold stopOnItsWay
  rw [ht]
  unfold LoopControl.served
  split
  · split
    · exact horder
    · exact .inl h
  · exact horder
  · exact horder
  · exact .inl h

theorem stopOnItsWay_serveLoop {s : State} {b : Bay} (h : (⟨b, .stop⟩ : Order) ∈ s.loop.orders) :
    stopOnItsWay (serveLoop s) b := stopOnItsWay_served (serveLoop_loop s) h

/-! ## Timeouts and holdoffs -/

theorem timeoutDue_iff (s : State) (b : Bay) : timeoutDue s b = true
    ↔ (bayAt s b).defrost.state = .active ∧ s.run.settings.tmax ≤ (bayAt s b).defrost.elapsed := by
  simp [timeoutDue]

/-- The record of a bay that becomes STOPPING with a reason (R134 to R136). -/
def stoppedRecord (r : StopReason) (x : BayRecord) : BayRecord :=
  { x with defrost := { x.defrost with state := .stopping, reason := some r, shedPending := false } }

theorem bayAt_stopEpisode (b c : Bay) (r : StopReason) (s : State) :
    bayAt (stopEpisode b r s) c = if c = b then stoppedRecord r (bayAt s b) else bayAt s c := by
  rw [stopEpisode, bayAt_congr (placeStop_bays b _), bayAt_modDefrost]
  rfl

theorem stopEpisode_arb (b : Bay) (r : StopReason) (s : State) :
    (stopEpisode b r s).arb = { s.arb with active := s.arb.active.filter fun x => decide (x ≠ b) } :=
  placeStop_arb b _

theorem stopEpisode_loop (b : Bay) (r : StopReason) (s : State) :
    (stopEpisode b r s).loop = (placeStop b s).loop := by
  rw [stopEpisode, placeStop_loop, placeStop_loop]
  rfl

theorem takeMoment_of_mem {m : Moment} {s : State} (h : m ∈ s.moments) :
    takeMoment m s = { momentEffect m s with moments := s.moments.erase m } :=
  (takeMoment_cases m s).elim (fun ⟨_, e⟩ => e) fun ⟨hn, _⟩ => absurd h hn

theorem takeMoment_of_not_mem {m : Moment} {s : State} (h : m ∉ s.moments) : takeMoment m s = s :=
  (takeMoment_cases m s).elim (fun ⟨hm, _⟩ => absurd hm h) fun ⟨_, e⟩ => e

/-- TIMEOUT takes its moment, and the loop arbiter chooses where the bay has timed out (R52, R132). -/
theorem exec_timeout (s : State) (b : Bay) : exec (.timeout b) s
    = .next (if s.moments.contains (.timeout b) && timeoutDue s b then serveLoop (takeMoment (.timeout b) s)
        else takeMoment (.timeout b) s) := rfl

theorem exec_timeout_due {s : State} {b : Bay} (hm : .timeout b ∈ s.moments) (hd : timeoutDue s b = true) :
    exec (.timeout b) s
      = .next (serveLoop { stopEpisode b .timeout s with moments := s.moments.erase (.timeout b) }) := by
  have hc : (s.moments.contains (.timeout b) && timeoutDue s b) = true := by simp [hm, hd]
  have heffect : momentEffect (.timeout b) s = stopEpisode b .timeout s := if_pos hd
  rw [exec_timeout, if_pos hc, takeMoment_of_mem hm, heffect]

theorem exec_timeout_notDue {s : State} {b : Bay} (hm : .timeout b ∈ s.moments) (hd : ¬ timeoutDue s b = true) :
    exec (.timeout b) s = .next { s with moments := s.moments.erase (.timeout b) } := by
  have hc : ¬ (s.moments.contains (.timeout b) && timeoutDue s b) = true := by simp [hd]
  have heffect : momentEffect (.timeout b) s = s := if_neg hd
  rw [exec_timeout, if_neg hc, takeMoment_of_mem hm, heffect]

theorem momentEffect_holdoffEnd {s : State} {b : Bay} (h : (bayAt s b).defrost.holdoff = 1) :
    momentEffect (.holdoffEnd b) s
      = withBayRecord b { bayAt s b with defrost := { (bayAt s b).defrost with holdoff := 0 } } s := by
  have he : endHoldoff (bayAt s b).defrost = { (bayAt s b).defrost with holdoff := 0 } := by
    rw [endHoldoff, if_pos h]
  show withBayRecord b { bayAt s b with defrost := endHoldoff (bayAt s b).defrost } s = _
  rw [he]

theorem withBayRecord_self (b : Bay) (s : State) : withBayRecord b (bayAt s b) s = s := by
  simp [withBayRecord, bayAt]

theorem momentEffect_holdoffEnd_of_ne {s : State} {b : Bay} (h : (bayAt s b).defrost.holdoff ≠ 1) :
    momentEffect (.holdoffEnd b) s = s := by
  have he : endHoldoff (bayAt s b).defrost = (bayAt s b).defrost := by
    rw [endHoldoff, if_neg h]
  show withBayRecord b { bayAt s b with defrost := endHoldoff (bayAt s b).defrost } s = _
  rw [he]
  exact withBayRecord_self b s

/-! ## The end of a gap -/

theorem exec_idleGapEnd {s : State} {b : Bay} {k : ExchangeKind} {ms : Nat} {v : Bool}
    (h : s.loop.exchange = some ⟨b, k, .gap ms, v⟩) : exec .idleGapEnd s
      = .next (haltTest (serveLoop { s with loop := { s.loop with exchange := none } })) := by
  show execIdleGapEnd s = _
  unfold execIdleGapEnd
  rw [h]

/-- The loop after the end of a gap: the arbiter has chosen (R37, R52). -/
theorem gapEnd_loop (s : State) :
    (haltTest (serveLoop { s with loop := { s.loop with exchange := none } })).loop
      = ({ s.loop with exchange := none } : LoopControl).served s.run.state (pollLeft s) := by
  have hpoll : pollLeft { s with loop := { s.loop with exchange := none } } = pollLeft s := rfl
  rw [haltTest_loop, serveLoop_loop, hpoll]

/-! ## A seconds tick that counts the last second away -/

theorem foldl_inv_mem {α β : Type} {P : β → Prop} {g : β → α → β} (l : List α) (h : ∀ x, ∀ a ∈ l, P x → P (g x a)) {x : β}
    (hx : P x) : P (l.foldl g x) := by
  induction l generalizing x with
  | nil => exact hx
  | cons a l ih =>
    exact ih (fun y c hc => h y c (List.mem_cons_of_mem a hc)) (h x a List.mem_cons_self hx)

/-- The moments of openings at their limit leave the loop, the run controller and every occupancy. -/
theorem takeMoments_outside (ms : List Moment) (s : State) (hms : ∀ m ∈ ms, ∃ b, m = .doorLimit b) :
    (takeMoments ms s).loop = s.loop ∧ (takeMoments ms s).run = s.run
      ∧ (∀ b, (bayAt (takeMoments ms s) b).occupancy = (bayAt s b).occupancy)
      ∧ catAt (takeMoments ms s).alert .link = catAt s.alert .link := by
  have hstep (t : State) (b : Bay) : (takeMoment (.doorLimit b) t).loop = t.loop
      ∧ (takeMoment (.doorLimit b) t).run = t.run
      ∧ (∀ c, (bayAt (takeMoment (.doorLimit b) t) c).occupancy = (bayAt t c).occupancy)
      ∧ catAt (takeMoment (.doorLimit b) t).alert .link = catAt t.alert .link := by
    have halert := (takeMoment_actsOn (.doorLimit b) t).alert.catAt_eq (c := .link) (by nofun)
    refine ⟨?_, (takeMoment_actsOn (.doorLimit b) t).run, fun c => ?_, halert⟩
    · rcases takeMoment_cases (.doorLimit b) t with ⟨-, e⟩ | ⟨-, e⟩ <;> rw [e]
      show (doorTest b t).loop = t.loop
      unfold doorTest
      split <;> rfl
    · rcases takeMoment_cases (.doorLimit b) t with ⟨-, e⟩ | ⟨-, e⟩ <;> rw [e]
      show (bayAt (doorTest b t) c).occupancy = _
      unfold doorTest
      split
      · rw [giveDoorAlert_eq]
        by_cases hc : c = b
        · subst hc
          exact (congrArg BayRecord.occupancy (bayAt_withBayRecord_same c _ t)).trans rfl
        · exact congrArg BayRecord.occupancy (bayAt_withBayRecord_ne hc _ _)
      · rfl
  refine foldl_inv_mem (P := fun t : State => t.loop = s.loop ∧ t.run = s.run
    ∧ (∀ b, (bayAt t b).occupancy = (bayAt s b).occupancy) ∧ catAt t.alert .link = catAt s.alert .link)
    ms (fun t m hm ⟨hl, hr, ho, ha⟩ => ?_) ⟨rfl, rfl, fun _ => rfl, rfl⟩
  obtain ⟨b, rfl⟩ := hms m hm
  obtain ⟨hl', hr', ho', ha'⟩ := hstep t b
  exact ⟨hl'.trans hl, hr'.trans hr, fun c => (ho' c).trans (ho c), ha'.trans ha⟩

/-- What a seconds tick has done before the round countdown. -/
def secondCounted (s : State) : State :=
  takeMoments (momentsOf .doorLimit (doorDue (countOpenings (advanceSecond s)))) (countOpenings (advanceSecond s))

theorem takeSecond_eq (s : State) : takeSecond s = countRound (secondCounted s) := rfl

theorem secondCounted_outside (s : State) : (secondCounted s).loop = s.loop
    ∧ (secondCounted s).run.state = s.run.state ∧ (secondCounted s).run.settings = s.run.settings
    ∧ (∀ b, (bayAt (secondCounted s) b).occupancy = (bayAt s b).occupancy)
    ∧ catAt (secondCounted s).alert .link = catAt s.alert .link := by
  obtain ⟨hl, hr, ho, ha⟩ := takeMoments_outside (momentsOf .doorLimit (doorDue (countOpenings (advanceSecond s))))
    (countOpenings (advanceSecond s)) fun m hm => by
      obtain ⟨b, -, rfl⟩ := List.mem_map.mp hm
      exact ⟨b, rfl⟩
  have hadv : (advanceSecond s).loop = s.loop ∧ (advanceSecond s).run.state = s.run.state
      ∧ (advanceSecond s).run.settings = s.run.settings ∧ (advanceSecond s).alert = s.alert
      ∧ (advanceSecond s).bays = s.bays := by
    unfold advanceSecond
    split <;> exact ⟨rfl, rfl, rfl, rfl, rfl⟩
  obtain ⟨hal, hast, hase, haa, hab⟩ := hadv
  have hcount : (countOpenings (advanceSecond s)).loop = (advanceSecond s).loop
      ∧ (countOpenings (advanceSecond s)).run = (advanceSecond s).run
      ∧ (countOpenings (advanceSecond s)).alert = (advanceSecond s).alert := by
    unfold countOpenings
    exact ⟨mapBays_loop _ _, mapBays_run _ _, mapBays_alert _ _⟩
  obtain ⟨hcl, hcr, hca⟩ := hcount
  unfold secondCounted
  refine ⟨hl.trans (hcl.trans hal), ?_, ?_, fun b => (ho b).trans ?_, ha.trans ?_⟩
  · rw [hr, hcr, hast]
  · rw [hr, hcr, hase]
  · unfold countOpenings
    rw [bayAt_mapBays, bayAt_congr hab]
    split <;> rfl
  · rw [hca, haa]

end Sys2Proof.Machine

namespace Sys2Proof.Proofs

open Sys2Proof.Machine Sys2Proof.Claims

/-- Settles O30. -/
theorem timeoutAndHoldoffMoments : Obligations.TimeoutAndHoldoffMoments := by
  intro s b
  refine ⟨fun hm ha he ho => ?_, fun hm hn => exec_timeout_notDue hm ?_, fun hm => ?_, fun hm h => ?_, fun hm h => ?_,
    fun hm => ?_⟩
  · refine ⟨_, exec_timeout_due hm ((timeoutDue_iff s b).mpr ⟨ha, he⟩), ?_, fun c hc => ?_, ?_, ?_, ?_, ?_, ?_, ?_⟩
    · rw [bayAt_congr (serveLoop_bays _)]
      exact (bayAt_stopEpisode b b .timeout s).trans (if_pos rfl)
    · rw [bayAt_congr (serveLoop_bays _)]
      exact (bayAt_stopEpisode b c .timeout s).trans (if_neg hc)
    · rw [serveLoop_arb]
      exact stopEpisode_arb b .timeout s
    · rw [serveLoop_moments]
    · refine stopOnItsWay_serveLoop ?_
      have hloop := stopEpisode_loop b .timeout s
      exact hloop ▸ stop_mem_placeStop (not_startWaits_of_noOrder ho)
    · rw [serveLoop_run]
      exact (stopEpisode_actsOn b (fun _ => False) .timeout s).run
    · rw [serveLoop_alert]
      exact (stopEpisode_actsOn b (fun _ => False) .timeout s).alert_eq
    · rw [(serveLoop_keeps _).port]
      exact (stopEpisode_keeps b .timeout s).port
  · rw [timeoutDue_iff]
    rintro ⟨ha, he⟩
    rcases hn with h | h
    · exact h ha
    · omega
  · have hc : ¬ (s.moments.contains (.timeout b) && timeoutDue s b) = true := by simp [hm]
    rw [exec_timeout, if_neg hc, takeMoment_of_not_mem hm]
  · show Host.Outcome.next (takeMoment (.holdoffEnd b) s) = _
    rw [takeMoment_of_mem hm, momentEffect_holdoffEnd h]
  · show Host.Outcome.next (takeMoment (.holdoffEnd b) s) = _
    rw [takeMoment_of_mem hm, momentEffect_holdoffEnd_of_ne h]
  · show Host.Outcome.next (takeMoment (.holdoffEnd b) s) = _
    rw [takeMoment_of_not_mem hm]

/-- Settles O36. -/
theorem loopPhasesFollowTheTable : Obligations.LoopPhasesFollowTheTable := by
  refine ⟨fun s b k v h => ?_, fun s b k ms v h => ?_⟩
  · show execReplyWindowOpen s = _
    unfold execReplyWindowOpen
    rw [h]
  · refine ⟨_, exec_idleGapEnd h, ?_, ?_, ?_, ?_⟩
    · rw [haltTest_arb, serveLoop_arb]
    · rw [haltTest_alert, serveLoop_alert]
    · rw [(haltTest_keeps _).port, (serveLoop_keeps _).port]
    simp only [begun, gapEnd_loop]
    refine ⟨fun hr o rest ho hn => ?_, fun hr c hc hn => ?_, fun hr o rest ho => ?_, fun hn => ?_⟩
    · have hne : s.loop.orders ≠ [] := by rw [ho]; nofun
      rw [hr, LoopControl.served_order (l := { s.loop with exchange := none }) rfl (hn.imp id (pollLeft_eq_none_iff s).mpr) hne,
        LoopControl.order_cons (l := { s.loop with exchange := none }) ho]
      exact ⟨⟨rfl, rfl, rfl⟩, rfl, rfl, rfl⟩
    · rw [hr, (pollLeft_eq_some_iff s c).mpr hc, LoopControl.served_poll (l := { s.loop with exchange := none }) rfl c hn]
      exact ⟨⟨rfl, rfl, rfl⟩, rfl, rfl, rfl⟩
    · rw [hr, LoopControl.served_halting (l := { s.loop with exchange := none }) rfl, LoopControl.order_cons (l := { s.loop with exchange := none }) ho]
      exact ⟨⟨rfl, rfl, rfl⟩, rfl, rfl⟩
    · refine LoopControl.served_idle (l := { s.loop with exchange := none }) rfl ?_
      rw [pollLeft_eq_none_iff]
      tauto

/-- Settles O33. -/
theorem beginRoundsStartsTheSchedule : Obligations.BeginRoundsStartsTheSchedule := by
  refine ⟨fun s hrun hround => ?_, fun s hrun => exec_refused rfl rfl rfl ?_⟩
  · have howner : beginRoundsOwner (taking .office s) = (plain .done, beginRunning (taking .office s)) := by
      rcases hrun with h | h
      · have h' : (taking .office s).run.state = .setup := h
        simp only [beginRoundsOwner, h']
      · have h' : (taking .office s).run.state = .halted := h
        simp only [beginRoundsOwner, h']
    have ht : exec (.beginRounds .office []) s
        = .next (writeReply .office ⟨.done, []⟩ (serveLoop (startRound (setRunState .running (taking .office s))))) := by
      rw [exec_taken (k := .beginRounds) (owner := beginRoundsOwner) rfl rfl rfl, howner]
      rfl
    have hstarted : roundStarted s (serveLoop (startRound (setRunState .running (taking .office s)))) :=
      roundStarted_serveLoop (setRunState .running (taking .office s))
    have hrun' : (serveLoop (startRound (setRunState .running (taking .office s)))).run
        = { s.run with state := .running } := by
      rw [serveLoop_run, startRound_run]
      rfl
    have hdef := hstarted
    unfold roundStarted at hdef
    obtain ⟨hnext, hover, hbusy, hfree⟩ := hdef
    refine ⟨_, ht, by rw [slotAt_writeReply_plain], hrun', hnext, fun b => ?_, ?_, ?_, ?_,
      roundStarted_congr rfl rfl hstarted, fun hx => ?_, fun b hb hx ho => ?_⟩
    · exact (bayAt_congr (serveLoop_bays _) b).trans (startRound_bayAt _ b)
    · exact (serveLoop_arb _).trans (startRound_arb _)
    · exact (serveLoop_alert _).trans ((startRound_alert _).trans (if_pos hround))
    · exact hover.trans (if_pos hround)
    · refine (hbusy hx).trans ?_
      simp only [hround, true_and, if_true, Option.getD_none]
    · have hp : s.loop.round.getD 0 = 0 := by rw [hround]; rfl
      obtain ⟨hpoll, -⟩ := hfree hx (by rw [hrun'])
      obtain ⟨hbegun, hr, -⟩ := hpoll b (hp.symm ▸ hb) (.inl ho)
      exact ⟨hr, hbegun⟩
  · rcases hrun with h | h
    · have h' : (taking .office s).run.state = .running := h
      simp only [beginRoundsOwner, h']
    · have h' : (taking .office s).run.state = .halting := h
      simp only [beginRoundsOwner, h']

/-- Settles O34. -/
theorem roundStartBeginsOrSkips : Obligations.RoundStartBeginsOrSkips := by
  have hexec (s : State) (h : s.loop.nextRound = some 0) : exec .roundStart s = .next (serveLoop (startRound s)) := by
    show Host.Outcome.next (if roundDue s then serveLoop (startRound s) else s) = _
    rw [if_pos (by simp [roundDue, h])]
  refine ⟨fun s h => ⟨_, hexec s h, roundStarted_serveLoop s, fun b => ?_, ?_, ?_, ?_, fun hr => ?_, fun hr => ?_⟩,
    fun s n hn hle hp => ?_, fun s h => ?_⟩
  · exact (bayAt_congr (serveLoop_bays _) b).trans (startRound_bayAt s b)
  · exact (serveLoop_arb _).trans (startRound_arb s)
  · exact (serveLoop_run _).trans (startRound_run s)
  · exact (serveLoop_keeps _).port.trans (startRound_keeps s).port
  · exact (serveLoop_alert _).trans ((startRound_alert s).trans (if_pos hr))
  · rw [serveLoop_alert, startRound_alert, if_neg hr]
    exact raised_raiseIn _ _ _ _
  · obtain ⟨hl, hst, hset, hocc, hlink⟩ := secondCounted_outside s
    have hcounted : takeSecond s = serveLoop (startRound (secondCounted s)) := by
      rw [takeSecond_eq, countRound, hl, hn]
      exact if_pos hle
    have ht : exec .secondsTick s = .next (serveLoop (startRound (secondCounted s))) := by
      rw [← hcounted]
      show Host.Outcome.next (takeSecond (if s.run.minutePhase = .issued then takeMinute s else s)) = _
      rw [if_neg hp]
    have hnext := nextPoll_congr hocc
    have hloop : (serveLoop (startRound (secondCounted s))).loop
        = (serveLoop (startRound { s with loop := { s.loop with nextRound := some 0 } })).loop := by
      rw [startedLoop_eq, startedLoop_eq, hl, hst, hset, hnext, hnext]
      rfl
    have halert : catAt (serveLoop (startRound (secondCounted s))).alert .link = if s.loop.round = none then
        catAt s.alert .link else ⟨true, insertElement yard (catAt s.alert .link).pending⟩ := by
      rw [serveLoop_alert, startRound_alert, hl]
      split
      · exact hlink
      · rw [catAt_raiseIn, if_pos rfl, hlink]
    refine ⟨_, _, ht, hexec _ rfl, hloop, ?_, roundStarted_congr hloop ?_
      (roundStarted_serveLoop { s with loop := { s.loop with nextRound := some 0 } }), fun e => ?_, fun hr => ?_⟩
    · rw [halert, serveLoop_alert, startRound_alert]
      split
      · rfl
      · rw [catAt_raiseIn, if_pos rfl]
    · rw [serveLoop_run, startRound_run, hst, serveLoop_run, startRound_run]
    · rw [halert]
      split
      · next hr => simp [hr]
      · next hr => simp [mem_insertElement, hr, or_comm, yard]
    · rw [halert, if_neg hr]
  · show Host.Outcome.next (if roundDue s then serveLoop (startRound s) else s) = _
    rw [if_neg (by simp [roundDue, h])]

end Sys2Proof.Proofs
end

section
/-! TAKE ALERT, RELEASE ALERT and ALERT MASK (R152 to R156), the silence release (R160) and SET SETTING (R32, R34). -/

namespace Sys2Proof.Machine

open Sys2Proof.Claims

/-! ## Element sets as bytes (R173) -/

/-- The numbers below 8 at which elements of a rising set stand in their byte rise, byte for byte. -/
theorem bitsOfByte_sorted {set : List Element} (h : set.Pairwise (· < ·)) (i : Nat) :
    ((set.filter fun e => decide (e.val / 8 = i)).map fun e => e.val % 8).SortedLT := by
  rw [List.sortedLT_iff_pairwise, List.pairwise_map]
  refine (List.pairwise_filter.mpr (h.imp fun {x y} hlt hx hy => ?_))
  have hx : x.val / 8 = i := by simpa using hx
  have hy : y.val / 8 = i := by simpa using hy
  have : x.val < y.val := hlt
  omega

/-- Bit j of byte i of a rising set stands for element 8 i + j. -/
theorem testBit_elementByte {set : List Element} (h : set.Pairwise (· < ·)) (e : Element) :
    (elementByte set (e.val / 8)).getLsbD (e.val % 8) = decide (e ∈ set) := by
  have hmap : ((set.filter fun x => decide (x.val / 8 = e.val / 8)).map fun x => 2 ^ (x.val % 8))
      = ((set.filter fun x => decide (x.val / 8 = e.val / 8)).map fun x => x.val % 8).map fun n => 2 ^ n := by
    rw [List.map_map]
    rfl
  have hlt : e.val % 8 < 8 := Nat.mod_lt _ (by decide)
  have hbit := Nat.mem_bitIndices (i := e.val % 8)
    (n := ((set.filter fun x => decide (x.val / 8 = e.val / 8)).map fun x => 2 ^ (x.val % 8)).sum)
  rw [hmap, Nat.bitIndices_sum_map_two_pow (bitsOfByte_sorted h _), ← hmap] at hbit
  have hmem : e.val % 8 ∈ (set.filter fun x => decide (x.val / 8 = e.val / 8)).map (fun x => x.val % 8) ↔ e ∈ set := by
    simp only [List.mem_map, List.mem_filter, decide_eq_true_eq]
    refine ⟨?_, fun he => ⟨e, ⟨he, rfl⟩, rfl⟩⟩
    rintro ⟨x, ⟨hx, hdiv⟩, hmod⟩
    have : x = e := Fin.ext (by omega)
    exact this ▸ hx
  rw [Bool.eq_iff_iff, decide_eq_true_iff, ← hmem, hbit]
  rw [elementByte, byteOf, BitVec.getLsbD_ofNat, decide_eq_true hlt, Bool.true_and]

/-! ## What the unit's three requests do -/

theorem categoryNumber_eq (c : Category) : categoryNumber c = numberOf c := by cases c <;> rfl

theorem numberOf_injective {c d : Category} (h : numberOf c = numberOf d) : c = d := by
  cases c <;> cases d <;> simp_all [numberOf]

@[simp] theorem categoryOfByte_numberOf (c : Category) : categoryOfByte (BitVec.ofNat 8 (numberOf c)) = some c := by
  cases c <;> rfl

theorem categoryOfByte_eq_none {x : Byte} (h : x.toNat = 0 ∨ 7 ≤ x.toNat) : categoryOfByte x = none := by
  unfold categoryOfByte
  split
  case h_7 => rfl
  all_goals omega

/-- The eligible categories stand in the order of their priorities. -/
theorem eligibleFor_sorted (mode : Nesting) (u : AlertUnit) (st : Station) :
    (eligibleFor mode u st).Pairwise (numberOf · < numberOf ·) := by
  refine List.Pairwise.filter _ ?_
  simp only [allCategories]
  decide

theorem mem_eligibleFor {mode : Nesting} {u : AlertUnit} {st : Station} {c : Category} :
    c ∈ eligibleFor mode u st ↔ eligible mode u st c = true := by
  simp [eligibleFor, mem_allCategories]

/-- A take answers the eligible category of highest priority (R155). -/
theorem takeIn_of_highest {mode : Nesting} {u : AlertUnit} {st : Station} {c : Category}
    (hc : eligible mode u st c = true) (hmin : ∀ d, eligible mode u st d = true → numberOf c ≤ numberOf d) :
    takeIn mode st u = (some ⟨c, (catAt u c).pending⟩, takenUnit mode st c u) := by
  rcases takeIn_cases mode st u with ⟨hnil, -⟩ | ⟨d, cs, hcons, e⟩
  · have := mem_eligibleFor.mpr hc
    rw [hnil] at this
    cases this
  · have hd : eligible mode u st d = true := mem_eligibleFor.mp (by simp [hcons])
    have hle : numberOf d ≤ numberOf c := by
      have hmem := mem_eligibleFor.mpr hc
      have hsorted := eligibleFor_sorted mode u st
      rw [hcons] at hmem hsorted
      rcases List.mem_cons.mp hmem with rfl | hmem
      · exact le_rfl
      · exact (List.rel_of_pairwise_cons hsorted hmem).le
    obtain rfl := numberOf_injective (le_antisymm hle (hmin d hd))
    exact e

theorem takeIn_of_none {mode : Nesting} {u : AlertUnit} {st : Station} (h : ∀ c, eligible mode u st c = false) :
    takeIn mode st u = (none, u) := by
  rcases takeIn_cases mode st u with ⟨-, e⟩ | ⟨c, cs, hcons, -⟩
  · exact e
  · have := mem_eligibleFor.mp (show c ∈ eligibleFor mode u st by simp [hcons])
    rw [h c] at this
    cases this

/-- A silence count does not matter to eligibility (R153). -/
theorem eligible_taking (mode : Nesting) (st o : Station) (c : Category) (s : State) :
    eligible mode (taking st s).alert o c = eligible mode s.alert o c := by
  refine eligible_congr (u := s.alert) (v := (taking st s).alert) (fun _ => rfl) (fun v => ?_) o c
  show (alertAt (hearStation st s.alert) v).mask = _ ∧ (alertAt (hearStation st s.alert) v).stack = _
  unfold hearStation
  rw [alertAt_setAlertAt]
  split
  · next h => rw [h]; exact ⟨rfl, rfl⟩
  · exact ⟨rfl, rfl⟩

theorem alertAt_taking (st o : Station) (s : State) : alertAt (taking st s).alert o
    = if o = st then { alertAt s.alert st with silence := 0 } else alertAt s.alert o :=
  alertAt_setAlertAt st o { alertAt s.alert st with silence := 0 } s.alert

/-- A line that has just been evaluated is lit exactly when a category is eligible. -/
theorem line_evalLines_iff (mode : Nesting) (u : AlertUnit) (st : Station) :
    (alertAt (evalLines mode u) st).line = true ↔ ∃ c, eligible mode (evalLines mode u) st c = true := by
  rw [evalLines_lit mode u st, List.any_eq_true]
  exact ⟨fun ⟨c, _, h⟩ => ⟨c, h⟩, fun ⟨c, h⟩ => ⟨c, mem_allCategories c, h⟩⟩

theorem mem_maskOfByte (x : Byte) (c : Category) : c ∈ maskOfByte x ↔ x.getLsbD (numberOf c - 1) = true := by
  simp [maskOfByte, mem_allCategories, categoryNumber_eq, BitVec.getLsbD]

/-- The reply of a request that has written the alert unit alone. -/
theorem writeReply_unit_taking (st : Station) (c : ResultCode) (data : List Byte) (hd : data = [] ∨ c = .done)
    (u : AlertUnit) (s : State) :
    writeReply st ⟨c, data⟩ { taking st s with alert := u } = { told st c data s with alert := u } := by
  rcases hd with rfl | rfl
  · exact congrArg (fun t : State => { t with alert := u }) (writeReply_taking st c s)
  · exact congrArg (fun t : State => { t with alert := u }) (writeReply_done_taking st data s)

theorem permitted_alert (st : Station) : permitted .takeAlert st = true ∧ permitted .releaseAlert st = true
    ∧ permitted .alertMask st = true := by
  cases st <;> exact ⟨rfl, rfl, rfl⟩

/-- A station's record after a request has replaced the record of one station, and perhaps a category, and the lines have
been evaluated. -/
theorem alertAt_replaced {mode : Nesting} {st : Station} {r : AlertStation} {u : AlertUnit} {s : State}
    (hu : ∀ o, alertAt u o = alertAt (taking st s).alert o) (o : Station) :
    alertAt (evalLines mode (setAlertAt st r u)) o = { (if o = st then r else alertAt s.alert o) with
      line := allCategories.any fun c => eligible mode (setAlertAt st r u) o c } := by
  rw [alertAt_evalLines, alertAt_setAlertAt, hu o, alertAt_taking]
  split <;> rfl

/-! ### The answers of the unit -/

section
variable (st : Station) (s : State)

theorem exec_takeAlert_of_none (h : ∀ c, eligible s.run.settings.nesting s.alert st c = false) :
    exec (.takeAlert st []) s = .next (told st .done [0, 0, 0, 0, 0, 0, 0] s) := by
  have htake : takeIn (taking st s).run.settings.nesting st (taking st s).alert = (none, (taking st s).alert) :=
    takeIn_of_none fun c => (eligible_taking _ st st c s).trans (h c)
  have hown : takeAlertOwner st (taking st s) = (⟨.done, [0, 0, 0, 0, 0, 0, 0]⟩, taking st s) := by
    simp only [takeAlertOwner, htake]
    rfl
  rw [exec_taken (k := .takeAlert) (owner := takeAlertOwner st) rfl (permitted_alert st).1 rfl, hown,
    writeReply_done_taking]

theorem exec_takeAlert_of_highest {c : Category} (hc : eligible s.run.settings.nesting s.alert st c = true)
    (hmin : ∀ d, eligible s.run.settings.nesting s.alert st d = true → numberOf c ≤ numberOf d) :
    exec (.takeAlert st []) s = .next
      { told st .done (BitVec.ofNat 8 (numberOf c) :: elementBytes (catAt s.alert c).pending) s with
        alert := takenUnit s.run.settings.nesting st c (taking st s).alert } := by
  have htake : takeIn (taking st s).run.settings.nesting st (taking st s).alert
      = (some ⟨c, (catAt s.alert c).pending⟩, takenUnit s.run.settings.nesting st c (taking st s).alert) :=
    takeIn_of_highest ((eligible_taking _ st st c s).trans hc)
      fun d hd => hmin d ((eligible_taking _ st st d s).symm.trans hd)
  have hown : takeAlertOwner st (taking st s)
      = (⟨.done, BitVec.ofNat 8 (numberOf c) :: elementBytes (catAt s.alert c).pending⟩,
        { taking st s with alert := takenUnit s.run.settings.nesting st c (taking st s).alert }) := by
    simp only [takeAlertOwner, htake, takenView, byteOf, categoryNumber_eq]
  rw [exec_taken (k := .takeAlert) (owner := takeAlertOwner st) rfl (permitted_alert st).1 rfl, hown,
    writeReply_unit_taking _ _ _ (.inr rfl)]

theorem exec_releaseAlert (args : List Byte) (h : args.length = 1) : exec (.releaseAlert st args) s
    = .next (writeReply st (releaseAlertOwner st args (taking st s)).1 (releaseAlertOwner st args (taking st s)).2) :=
  exec_taken (k := .releaseAlert) (owner := releaseAlertOwner st args) rfl (permitted_alert st).2.1 h

theorem stack_taking : (alertAt (taking st s).alert st).stack = (alertAt s.alert st).stack := by
  rw [alertAt_taking, if_pos rfl]

theorem exec_releaseAlert_top {c : Category} {set : List Element} {rest : List ServiceEntry}
    (h : (alertAt s.alert st).stack = ⟨c, set⟩ :: rest) :
    exec (.releaseAlert st [BitVec.ofNat 8 (numberOf c)]) s = .next { told st .done [] s with
      alert := evalLines s.run.settings.nesting
        (setAlertAt st { alertAt (taking st s).alert st with stack := rest } (taking st s).alert) } := by
  have hown : releaseAlertOwner st [BitVec.ofNat 8 (numberOf c)] (taking st s) = (⟨.done, []⟩, { taking st s with
      alert := evalLines s.run.settings.nesting
        (setAlertAt st { alertAt (taking st s).alert st with stack := rest } (taking st s).alert) }) := by
    have hs := (stack_taking st s).trans h
    simp only [releaseAlertOwner, categoryOfByte_numberOf, releaseIn, hs, if_true]
    rfl
  rw [exec_releaseAlert st s _ rfl, hown, writeReply_unit_taking _ _ _ (.inl rfl)]

theorem exec_releaseAlert_refused {c : Category}
    (h : ((alertAt s.alert st).stack.head?.map fun e => e.category) ≠ some c) :
    exec (.releaseAlert st [BitVec.ofNat 8 (numberOf c)]) s = .next (told st .refusedState [] s) := by
  have hnone : releaseIn (taking st s).run.settings.nesting st c (taking st s).alert = none := by
    rw [← stack_taking st s] at h
    unfold releaseIn
    cases hs : (alertAt (taking st s).alert st).stack with
    | nil => rfl
    | cons top rest =>
      rw [hs] at h
      exact if_neg fun hc => h (congrArg some hc)
  have hown : releaseAlertOwner st [BitVec.ofNat 8 (numberOf c)] (taking st s) = (⟨.refusedState, []⟩, taking st s) := by
    simp only [releaseAlertOwner, categoryOfByte_numberOf, hnone]
    rfl
  rw [exec_releaseAlert st s _ rfl, hown, writeReply_taking]

theorem exec_releaseAlert_unknown {x : Byte} (h : x.toNat = 0 ∨ 7 ≤ x.toNat) :
    exec (.releaseAlert st [x]) s = .next (told st .badArgument [] s) := by
  have hown : releaseAlertOwner st [x] (taking st s) = (⟨.badArgument, []⟩, taking st s) := by
    simp only [releaseAlertOwner, categoryOfByte_eq_none h]
    rfl
  rw [exec_releaseAlert st s _ rfl, hown, writeReply_taking]

theorem exec_alertMask {x : Byte} (h : x.toNat < 64) : exec (.alertMask st [x]) s = .next { told st .done [] s with
    alert := maskIn s.run.settings.nesting st (maskOfByte x) (taking st s).alert } := by
  have hown : alertMaskOwner st [x] (taking st s) = (⟨.done, []⟩, { taking st s with
      alert := maskIn s.run.settings.nesting st (maskOfByte x) (taking st s).alert }) := by
    simp only [alertMaskOwner, if_pos h]
    rfl
  rw [exec_taken (k := .alertMask) (owner := alertMaskOwner st [x]) rfl (permitted_alert st).2.2 rfl, hown,
    writeReply_unit_taking _ _ _ (.inl rfl)]

theorem exec_alertMask_large {x : Byte} (h : 64 ≤ x.toNat) :
    exec (.alertMask st [x]) s = .next (told st .badArgument [] s) := by
  have hown : alertMaskOwner st [x] (taking st s) = (⟨.badArgument, []⟩, taking st s) := by
    simp only [alertMaskOwner, if_neg (not_lt.mpr h)]
    rfl
  rw [exec_taken (k := .alertMask) (owner := alertMaskOwner st [x]) rfl (permitted_alert st).2.2 rfl, hown,
    writeReply_taking]

end

/-- A take replaces the taker's record, empties the category, and evaluates the lines. -/
theorem takenUnit_eq (mode : Nesting) (st : Station) (c : Category) (u : AlertUnit) :
    takenUnit mode st c u = evalLines mode (setAlertAt st
      { alertAt u st with stack := ⟨c, (catAt u c).pending⟩ :: (alertAt u st).stack } (setCat c ⟨false, []⟩ u)) := rfl

end Sys2Proof.Machine

namespace Sys2Proof.Proofs

open Sys2Proof.Machine Sys2Proof.Claims

/-- Settles O56. -/
theorem takeReleaseAndMask : Obligations.TakeReleaseAndMask := by
  intro s st mode lit others
  have hlit (u : AlertUnit) : ∀ o, (alertAt (evalLines mode u) o).line = true
      ↔ ∃ c, eligible mode (evalLines mode u) o c = true := line_evalLines_iff mode u
  have hothers {r : AlertStation} {u : AlertUnit} (hu : ∀ o, alertAt u o = alertAt (taking st s).alert o) :
      ∀ o, o ≠ st → (alertAt (evalLines mode (setAlertAt st r u)) o).mask = (alertAt s.alert o).mask
        ∧ (alertAt (evalLines mode (setAlertAt st r u)) o).stack = (alertAt s.alert o).stack
        ∧ (alertAt (evalLines mode (setAlertAt st r u)) o).silence = (alertAt s.alert o).silence := by
    intro o ho
    rw [alertAt_replaced hu, if_neg ho]
    exact ⟨rfl, rfl, rfl⟩
  have hself := alertAt_taking st st s
  rw [if_pos rfl] at hself
  refine ⟨fun u c => eligible_iff mode u st c, exec_takeAlert_of_none st s, fun c hc hmin hsorted => ?_,
    fun c set rest hstack => ?_, fun c => exec_releaseAlert_refused st s, fun x => exec_releaseAlert_unknown st s,
    fun x hx => ?_, fun x => exec_alertMask_large st s⟩
  · have hu (o : Station) : alertAt (setCat c ⟨false, []⟩ (taking st s).alert) o = alertAt (taking st s).alert o := rfl
    refine ⟨_, _, exec_takeAlert_of_highest st s hc hmin, rfl, rfl, fun e => ?_, ?_⟩
    · have hix : e.val / 8 < 6 := by omega
      rw [← testBit_elementByte hsorted]
      simp [elementBytes, List.getD_eq_getElem?_getD, hix]
    · simp only [takenUnit_eq]
      refine ⟨?_, ?_, ?_, ?_, fun d hd => ?_, hothers hu, hlit _⟩
      · rw [alertAt_replaced hu, if_pos rfl, hself]
        rfl
      · rw [alertAt_replaced hu, if_pos rfl, hself]
      · rw [alertAt_replaced hu, if_pos rfl, hself]
      · rw [catAt_evalLines, catAt_setAlertAt, catAt_setCat_same]
      · rw [catAt_evalLines, catAt_setAlertAt, catAt_setCat, if_neg hd]
        rfl
  · refine ⟨_, exec_releaseAlert_top st s hstack, rfl, ?_, ?_, fun d => catAt_evalLines _ _ d, hothers fun _ => rfl,
      hlit _⟩
    · rw [alertAt_replaced fun _ => rfl, if_pos rfl]
    · rw [alertAt_replaced fun _ => rfl, if_pos rfl, hself]
  · refine ⟨_, exec_alertMask st s hx, rfl, fun c => ?_, ?_, fun d => catAt_evalLines _ _ d, hothers fun _ => rfl,
      hlit _⟩
    · rw [maskIn, alertAt_replaced fun _ => rfl, if_pos rfl]
      exact mem_maskOfByte x c
    · rw [maskIn, alertAt_replaced fun _ => rfl, if_pos rfl, hself]

/-! ### SET SETTING -/
end Sys2Proof.Proofs
end

section
/-! The ticks (R27, R28, R103, R104, R106, R132, R159): moments of many bays taken in one change, bay for bay. -/

namespace Sys2Proof.Machine

open Sys2Proof.Claims

/-! ## Operations about one bay each, done for many bays -/

/-- An operation done for each bay of a list, where it rewrites that bay's record alone, by the run controller and that
record. -/
theorem bayAt_foldl_local {g : Bay → State → State} {f : RunControl → BayRecord → BayRecord}
    (hrun : ∀ b s, (g b s).run = s.run) (hself : ∀ b s, bayAt (g b s) b = f s.run (bayAt s b))
    (hother : ∀ b c s, c ≠ b → bayAt (g b s) c = bayAt s c) {l : List Bay} (hl : l.Nodup) (s : State) (c : Bay) :
    bayAt (l.foldl (fun t b => g b t) s) c = if c ∈ l then f s.run (bayAt s c) else bayAt s c := by
  induction l generalizing s with
  | nil => rfl
  | cons b l ih =>
    obtain ⟨hb, hl⟩ := List.nodup_cons.mp hl
    rw [List.foldl_cons, ih hl, hrun]
    by_cases hc : c = b
    · subst hc
      rw [if_neg hb, if_pos List.mem_cons_self, hself]
    · rw [hother b c s hc]
      simp [hc]

/-! ## The moments of many bays -/

/-- A STOP placed rewrites the order queue, and nothing else. -/
theorem placeStop_setOrders (b : Bay) (s : State) : placeStop b s = setOrders (withStop b s.loop.orders) s := by
  unfold placeStop withStop startUnsent
  split
  · rfl
  · split <;> rfl

theorem momentEffect_withMoments (m : Moment) (ms : List Moment) (s : State) :
    momentEffect m { s with moments := ms } = { momentEffect m s with moments := ms } := by
  have hdoor (b : Bay) : doorTest b { s with moments := ms } = { doorTest b s with moments := ms } := by
    have hd : doorDue { s with moments := ms } b = doorDue s b := rfl
    unfold doorTest
    rw [hd]
    split <;> rfl
  cases m with
  | doorLimit b => exact hdoor b
  | permitEnd b => exact hdoor b
  | holdoffEnd b => rfl
  | timeout b =>
    have hd : timeoutDue { s with moments := ms } b = timeoutDue s b := rfl
    show timeoutTest b _ = { timeoutTest b s with moments := ms }
    unfold timeoutTest
    rw [hd]
    split
    · simp only [timeoutBay, stopEpisode, placeStop_setOrders]
      rfl
    · rfl

theorem momentEffect_moments (m : Moment) (s : State) : (momentEffect m s).moments = s.moments := by
  have h := momentEffect_withMoments m s.moments s
  rw [h]

/-- The moments a change reaches are taken one after the other. -/
theorem takeMoments_eq (ms : List Moment) (s : State) : takeMoments ms s = ms.foldl (fun t m => momentEffect m t) s := by
  induction ms generalizing s with
  | nil => rfl
  | cons m ms ih =>
    have hmem : m ∈ ({ s with moments := m :: ms ++ s.moments } : State).moments := List.mem_cons_self
    have hfirst : takeMoment m { s with moments := m :: ms ++ s.moments }
        = { momentEffect m s with moments := ms ++ (momentEffect m s).moments } := by
      rw [takeMoment_of_mem hmem, momentEffect_withMoments, momentEffect_moments]
      exact congrArg (fun l => { momentEffect m s with moments := l }) (List.erase_cons_head m _)
    rw [List.foldl_cons, ← ih]
    exact congrArg (List.foldl (fun t m => takeMoment m t) · ms) hfirst

theorem takeMoments_append (l m : List Moment) (s : State) : takeMoments (l ++ m) s = takeMoments m (takeMoments l s) := by
  simp only [takeMoments_eq, List.foldl_append]

theorem takeMoments_momentsOf (k : Bay → Moment) (p : Bay → Bool) (s : State) :
    takeMoments (momentsOf k p) s = (allBays.filter p).foldl (fun t b => momentEffect (k b) t) s := by
  rw [takeMoments_eq, momentsOf, List.foldl_map]

theorem nodup_filter_allBays (p : Bay → Bool) : (allBays.filter p).Nodup := (List.nodup_finRange 40).filter p

theorem mem_filter_allBays (p : Bay → Bool) (b : Bay) : b ∈ allBays.filter p ↔ p b = true := by
  simp [allBays]

/-! ## DOOR raised for many bays -/

/-- The condition of R104 and R106, read from the run controller and the record (`doorDue`). -/
def alertDue (x : RunControl) (r : BayRecord) : Bool :=
  openingCounts (decide (x.state = .running)) r && decide (x.settings.doorLimit ≤ r.door.openSeconds)
    && decide (r.permit = 0) && !r.door.alertGiven

theorem doorDue_eq (s : State) (b : Bay) : doorDue s b = alertDue s.run (bayAt s b) := rfl

/-- A record after the test of R104 and R106. -/
def alertGivenIfDue (x : RunControl) (r : BayRecord) : BayRecord :=
  if alertDue x r then { r with door := { r.door with alertGiven := true } } else r

theorem doorTest_run (b : Bay) (s : State) : (doorTest b s).run = s.run := by
  unfold doorTest
  split <;> rfl

theorem bayAt_doorTest_same (b : Bay) (s : State) : bayAt (doorTest b s) b = alertGivenIfDue s.run (bayAt s b) := by
  unfold doorTest alertGivenIfDue
  rw [doorDue_eq]
  split
  · rw [giveDoorAlert_eq]
    exact bayAt_withBayRecord_same b _ s
  · rfl

theorem bayAt_doorTest_ne {b c : Bay} (s : State) (h : c ≠ b) : bayAt (doorTest b s) c = bayAt s c := by
  unfold doorTest
  split
  · rw [giveDoorAlert_eq]
    exact bayAt_withBayRecord_ne h _ s
  · rfl

/-- DOOR raised in turn for the bays of a list that are due: what is then in the pending sets and latches. -/
structure DoorsRaised (due : Bay → Prop) (u v : AlertUnit) : Prop where
  pending_ : ∀ c e, e ∈ (catAt v c).pending ↔ e ∈ (catAt u c).pending ∨ (c = .door ∧ ∃ b : Bay, due b ∧ e = b.succ)
  latch_ : ∀ c, (catAt v c).latch = true ↔ (catAt u c).latch = true ∨ (c = .door ∧ ∃ b : Bay, due b)
  stations_ : sameStations u v

theorem doorTests_frame (l : List Bay) (s : State) : l.foldl (fun t b => doorTest b t) s
    = { s with bays := (l.foldl (fun t b => doorTest b t) s).bays, alert := (l.foldl (fun t b => doorTest b t) s).alert } := by
  induction l generalizing s with
  | nil => rfl
  | cons b l ih =>
    have hone : doorTest b s = { s with bays := (doorTest b s).bays, alert := (doorTest b s).alert } := by
      unfold doorTest
      split <;> rfl
    rw [List.foldl_cons, ih]
    rw [hone]

theorem doorTests_alert {l : List Bay} (hl : l.Nodup) (s : State) :
    DoorsRaised (fun b => b ∈ l ∧ doorDue s b = true) s.alert (l.foldl (fun t b => doorTest b t) s).alert := by
  induction l generalizing s with
  | nil => exact ⟨by simp, by simp, fun st => ⟨rfl, rfl, rfl⟩⟩
  | cons b l ih =>
    obtain ⟨hb, hl⟩ := List.nodup_cons.mp hl
    obtain ⟨hp, hla, hs⟩ := ih hl (doorTest b s)
    have hdue (c : Bay) (hc : c ∈ l) : doorDue (doorTest b s) c = doorDue s c := by
      rw [doorDue_eq, doorDue_eq, doorTest_run, bayAt_doorTest_ne s (fun h : c = b => hb (h ▸ hc))]
    have hsplit (q : Bay → Prop) : (∃ c, (c ∈ b :: l ∧ doorDue s c = true) ∧ q c)
        ↔ (doorDue s b = true ∧ q b) ∨ ∃ c, (c ∈ l ∧ doorDue (doorTest b s) c = true) ∧ q c := by
      constructor
      · rintro ⟨c, ⟨hc, hd⟩, hq⟩
        rcases List.mem_cons.mp hc with rfl | hc
        · exact .inl ⟨hd, hq⟩
        · exact .inr ⟨c, ⟨hc, (hdue c hc).trans hd⟩, hq⟩
      · rintro (⟨hd, hq⟩ | ⟨c, ⟨hc, hd⟩, hq⟩)
        · exact ⟨b, ⟨List.mem_cons_self, hd⟩, hq⟩
        · exact ⟨c, ⟨List.mem_cons_of_mem b hc, (hdue c hc).symm.trans hd⟩, hq⟩
    have hfirst : DoorsRaised (fun c => c = b ∧ doorDue s b = true) s.alert (doorTest b s).alert := by
      unfold doorTest
      split
      · next h =>
        rw [giveDoorAlert_eq]
        obtain ⟨hlatch, hmem, hne, hst, -⟩ := raised_raiseIn s.run.settings.nesting .door b.succ s.alert
        refine ⟨fun c e => ?_, fun c => ?_, hst⟩
        · by_cases hc : c = .door
          · subst hc; simp [hmem, h]
          · simp [hne c hc, hc]
        · by_cases hc : c = .door
          · subst hc; simp [hlatch, h]
          · simp [hne c hc, hc]
      · next h => exact ⟨by simp [h], by simp [h], fun st => ⟨rfl, rfl, rfl⟩⟩
    refine ⟨fun c e => ?_, fun c => ?_, fun st => ?_⟩
    · rw [List.foldl_cons, hp, hfirst.pending_, hsplit fun b => e = b.succ]
      simp only [and_assoc, exists_eq_left]
      tauto
    · have := hsplit fun _ => True
      simp only [and_true] at this
      rw [List.foldl_cons, hla, hfirst.latch_, this]
      simp only [exists_eq_left]
      tauto
    · obtain ⟨h1, h2, h3⟩ := hs st
      obtain ⟨k1, k2, k3⟩ := hfirst.stations_ st
      exact ⟨h1.trans k1, h2.trans k2, h3.trans k3⟩

/-- The door moments of many bays, taken in one change (R104, R106). -/
theorem takeMoments_doors {k : Bay → Moment} (hk : ∀ b s, momentEffect (k b) s = doorTest b s) (p : Bay → Bool) (s : State) :
    takeMoments (momentsOf k p) s = (allBays.filter p).foldl (fun t b => doorTest b t) s := by
  rw [takeMoments_momentsOf]
  simp only [hk]

theorem bayAt_doorTests (p : Bay → Bool) (s : State) (c : Bay) :
    bayAt ((allBays.filter p).foldl (fun t b => doorTest b t) s) c
      = if p c = true then alertGivenIfDue s.run (bayAt s c) else bayAt s c := by
  rw [bayAt_foldl_local doorTest_run bayAt_doorTest_same (fun b c s h => bayAt_doorTest_ne s h) (nodup_filter_allBays p)]
  simp only [mem_filter_allBays]

/-! ## The seconds tick -/

theorem advanceSecond_eq (s : State) : advanceSecond s = { s with run := (advanceSecond s).run }
    ∧ (advanceSecond s).run.state = s.run.state ∧ (advanceSecond s).run.settings = s.run.settings
    ∧ (advanceSecond s).run.yardMinute = s.run.yardMinute := by
  unfold advanceSecond
  split <;> exact ⟨rfl, rfl, rfl, rfl⟩

/-- A record after the counts of R103 in a run state. -/
def openingCounted (running : Bool) (r : BayRecord) : BayRecord :=
  if openingCounts running r then { r with door := countOpen r.door } else r

theorem bayAt_countOpenings (s : State) (b : Bay) :
    bayAt (countOpenings s) b = openingCounted (decide (s.run.state = .running)) (bayAt s b) := by
  unfold countOpenings
  rw [bayAt_mapBays]
  rfl

theorem countOpenings_eq (s : State) : countOpenings s = { s with bays := (countOpenings s).bays } := by
  unfold countOpenings mapBays
  rfl

theorem secondCounted_eq (s : State) : secondCounted s = (allBays.filter (doorDue (countOpenings (advanceSecond s)))).foldl
    (fun t b => doorTest b t) (countOpenings (advanceSecond s)) := takeMoments_doors (fun _ _ => rfl) _ _

/-- A seconds tick before the round countdown: second and phase, door counts and the alert unit (R27, R103, R104). -/
theorem secondCounted_frame (s : State) : secondCounted s = { s with
    run := (advanceSecond s).run, bays := (secondCounted s).bays, alert := (secondCounted s).alert } := by
  rw [secondCounted_eq, doorTests_frame, countOpenings_eq, (advanceSecond_eq s).1]

theorem timed_openingCounts (x : RunState) (r : BayRecord) : openingCounts (decide (x = .running)) r = true ↔ timed x r := by
  simp only [openingCounts, Bool.and_eq_true, decide_eq_true_iff, and_assoc]
  tauto

theorem bayAt_counted (s : State) (b : Bay) : bayAt (countOpenings (advanceSecond s)) b
    = openingCounted (decide (s.run.state = .running)) (bayAt s b) := by
  obtain ⟨hadv, hstate, -⟩ := advanceSecond_eq s
  rw [bayAt_countOpenings, hstate, hadv]
  rfl

/-- The bays for which a seconds tick finds the test of R104 met are those for which it raises DOOR. -/
theorem doorDue_counted_iff (s : State) (b : Bay) :
    doorDue (countOpenings (advanceSecond s)) b = true ↔ secondRaises s b := by
  obtain ⟨-, hstate, hset, -⟩ := advanceSecond_eq s
  have hrun : (countOpenings (advanceSecond s)).run = (advanceSecond s).run := by rw [countOpenings_eq]
  rw [doorDue_iff, bayAt_counted, hrun, hstate, hset]
  unfold openingCounted
  split
  · rfl
  · next h =>
    rw [timed_openingCounts] at h
    exact ⟨fun hd => absurd hd.1 h, fun hd => absurd hd.1 h⟩

theorem bayAt_secondCounted (s : State) (b : Bay) :
    secondOf s.run.state s.run.settings.doorLimit (bayAt s b) (bayAt (secondCounted s) b) := by
  have hdue := doorDue_counted_iff s b
  have hafter : bayAt (secondCounted s) b
      = if timed s.run.state (bayAt s b) ∧ s.run.settings.doorLimit ≤ min ((bayAt s b).door.openSeconds + 1) 65535
          ∧ (bayAt s b).permit = 0 ∧ (bayAt s b).door.alertGiven = false
        then { openingCounted (decide (s.run.state = .running)) (bayAt s b) with
          door := { (openingCounted (decide (s.run.state = .running)) (bayAt s b)).door with alertGiven := true } }
        else openingCounted (decide (s.run.state = .running)) (bayAt s b) := by
    rw [secondCounted_eq, bayAt_doorTests, alertGivenIfDue, ← doorDue_eq, bayAt_counted]
    by_cases h : doorDue (countOpenings (advanceSecond s)) b = true
    · rw [if_pos h, if_pos h, if_pos (hdue.mp h)]
    · rw [if_neg h, if_neg fun k => h (hdue.mpr k)]
  have hcounted (h : timed s.run.state (bayAt s b)) : openingCounted (decide (s.run.state = .running)) (bayAt s b)
      = { bayAt s b with door := countOpen (bayAt s b).door } := if_pos ((timed_openingCounts _ _).mpr h)
  refine ⟨fun h => ?_, fun h => ⟨fun hl => ?_, fun hl => ?_⟩⟩
  · rw [hafter, if_neg fun k => h k.1]
    exact if_neg fun k => h ((timed_openingCounts _ _).mp k)
  · rw [hafter, hcounted h]
    split
    · rfl
    · next hn =>
      have hgiven : (bayAt s b).door.alertGiven = true := by
        by_contra hf
        exact hn ⟨h, hl.1, hl.2, by simpa using hf⟩
      rw [← hgiven]
      rfl
  · rw [hafter, hcounted h, if_neg fun k => hl ⟨k.2.1, k.2.2.1⟩]
    rfl

/-- A seconds tick raises DOOR for the bays of R104, and changes nothing else of the alert unit. -/
theorem secondCounted_alert (s : State) : DoorsRaised (secondRaises s) s.alert (secondCounted s).alert := by
  have halert : (countOpenings (advanceSecond s)).alert = s.alert := by
    rw [countOpenings_eq, (advanceSecond_eq s).1]
  have h := doorTests_alert (nodup_filter_allBays (doorDue (countOpenings (advanceSecond s)))) (countOpenings (advanceSecond s))
  simp only [mem_filter_allBays, and_self, doorDue_counted_iff, halert] at h
  rw [secondCounted_eq]
  exact h

theorem countRound_frame (s : State) : (countRound s).run = s.run ∧ (∀ b, bayAt (countRound s) b = bayAt s b)
    ∧ (countRound s).arb = s.arb ∧ (countRound s).port = s.port
    ∧ catAt (countRound s).alert .door = catAt s.alert .door ∧ sameStations s.alert (countRound s).alert := by
  have hserved : (serveLoop (startRound s)).run = s.run ∧ (∀ b, bayAt (serveLoop (startRound s)) b = bayAt s b)
      ∧ (serveLoop (startRound s)).arb = s.arb ∧ (serveLoop (startRound s)).port = s.port
      ∧ catAt (serveLoop (startRound s)).alert .door = catAt s.alert .door
      ∧ sameStations s.alert (serveLoop (startRound s)).alert := by
    refine ⟨by rw [serveLoop_run, startRound_run], fun b => ?_, by rw [serveLoop_arb, startRound_arb],
      by rw [serveLoop_port, startRound_port], ?_⟩
    · rw [bayAt_congr (serveLoop_bays _), startRound_bayAt]
    · rw [serveLoop_alert, startRound_alert]
      split
      · exact ⟨rfl, fun st => ⟨rfl, rfl, rfl⟩⟩
      · obtain ⟨-, -, hne, hst, -⟩ := raised_raiseIn s.run.settings.nesting .link yard s.alert
        exact ⟨hne .door (by nofun), hst⟩
  unfold countRound
  split
  · exact ⟨rfl, fun _ => rfl, rfl, rfl, rfl, fun st => ⟨rfl, rfl, rfl⟩⟩
  · split
    · exact hserved
    · exact ⟨rfl, fun _ => rfl, rfl, rfl, rfl, fun st => ⟨rfl, rfl, rfl⟩⟩

/-! ## The minute tick -/

theorem minuteComes_iff (s : State) : minuteComes s = true ↔ minuteDue s := by
  unfold minuteComes minuteDue
  cases s.run.minutePhase <;> simp

/-- What a minute tick has done before its timeouts. -/
def minuteCounted (s : State) : State := takeMoments (minuteEndings s) (countMinutes (advanceMinute s))

theorem takeMinute_eq (s : State) : takeMinute s = countSilences (minuteTimeouts (minuteCounted s)) := rfl

/-- The holdoffs of a list of bays ended in turn. -/
def endHoldoffs (l : List Bay) (s : State) : State := l.foldl (fun t b => modDefrost b endHoldoff t) s

theorem endHoldoffs_eq (l : List Bay) (s : State) : endHoldoffs l s = { s with bays := (endHoldoffs l s).bays } := by
  induction l generalizing s with
  | nil => rfl
  | cons b l ih =>
    show endHoldoffs l (modDefrost b endHoldoff s) = _
    rw [ih]
    rfl

theorem bayAt_endHoldoffs {l : List Bay} (hl : l.Nodup) (s : State) (c : Bay) : bayAt (endHoldoffs l s) c
    = if c ∈ l then { bayAt s c with defrost := endHoldoff (bayAt s c).defrost } else bayAt s c :=
  bayAt_foldl_local (g := fun b s => modDefrost b endHoldoff s) (f := fun _ r => { r with defrost := endHoldoff r.defrost }) (fun _ _ => rfl)
    (fun b s => by rw [bayAt_modDefrost, if_pos rfl]) (fun b c s h => by rw [bayAt_modDefrost, if_neg h]) hl s c

/-- The door tests of a minute tick, of the bays whose permit it ends (R106). -/
def permitsEnded (s : State) : State :=
  (allBays.filter fun b => decide ((bayAt s b).permit = 1)).foldl (fun t b => doorTest b t) (countMinutes (advanceMinute s))

theorem minuteCounted_eq (s : State) : minuteCounted s
    = endHoldoffs (allBays.filter fun b => decide ((bayAt s b).defrost.holdoff = 1)) (permitsEnded s) := by
  unfold minuteCounted minuteEndings
  rw [takeMoments_append, takeMoments_doors (k := .permitEnd) fun _ _ => rfl, takeMoments_momentsOf]
  rfl

theorem countMinutes_eq (s : State) : countMinutes s = { s with bays := (countMinutes s).bays } := by
  unfold countMinutes mapBays
  rfl

theorem minuteCounted_frame (s : State) : minuteCounted s = { s with
    run := (advanceMinute s).run, bays := (minuteCounted s).bays, alert := (minuteCounted s).alert } := by
  rw [minuteCounted_eq, endHoldoffs_eq, permitsEnded, doorTests_frame, countMinutes_eq]
  rfl

theorem bayAt_minuteOfBay (s : State) (b : Bay) : bayAt (countMinutes (advanceMinute s)) b
    = minuteOfBay (decide (s.run.state = .running)) (bayAt s b) := by
  unfold countMinutes
  rw [bayAt_mapBays]
  rfl

theorem windowCounts_iff (x : RunState) (r : BayRecord) :
    windowCounts (decide (x = .running)) r = true ↔ fuelMinute x r := by
  unfold windowCounts fuelMinute
  cases r.snapshot with
  | none => simp
  | some snap => simp [and_assoc, or_assoc]

theorem alertDue_minuteOfBay (s : State) (b : Bay) :
    ((bayAt s b).permit = 1 ∧ alertDue (advanceMinute s).run (minuteOfBay (decide (s.run.state = .running)) (bayAt s b)) = true)
      ↔ minuteAlerts s b := by
  have h := timed_openingCounts s.run.state (minuteOfBay (decide (s.run.state = .running)) (bayAt s b))
  have hrun : (advanceMinute s).run.state = s.run.state ∧ (advanceMinute s).run.settings = s.run.settings := ⟨rfl, rfl⟩
  unfold alertDue
  rw [hrun.1, hrun.2]
  simp only [Bool.and_eq_true, h, decide_eq_true_iff, Bool.not_eq_true']
  show _ ∧ ((timed s.run.state (bayAt s b) ∧ _) ∧ (bayAt s b).permit - 1 = 0) ∧ _ ↔ _
  unfold minuteAlerts
  constructor
  · rintro ⟨hp, ⟨⟨ht, hl⟩, -⟩, hg⟩
    exact ⟨hp, ht, hl, hg⟩
  · rintro ⟨hp, ht, hl, hg⟩
    exact ⟨hp, ⟨⟨ht, hl⟩, by omega⟩, hg⟩

open Classical in
/-- A record after a minute tick's counts and moments, before its timeouts. -/
theorem bayAt_minuteCounted (s : State) (b : Bay) : bayAt (minuteCounted s) b = { bayAt s b with
    departure := (bayAt s b).departure.map (fun n => n - 1),
    permit := (bayAt s b).permit - 1,
    fuel := { (bayAt s b).fuel with
      w := if fuelMinute s.run.state (bayAt s b) then min ((bayAt s b).fuel.w + 1) 65535 else (bayAt s b).fuel.w },
    door := { (bayAt s b).door with
      alertGiven := if minuteAlerts s b then true else (bayAt s b).door.alertGiven },
    defrost := { (bayAt s b).defrost with
      holdoff := (bayAt s b).defrost.holdoff - 1,
      elapsed := if (bayAt s b).defrost.state = .active then min ((bayAt s b).defrost.elapsed + 1) 90
        else (bayAt s b).defrost.elapsed } } := by
  have hdoors : bayAt (permitsEnded s) b = if (bayAt s b).permit = 1
      then alertGivenIfDue (advanceMinute s).run (minuteOfBay (decide (s.run.state = .running)) (bayAt s b))
      else minuteOfBay (decide (s.run.state = .running)) (bayAt s b) := by
    have hrun : (countMinutes (advanceMinute s)).run = (advanceMinute s).run := by rw [countMinutes_eq]
    rw [permitsEnded, bayAt_doorTests, bayAt_minuteOfBay, hrun]
    simp only [decide_eq_true_iff]
  have hgiven : bayAt (permitsEnded s) b = { minuteOfBay (decide (s.run.state = .running)) (bayAt s b) with
      door := { (bayAt s b).door with alertGiven := if minuteAlerts s b then true else (bayAt s b).door.alertGiven } } := by
    rw [hdoors]
    by_cases ha : minuteAlerts s b
    · obtain ⟨hp, hd⟩ := (alertDue_minuteOfBay s b).mpr ha
      rw [if_pos hp, alertGivenIfDue, if_pos hd, if_pos ha]
      rfl
    · have hn := mt (alertDue_minuteOfBay s b).mp ha
      have hsame : (if (bayAt s b).permit = 1
          then alertGivenIfDue (advanceMinute s).run (minuteOfBay (decide (s.run.state = .running)) (bayAt s b))
          else minuteOfBay (decide (s.run.state = .running)) (bayAt s b))
          = minuteOfBay (decide (s.run.state = .running)) (bayAt s b) := by
        split
        · next hp => exact if_neg fun hd => hn ⟨hp, hd⟩
        · rfl
      rw [hsame, if_neg ha]
      rfl
  have hwindow : (minuteOfBay (decide (s.run.state = .running)) (bayAt s b)).fuel = { (bayAt s b).fuel with
      w := if fuelMinute s.run.state (bayAt s b) then min ((bayAt s b).fuel.w + 1) 65535 else (bayAt s b).fuel.w } := by
    simp only [minuteOfBay, ← windowCounts_iff]
    split <;> rfl
  have hholdoff : bayAt (minuteCounted s) b = { bayAt (permitsEnded s) b with
      defrost := { (bayAt (permitsEnded s) b).defrost with holdoff := (bayAt s b).defrost.holdoff - 1 } } := by
    rw [minuteCounted_eq, bayAt_endHoldoffs (nodup_filter_allBays _), hgiven]
    simp only [mem_filter_allBays, decide_eq_true_iff, endHoldoff, minuteOfBay]
    by_cases h1 : (bayAt s b).defrost.holdoff = 1 <;> simp [h1]
  rw [hholdoff, hgiven]
  simp only [hwindow]
  rfl

/-! ### Timeouts -/

theorem mem_withStop_of_mem {b : Bay} {q : List Order} (h : (⟨b, .stop⟩ : Order) ∈ q) (c : Bay) :
    (⟨b, .stop⟩ : Order) ∈ withStop c q := by
  unfold withStop
  split
  · exact List.mem_filter.mpr ⟨h, by simp [isStartFor]⟩
  · split
    · exact h
    · exact List.mem_append_left _ h

theorem mem_withStop {c : Bay} {q : List Order} {o : Order} (h : o ∈ withStop c q) : o ∈ q ∨ o = ⟨c, .stop⟩ := by
  unfold withStop at h
  split at h
  · exact .inl (List.mem_of_mem_filter h)
  · split at h
    · exact .inl h
    · simpa using h

/-- The episodes of a list of bays stopped in turn, with one reason. -/
def stopAll (r : StopReason) (l : List Bay) (s : State) : State := l.foldl (fun t b => stopEpisode b r t) s

theorem stopEpisode_frame (b : Bay) (r : StopReason) (s : State) : PassFrame s (stopEpisode b r s) := by
  refine ⟨?_⟩
  rw [stopEpisode, placeStop_setOrders]
  rfl

theorem stopAll_arb (r : StopReason) (l : List Bay) (s : State) :
    (stopAll r l s).arb = { s.arb with active := s.arb.active.filter fun x => decide (x ∉ l) } := by
  induction l generalizing s with
  | nil => simp [stopAll]
  | cons b l ih =>
    show (stopAll r l (stopEpisode b r s)).arb = _
    rw [ih, stopEpisode_arb]
    simp only [List.filter_filter, List.mem_cons, not_or, Bool.decide_and, Bool.and_comm]

theorem stopAll_frame (r : StopReason) (l : List Bay) (s : State) : PassFrame s (stopAll r l s) :=
  PassFrame.foldl (fun s b => stopEpisode_frame b r s) l s

theorem bayAt_stopAll {l : List Bay} (hl : l.Nodup) (r : StopReason) (s : State) (c : Bay) :
    bayAt (stopAll r l s) c = if c ∈ l then stoppedRecord r (bayAt s c) else bayAt s c :=
  bayAt_foldl_local (g := fun b s => stopEpisode b r s) (f := fun _ => stoppedRecord r)
    (fun b s => (stopEpisode_frame b r s).run) (fun b s => by rw [bayAt_stopEpisode, if_pos rfl])
    (fun b c s h => by rw [bayAt_stopEpisode, if_neg h]) hl s c

theorem stop_mem_stopAll_of_mem {b : Bay} (r : StopReason) (l : List Bay) {s : State}
    (h : (⟨b, .stop⟩ : Order) ∈ s.loop.orders) : (⟨b, .stop⟩ : Order) ∈ (stopAll r l s).loop.orders :=
  foldl_inv (P := fun t : State => (⟨b, .stop⟩ : Order) ∈ t.loop.orders) (fun t c ht => by
    rw [stopEpisode_loop, placeStop_loop]
    exact mem_withStop_of_mem ht c) l h

/-- A bay of the list that had no order has its STOP in the queue then. -/
theorem stop_mem_stopAll {b : Bay} (r : StopReason) {l : List Bay} (hb : b ∈ l) {s : State} (h : ∀ o ∈ s.loop.orders, o.bay ≠ b) :
    (⟨b, .stop⟩ : Order) ∈ (stopAll r l s).loop.orders := by
  induction l generalizing s with
  | nil => cases hb
  | cons c l ih =>
    by_cases hbc : b = c
    · subst hbc
      refine stop_mem_stopAll_of_mem r l ?_
      rw [stopEpisode_loop]
      exact stop_mem_placeStop (not_startWaits_of_noOrder h)
    · refine ih ((List.mem_cons.mp hb).resolve_left hbc) fun o ho => ?_
      rw [stopEpisode_loop, placeStop_loop] at ho
      rcases mem_withStop ho with ho | rfl
      · exact h o ho
      · exact fun hc => hbc hc.symm

/-- The timeouts due are the stops of the bays due (R132). -/
theorem timeouts_eq {l : List Bay} (hl : l.Nodup) {s : State} (h : ∀ b ∈ l, timeoutDue s b = true) :
    l.foldl (fun t b => timeoutTest b t) s = stopAll .timeout l s := by
  induction l generalizing s with
  | nil => rfl
  | cons b l ih =>
    obtain ⟨hb, hl⟩ := List.nodup_cons.mp hl
    have hfirst : timeoutTest b s = stopEpisode b .timeout s := if_pos (h b List.mem_cons_self)
    rw [List.foldl_cons, hfirst]
    refine ih hl fun c hc => ?_
    have hne : c ≠ b := fun hcb => hb (hcb ▸ hc)
    have hrun : (stopEpisode b .timeout s).run = s.run := (stopEpisode_frame b _ s).run
    have hdue := h c (List.mem_cons_of_mem b hc)
    rw [timeoutDue_iff] at hdue ⊢
    rw [bayAt_stopEpisode, if_neg hne, hrun]
    exact hdue

/-- What the timeouts of a minute tick make of the state (R132, R136). -/
structure TimedOut (s t : State) : Prop where
  run_ : t.run = s.run
  alert_ : t.alert = s.alert
  port_ : t.port = s.port
  arb_ : t.arb = { s.arb with active := s.arb.active.filter fun b => !timeoutDue s b }
  record : ∀ b, bayAt t b = if timeoutDue s b = true then stoppedRecord .timeout (bayAt s b) else bayAt s b
  order : ∀ b, timeoutDue s b = true → (∀ o ∈ s.loop.orders, o.bay ≠ b) → stopOnItsWay t b

theorem minuteTimeouts_timedOut (s : State) : TimedOut s (minuteTimeouts s) := by
  unfold minuteTimeouts
  split
  · have heq : takeMoments (momentsOf .timeout (timeoutDue s)) s = stopAll .timeout (allBays.filter (timeoutDue s)) s := by
      rw [takeMoments_momentsOf]
      exact timeouts_eq (nodup_filter_allBays _) fun b hb => (mem_filter_allBays _ b).mp hb
    have hframe := stopAll_frame .timeout (allBays.filter (timeoutDue s)) s
    obtain ⟨q, n, hq, hfree⟩ : ∃ q n, q.Perm (stopAll .timeout (allBays.filter (timeoutDue s)) s).loop.orders
        ∧ withFreeOrder (takeMoments (momentsOf .timeout (timeoutDue s))) s
          = { setOrders q (stopAll .timeout (allBays.filter (timeoutDue s)) s) with freeDraws := n } := by
      rcases withFreeOrder_cases (takeMoments (momentsOf .timeout (timeoutDue s))) s with h | ⟨q, hq, h⟩
      · exact ⟨_, _, .refl _, h.trans heq⟩
      · rw [heq] at hq h
        exact ⟨q, _, hq, h⟩
    rw [hfree]
    refine ⟨?_, ?_, ?_, ?_, fun b => ?_, fun b hb ho => ?_⟩
    · rw [serveLoop_run]; exact hframe.run
    · rw [serveLoop_alert]; exact hframe.alert
    · rw [serveLoop_port]; exact hframe.port
    · rw [serveLoop_arb]
      refine (stopAll_arb _ _ s).trans ?_
      simp only [mem_filter_allBays]
      congr 2
      funext b
      cases timeoutDue s b <;> rfl
    · rw [bayAt_congr (serveLoop_bays _)]
      refine (bayAt_stopAll (nodup_filter_allBays _) .timeout s b).trans ?_
      simp only [mem_filter_allBays]
    · refine stopOnItsWay_serveLoop (hq.symm.mem_iff.mp ?_)
      exact stop_mem_stopAll .timeout ((mem_filter_allBays _ b).mpr hb) ho
  · next h =>
    have hnone (b : Bay) : timeoutDue s b = false := by
      by_contra hb
      exact h (List.any_eq_true.mpr ⟨b, List.mem_finRange b, by simpa using hb⟩)
    exact ⟨rfl, rfl, rfl, by simp [hnone], fun b => by simp [hnone], fun b hb => by rw [hnone] at hb; cases hb⟩

/-! ### The alert unit's part -/

theorem nodup_allStations : allStations.Nodup := by decide

theorem alertAt_countSilences {l : List Station} (hl : l.Nodup) (u : AlertUnit) (st : Station) :
    alertAt (l.foldl (fun u st => countSilence st u) u) st = if st ∈ l
      then { alertAt u st with silence := min ((alertAt u st).silence + 1) 10 } else alertAt u st := by
  induction l generalizing u with
  | nil => rfl
  | cons v l ih =>
    obtain ⟨hv, hl⟩ := List.nodup_cons.mp hl
    rw [List.foldl_cons, ih hl, countSilence, alertAt_setAlertAt]
    by_cases h : st = v
    · subst h
      simp [hv]
    · simp [h]

theorem catAt_countSilences (l : List Station) (u : AlertUnit) (c : Category) :
    catAt (l.foldl (fun u st => countSilence st u) u) c = catAt u c := by
  induction l generalizing u with
  | nil => rfl
  | cons v l ih => exact ih _

/-- Entries merged back: pending sets and latches then (R160, R161). -/
theorem mem_mergeEntries (l : List ServiceEntry) (u : AlertUnit) (c : Category) (e : Element) :
    e ∈ (catAt (l.foldr mergeEntry u) c).pending
      ↔ e ∈ (catAt u c).pending ∨ ∃ x ∈ l, x.category = c ∧ e ∈ x.set := by
  induction l with
  | nil => simp
  | cons x l ih =>
    rw [List.foldr_cons, mergeEntry, catAt_setCat]
    by_cases h : c = x.category
    · subst h
      simp only [if_true, mem_unionElements, ih, List.mem_cons, exists_eq_or_imp, true_and]
      tauto
    · have hne : x.category ≠ c := fun k => h k.symm
      simp only [if_neg h, ih, List.mem_cons, exists_eq_or_imp, hne, false_and, false_or]

theorem latch_mergeEntries (l : List ServiceEntry) (u : AlertUnit) (c : Category) :
    (catAt (l.foldr mergeEntry u) c).latch = true ↔ (catAt u c).latch = true ∨ ∃ x ∈ l, x.category = c := by
  induction l with
  | nil => simp
  | cons x l ih =>
    rw [List.foldr_cons, mergeEntry, catAt_setCat]
    by_cases h : c = x.category
    · subst h
      simp
    · have hne : x.category ≠ c := fun k => h k.symm
      simp only [if_neg h, ih, List.mem_cons, exists_eq_or_imp, hne, false_or]

/-- Which stations' stacks a unit has merged back, and what else of it stayed (R160, R161). -/
structure Released (silent : Station → Prop) (u v : AlertUnit) : Prop where
  pending_ : ∀ c e, e ∈ (catAt v c).pending ↔ e ∈ (catAt u c).pending
    ∨ ∃ st, silent st ∧ ∃ x ∈ (alertAt u st).stack, x.category = c ∧ e ∈ x.set
  latch_ : ∀ c, (catAt v c).latch = true ↔ (catAt u c).latch = true
    ∨ ∃ st, silent st ∧ ∃ x ∈ (alertAt u st).stack, x.category = c
  mask_ : ∀ st, (alertAt v st).mask = (alertAt u st).mask
  silence_ : ∀ st, (alertAt v st).silence = (alertAt u st).silence
  emptied_ : ∀ st, silent st → (alertAt v st).stack = []
  stack_ : ∀ st, ¬ silent st → (alertAt v st).stack = (alertAt u st).stack

theorem released_silenceReleaseIn (mode : Nesting) (st : Station) (u : AlertUnit) :
    Released (fun o => o = st ∧ (alertAt u st).silence = 10) u (silenceReleaseIn mode st u) := by
  rcases silenceReleaseIn_cases mode st u with ⟨h10, hne, e⟩ | ⟨h, e⟩ <;> rw [e]
  · have hst (o : Station) := alertAt_setAlertAt st o { alertAt u st with stack := [] } ((alertAt u st).stack.foldr mergeEntry u)
    simp only [alertAt_mergeEntries] at hst
    unfold releasedUnit
    refine ⟨fun c x => ?_, fun c => ?_, fun o => ?_, fun o => ?_, fun o ho => ?_, fun o ho => ?_⟩
    · rw [catAt_evalLines, catAt_setAlertAt, mem_mergeEntries]
      simp [h10]
    · rw [catAt_evalLines, catAt_setAlertAt, latch_mergeEntries]
      simp [h10]
    · rw [alertAt_evalLines, hst]
      split
      · next h => rw [h]
      · rfl
    · rw [alertAt_evalLines, hst]
      split
      · next h => rw [h]
      · rfl
    · rw [alertAt_evalLines, hst, if_pos ho.1]
    · rw [alertAt_evalLines, hst, if_neg fun h => ho ⟨h, h10⟩]
  · have hempty (o : Station) (ho : o = st ∧ (alertAt u st).silence = 10) : (alertAt u o).stack = [] := by
      obtain ⟨rfl, h10⟩ := ho
      exact h.resolve_left (not_not.mpr h10)
    refine ⟨fun c x => ?_, fun c => ?_, fun _ => rfl, fun _ => rfl, hempty, fun _ _ => rfl⟩
    · refine ⟨.inl, fun hx => hx.resolve_right ?_⟩
      rintro ⟨o, ho, y, hy, -⟩
      rw [hempty o ho] at hy
      cases hy
    · refine ⟨.inl, fun hx => hx.resolve_right ?_⟩
      rintro ⟨o, ho, y, hy, -⟩
      rw [hempty o ho] at hy
      cases hy

/-- The stations of a list that have been silent for ten minutes, released in turn. -/
theorem released_silenceReleases (mode : Nesting) (l : List Station) (u : AlertUnit) :
    Released (fun st => st ∈ l ∧ (alertAt u st).silence = 10) u (l.foldl (fun u st => silenceReleaseIn mode st u) u) := by
  induction l generalizing u with
  | nil => exact ⟨by simp, by simp, fun _ => rfl, fun _ => rfl, by simp, fun _ _ => rfl⟩
  | cons v l ih =>
    have hfirst := released_silenceReleaseIn mode v u
    have hrest := ih (silenceReleaseIn mode v u)
    have hsil := hfirst.silence_
    simp only [hsil] at hrest
    have hmem (q : Station → ServiceEntry → Prop) :
        (∃ st, (st = v ∧ (alertAt u v).silence = 10) ∧ ∃ x ∈ (alertAt u st).stack, q st x)
          ∨ (∃ st, (st ∈ l ∧ (alertAt u st).silence = 10) ∧ ∃ x ∈ (alertAt (silenceReleaseIn mode v u) st).stack, q st x)
        ↔ ∃ st, (st ∈ v :: l ∧ (alertAt u st).silence = 10) ∧ ∃ x ∈ (alertAt u st).stack, q st x := by
      constructor
      · rintro (⟨st, ⟨rfl, h10⟩, hx⟩ | ⟨st, ⟨hst, h10⟩, x, hx, hq⟩)
        · exact ⟨st, ⟨List.mem_cons_self, h10⟩, hx⟩
        · refine ⟨st, ⟨List.mem_cons_of_mem v hst, h10⟩, x, ?_, hq⟩
          by_cases h : st = v
          · rw [hfirst.emptied_ st ⟨h, h ▸ h10⟩] at hx
            cases hx
          · rwa [hfirst.stack_ st fun k => h k.1] at hx
      · rintro ⟨st, ⟨hst, h10⟩, x, hx, hq⟩
        by_cases h : st = v
        · exact .inl ⟨st, ⟨h, h ▸ h10⟩, x, hx, hq⟩
        · refine .inr ⟨st, ⟨(List.mem_cons.mp hst).resolve_left h, h10⟩, x, ?_, hq⟩
          rwa [hfirst.stack_ st fun k => h k.1]
    rw [List.foldl_cons]
    refine ⟨fun c e => ?_, fun c => ?_, fun st => (hrest.mask_ st).trans (hfirst.mask_ st),
      fun st => (hrest.silence_ st).trans (hfirst.silence_ st), fun st hst => ?_, fun st hst => ?_⟩
    · rw [hrest.pending_, hfirst.pending_, or_assoc, hmem fun _ x => x.category = c ∧ e ∈ x.set]
    · rw [hrest.latch_, hfirst.latch_, or_assoc, hmem fun _ x => x.category = c]
    · by_cases hl : st ∈ l
      · exact hrest.emptied_ st ⟨hl, hst.2⟩
      · have hv : st = v := (List.mem_cons.mp hst.1).resolve_right hl
        rw [hrest.stack_ st fun k => hl k.1]
        exact hfirst.emptied_ st ⟨hv, hv ▸ hst.2⟩
    · rw [hrest.stack_ st fun k => hst ⟨List.mem_cons_of_mem v k.1, k.2⟩,
        hfirst.stack_ st fun k => hst ⟨k.1 ▸ List.mem_cons_self, k.1 ▸ k.2⟩]

/-- What a minute tick makes of the alert unit, from the unit after its door alerts (R159, R160). -/
theorem released_alertMinute (mode : Nesting) (u : AlertUnit) :
    let v := alertMinute mode u
    (∀ c e, e ∈ (catAt v c).pending ↔ e ∈ (catAt u c).pending
        ∨ ∃ st, 9 ≤ (alertAt u st).silence ∧ ∃ x ∈ (alertAt u st).stack, x.category = c ∧ e ∈ x.set)
      ∧ (∀ c, (catAt v c).latch = true ↔ (catAt u c).latch = true
        ∨ ∃ st, 9 ≤ (alertAt u st).silence ∧ ∃ x ∈ (alertAt u st).stack, x.category = c)
      ∧ ∀ st, (alertAt v st).silence = min ((alertAt u st).silence + 1) 10 ∧ (alertAt v st).mask = (alertAt u st).mask
        ∧ (9 ≤ (alertAt u st).silence → (alertAt v st).stack = [])
        ∧ ((alertAt u st).silence < 9 → (alertAt v st).stack = (alertAt u st).stack) := by
  intro v
  have hcounted (st : Station) := alertAt_countSilences nodup_allStations u st
  simp only [mem_allStations, if_true] at hcounted
  obtain ⟨hp, hl, hm, hs, he, hk⟩ := released_silenceReleases mode allStations
    (allStations.foldl (fun u st => countSilence st u) u)
  simp only [hcounted, catAt_countSilences, mem_allStations, true_and] at hp hl hm hs he hk
  have hten (st : Station) : min ((alertAt u st).silence + 1) 10 = 10 ↔ 9 ≤ (alertAt u st).silence := by omega
  simp only [hten] at hp hl he hk
  exact ⟨hp, hl, fun st => ⟨hs st, hm st, he st, fun h => hk st (not_le.mpr h)⟩⟩

/-- A minute tick raises DOOR where a permit ends past the limit (R106), before the alert unit counts. -/
theorem minuteCounted_alert (s : State) : DoorsRaised (minuteAlerts s) s.alert (minuteCounted s).alert := by
  have halert : (countMinutes (advanceMinute s)).alert = s.alert := by rw [countMinutes_eq]; rfl
  have hrun : (countMinutes (advanceMinute s)).run = (advanceMinute s).run := by rw [countMinutes_eq]
  have h := doorTests_alert (nodup_filter_allBays fun b => decide ((bayAt s b).permit = 1)) (countMinutes (advanceMinute s))
  simp only [mem_filter_allBays, decide_eq_true_iff, doorDue_eq, bayAt_minuteOfBay, hrun, alertDue_minuteOfBay, halert] at h
  rw [minuteCounted_eq, endHoldoffs_eq]
  exact h

theorem countSilences_alert (s : State) : (countSilences s).alert = alertMinute s.run.settings.nesting s.alert := by
  simp only [countSilences]
theorem countSilences_run (s : State) : (countSilences s).run = s.run := by simp only [countSilences]
theorem countSilences_arb (s : State) : (countSilences s).arb = s.arb := by simp only [countSilences]
theorem countSilences_port (s : State) : (countSilences s).port = s.port := by simp only [countSilences]
theorem countSilences_loop (s : State) : (countSilences s).loop = s.loop := by simp only [countSilences]
theorem bayAt_countSilenced (s : State) (b : Bay) : bayAt (countSilences s) b = bayAt s b :=
  bayAt_congr (by simp only [countSilences]) b
theorem stopOnItsWay_countSilences (s : State) (b : Bay) : stopOnItsWay (countSilences s) b ↔ stopOnItsWay s b := by
  simp only [stopOnItsWay, countSilences_loop]

/-- The alert unit after a minute tick. -/
theorem takeMinute_alert (s : State) : minuteAlertSets s (takeMinute s) ∧ ∀ st,
    (alertAt (takeMinute s).alert st).silence = min ((alertAt s.alert st).silence + 1) 10
      ∧ (alertAt (takeMinute s).alert st).mask = (alertAt s.alert st).mask
      ∧ (9 ≤ (alertAt s.alert st).silence → (alertAt (takeMinute s).alert st).stack = [])
      ∧ ((alertAt s.alert st).silence < 9 → (alertAt (takeMinute s).alert st).stack = (alertAt s.alert st).stack) := by
  have htimed := minuteTimeouts_timedOut (minuteCounted s)
  have heq : (takeMinute s).alert
      = alertMinute (minuteTimeouts (minuteCounted s)).run.settings.nesting (minuteCounted s).alert := by
    rw [takeMinute_eq, countSilences_alert, htimed.alert_]
  obtain ⟨hp, hl, hst⟩ := released_alertMinute (minuteTimeouts (minuteCounted s)).run.settings.nesting (minuteCounted s).alert
  obtain ⟨kp, kl, kst⟩ := minuteCounted_alert s
  rw [← heq] at hp hl hst
  simp only [(kst _).1, (kst _).2.1, (kst _).2.2, kp, kl] at hp hl hst
  exact ⟨⟨fun c e => (hp c e).trans or_assoc, fun c => (hl c).trans or_assoc⟩, hst⟩

/-- A bay times out in a minute tick when its episode reaches Tmax with the minute counted (R132). -/
theorem timeoutDue_minuteCounted_iff (s : State) (b : Bay) :
    timeoutDue (minuteCounted s) b = true ↔ minuteEnds s.run.settings.tmax (bayAt s b).defrost := by
  have hrun : (minuteCounted s).run.settings = s.run.settings := by rw [minuteCounted_frame]; rfl
  rw [timeoutDue_iff, bayAt_minuteCounted, hrun]
  constructor
  · rintro ⟨ha, hl⟩
    dsimp only at ha hl
    rw [if_pos ha] at hl
    exact ⟨ha, hl⟩
  · rintro ⟨ha, hl⟩
    refine ⟨ha, ?_⟩
    dsimp only
    rw [if_pos ha]
    exact hl

theorem takeMinute_run (s : State) : (takeMinute s).run = (advanceMinute s).run := by
  rw [takeMinute_eq, countSilences_run, (minuteTimeouts_timedOut _).run_, minuteCounted_frame]

theorem exec_minuteTick_due {s : State} (h : minuteDue s) : exec .minuteTick s = .next (takeMinute s) := by
  show execMinuteTick s = _
  rw [execMinuteTick, if_pos ((minuteComes_iff s).mpr h)]

end Sys2Proof.Machine

namespace Sys2Proof.Proofs

open Sys2Proof.Machine Sys2Proof.Claims

open Classical in
/-- Settles O28. -/
theorem secondsTickCounts : Obligations.SecondsTickCounts := by
  refine ⟨fun s h => ?_, fun s hsec hphase => ?_⟩
  · have hphase : (takeMinute s).run.minutePhase = .none := by
      rw [takeMinute_run]
      simp [advanceMinute, h]
    refine ⟨takeMinute s, exec_minuteTick_due (.inl h), hphase, ?_⟩
    show execSecondsTick s = execSecondsTick (takeMinute s)
    simp only [execSecondsTick, h, hphase, if_true]
    rfl
  · have hexec : exec .secondsTick s = .next (countRound (secondCounted s)) := by
      show execSecondsTick s = _
      unfold execSecondsTick
      rw [if_neg hphase]
      rfl
    obtain ⟨-, hstate, hset, hyard⟩ := advanceSecond_eq s
    obtain ⟨hrun, hbays, harb, hport, hdoor, hst⟩ := countRound_frame (secondCounted s)
    have hframe := secondCounted_frame s
    have hsrun : (secondCounted s).run = (advanceSecond s).run := by rw [hframe]
    have hsloop : (secondCounted s).loop = s.loop := by rw [hframe]
    refine ⟨_, hexec, ?_, ?_, ?_, ?_, ?_, ?_, fun b => ?_, fun e => ?_, fun st => ?_, ?_, ?_, fun hn => ?_, fun n hn h1 => ?_⟩
    · rw [hrun, hsrun]
      unfold advanceSecond
      split <;> dsimp only <;> omega
    · intro h59
      rw [hrun, hsrun]
      simp [advanceSecond, h59]
    · intro h59
      rw [hrun, hsrun, advanceSecond, if_pos (by omega)]
    · rw [hrun, hsrun, hyard]
    · rw [hrun, hsrun, hset]
    · rw [hrun, hsrun, hstate]
    · rw [hbays]
      exact bayAt_secondCounted s b
    · rw [hdoor, (secondCounted_alert s).pending_]
      simp
    · obtain ⟨h1, h2, h3⟩ := hst st
      obtain ⟨k1, k2, k3⟩ := (secondCounted_alert s).stations_ st
      exact ⟨h1.trans k1, h2.trans k2, h3.trans k3⟩
    · rw [harb, hframe]
    · rw [hport, hframe]
    · rw [countRound, hsloop, hn]
      exact hsloop
    · rw [countRound, hsloop, hn]
      simp only [if_neg (not_le.mpr h1)]

open Classical in
/-- Settles O29. -/
theorem minuteTickCounts : Obligations.MinuteTickCounts := by
  refine ⟨fun s h => ?_, fun s h => ?_⟩
  · show execMinuteTick s = _
    rw [execMinuteTick, if_neg (mt (minuteComes_iff s).mp h)]
  · have htimed := minuteTimeouts_timedOut (minuteCounted s)
    have hframe := minuteCounted_frame s
    have harb : (takeMinute s).arb = { s.arb with
        active := s.arb.active.filter fun b => !timeoutDue (minuteCounted s) b } := by
      rw [takeMinute_eq, countSilences_arb, htimed.arb_, hframe]
    refine ⟨_, exec_minuteTick_due h, ?_, (takeMinute_alert s).1, ?_, ?_, ?_, ?_, ?_, fun b => ?_, ?_, fun f => ?_, ?_,
      fun b hb ho => ?_⟩
    · rw [takeMinute_run]
      rcases h with h | ⟨h, -⟩ <;> simp [advanceMinute, h]
    · rw [takeMinute_run]; rfl
    · rw [takeMinute_run]; rfl
    · rw [takeMinute_run]; rfl
    · rw [takeMinute_run]; rfl
    · rw [takeMinute_eq, countSilences_port, htimed.port_, hframe]
    · rw [takeMinute_eq, bayAt_countSilenced, htimed.record]
      simp only [timeoutDue_minuteCounted_iff, bayAt_minuteCounted]
      split <;> rfl
    · rw [harb]
    · rw [feederAt, harb]; rfl
    · rw [harb]
      simp only
      congr 1
      funext b
      rw [Bool.eq_iff_iff]
      simp [← timeoutDue_minuteCounted_iff]
    · have horders : (minuteCounted s).loop = s.loop := by rw [hframe]
      rw [takeMinute_eq, stopOnItsWay_countSilences]
      exact htimed.order b ((timeoutDue_minuteCounted_iff s b).mpr hb) (horders ▸ ho)

/-- Settles O32. -/
theorem silenceReleaseMergesBack : Obligations.SilenceReleaseMergesBack := by
  have hexec (s : State) (st : Station) : exec (.silenceRelease st) s
      = .next { s with alert := silenceReleaseIn s.run.settings.nesting st s.alert } := rfl
  refine ⟨fun s st h10 hne => ?_, fun s st h => ?_, fun s t hdue ht => ?_⟩
  · obtain ⟨hp, hl, hm, hs, he, hk⟩ := released_silenceReleaseIn s.run.settings.nesting st s.alert
    refine ⟨_, hexec s st, rfl, he st ⟨rfl, h10⟩, fun c e => ?_, fun c => ?_,
      fun o => ⟨hm o, hs o, fun ho => hk o fun k => ho k.1⟩, fun o => ?_⟩
    · rw [hp]
      simp [h10]
    · rw [hl]
      simp [h10]
    · rcases silenceReleaseIn_cases s.run.settings.nesting st s.alert with ⟨-, -, e⟩ | ⟨h, -⟩
      · simp only [e]
        exact line_evalLines_iff _ _ o
      · exact absurd h (by tauto)
  · rcases silenceReleaseIn_cases s.run.settings.nesting st s.alert with ⟨k10, kne, -⟩ | ⟨-, e⟩
    · exact absurd h (by tauto)
    · rw [hexec, e]
  · rw [exec_minuteTick_due hdue] at ht
    cases ht
    exact takeMinute_alert s

end Sys2Proof.Proofs
end

section
/-! SET SETTING (R32, R34). -/

namespace Sys2Proof.Machine

open Sys2Proof.Claims

/-- A value is changed by the clamp exactly when it lies outside the range. -/
theorem clamped_outside {lo hi : Nat} (h : lo ≤ hi) (v : Nat) :
    (clampWithin lo hi v).2 = decide (v < lo ∨ hi < v) := by
  rw [clampWithin_snd, decide_eq_decide, clampWithin_fst h]
  omega

/-- A number written is the one of its id, and no other setting changes (R32). -/
theorem numbers_writeNumber {n : Nat} (h1 : 1 ≤ n) (h13 : n ≤ 13) (v : Nat) (g : Settings) :
    numbers (writeNumber n v g) = (numbers g).set (n - 1) v := by
  interval_cases n <;> rfl

theorem writeNumber_enables (n v : Nat) (g : Settings) : (writeNumber n v g).enables = g.enables := by
  unfold writeNumber
  split <;> rfl

theorem writeNumber_lossLimit {n : Nat} (h : n ≠ 2) (v : Nat) (g : Settings) :
    (writeNumber n v g).lossLimit = g.lossLimit := by
  unfold writeNumber
  split
  case h_2 => exact absurd rfl h
  all_goals rfl

theorem storeSetting_eq_none {n : Nat} (h : n = 0 ∨ 16 ≤ n) (v : Nat) (g : Settings) : storeSetting n v g = none := by
  have hr : settingRange n = none := by
    unfold settingRange
    split
    case h_14 => rfl
    all_goals omega
  simp only [storeSetting, hr]
  rw [if_neg (by omega), if_neg (by omega)]

section
variable (s : State) (id v1 v0 : Byte)

theorem exec_setSetting_stored {g : Settings} {clamped : Bool}
    (h : storeSetting id.toNat (number v1 v0) s.run.settings = some (g, clamped)) {c : Prop} [Decidable c]
    (hc : clamped = decide c) : exec (.setSetting .office [id, v1, v0]) s = .next (writeReply .office ⟨doneUnless c, []⟩
      (settingChanged s.run.settings (withSettings g (taking .office s)))) := by
  have howner : setSettingOwner [id, v1, v0] (taking .office s)
      = (⟨doneUnless c, []⟩, settingChanged s.run.settings (withSettings g (taking .office s))) := by
    have h' : storeSetting id.toNat (word16 v1 v0) (taking .office s).run.settings = some (g, clamped) := h
    simp only [setSettingOwner, h', doneOr_eq _ _ hc]
    rfl
  rw [exec_setSetting, howner]

theorem exec_setSetting_refused (h : id.toNat = 0 ∨ 16 ≤ id.toNat) :
    exec (.setSetting .office [id, v1, v0]) s = .next (told .office .badArgument [] s) := by
  have howner : setSettingOwner [id, v1, v0] (taking .office s) = (⟨.badArgument, []⟩, taking .office s) := by
    simp only [setSettingOwner, storeSetting_eq_none h]
    rfl
  rw [exec_setSetting, howner, writeReply_taking]

end

theorem settingChanged_of_same {before g : Settings} (hl : g.lossLimit = before.lossLimit)
    (hn : g.nesting = before.nesting) (s : State) : settingChanged before (withSettings g s) = withSettings g s := by
  have hl' : ¬ before.lossLimit ≠ (withSettings g s).run.settings.lossLimit := not_not.mpr hl.symm
  have hn' : ¬ before.nesting ≠ (withSettings g s).run.settings.nesting := not_not.mpr hn.symm
  rw [settingChanged, if_neg hl', if_neg hn']

/-- A changed nesting mode has every line evaluated again (R34). -/
theorem settingChanged_nesting {before g : Settings} (hl : g.lossLimit = before.lossLimit)
    (hn : g.nesting ≠ before.nesting) (s : State) : settingChanged before (withSettings g s)
      = { withSettings g s with alert := evalLines g.nesting s.alert } := by
  have hl' : ¬ before.lossLimit ≠ (withSettings g s).run.settings.lossLimit := not_not.mpr hl.symm
  have hn' : before.nesting ≠ (withSettings g s).run.settings.nesting := hn.symm
  rw [settingChanged, if_neg hl', if_pos hn']
  rfl

theorem writeReply_withSettings_taking (c : ResultCode) (g : Settings) (s : State) :
    writeReply .office ⟨c, []⟩ (withSettings g (taking .office s)) = told .office c [] (withSettings g s) :=
  congrArg (withSettings g) (writeReply_taking .office c s)

end Sys2Proof.Machine

namespace Sys2Proof.Proofs

open Sys2Proof.Machine Sys2Proof.Claims

/-- Settles O40. -/
theorem setSettingStores : Obligations.SetSettingStores := by
  intro s id v1 v0 v g
  refine ⟨fun h1 h13 => ?_, fun h => ?_, fun h => ?_, exec_setSetting_refused s id v1 v0⟩
  · have hexec := exec_setSetting_stored s id v1 v0 (storeSetting_of_le h1 h13 v g) (clamped_outside (lowest_le_highest id) v)
    refine ⟨_, hexec, ?_, ?_, ?_, ?_, fun hsame => ?_⟩
    · rw [slotAt_writeReply_plain]
    · show numbers (settingChanged _ _).run.settings = _
      rw [settingChanged_settings]
      exact numbers_writeNumber h1 h13 _ _
    · show (settingChanged _ _).run.settings.nesting = _
      rw [settingChanged_settings]
      exact writeNumber_nesting _ _ _
    · show (settingChanged _ _).run.settings.enables = _
      rw [settingChanged_settings]
      exact writeNumber_enables _ _ _
    · have hl : (writeNumber id.toNat (max (lowest id) (min v (highest id))) g).lossLimit = g.lossLimit := by
        rcases hsame with h2 | h2
        · exact writeNumber_lossLimit h2 _ g
        · by_cases hid : id.toNat = 2
          · obtain rfl : id = 2 := BitVec.eq_of_toNat_eq hid
            exact h2
          · exact writeNumber_lossLimit hid _ g
      rw [settingChanged_of_same (before := s.run.settings) hl (writeNumber_nesting _ _ _), writeReply_withSettings_taking]
      rfl
  · obtain rfl : id = 14 := BitVec.eq_of_toNat_eq h
    have hexec := exec_setSetting_stored s 14 v1 v0 (g := { g with nesting := if v = 0 then .nested else .flat })
      (clamped := decide (1 < v)) rfl rfl
    have hl : ({ g with nesting := if v = 0 then .nested else .flat } : Settings).lossLimit = s.run.settings.lossLimit := rfl
    by_cases hn : (if v = 0 then Nesting.nested else .flat) = g.nesting
    · rw [settingChanged_of_same hl hn, writeReply_withSettings_taking] at hexec
      exact ⟨_, hexec, rfl, fun _ => rfl, fun _ => ⟨rfl, rfl, rfl⟩, fun h => absurd hn.symm h, fun _ => rfl⟩
    · rw [settingChanged_nesting hl hn] at hexec
      refine ⟨_, hexec, ?_, fun c => ?_, fun st => ?_, fun _ st => ?_, fun h => absurd h.symm hn⟩
      · exact congrArg (withSettings { g with nesting := if v = 0 then .nested else .flat })
          (writeReply_unit_taking .office (doneUnless (1 < v)) [] (.inl rfl)
            (evalLines (if v = 0 then .nested else .flat) (taking .office s).alert) s)
      · exact catAt_evalLines _ _ c
      · show (alertAt (evalLines _ (taking .office s).alert) st).mask = _ ∧ _
        rw [writeReply_alert, alertAt_evalLines]
        exact ⟨rfl, rfl, rfl⟩
      · exact line_evalLines_iff _ _ st
  · obtain rfl : id = 15 := BitVec.eq_of_toNat_eq h
    have hexec := exec_setSetting_stored s 15 v1 v0 (g := { g with enables := condsOfNat v }) (clamped := decide (16 ≤ v)) rfl rfl
    have hl : ({ g with enables := condsOfNat v } : Settings).lossLimit = s.run.settings.lossLimit := rfl
    rw [hexec, settingChanged_of_same hl rfl, writeReply_withSettings_taking]
    rfl

end Sys2Proof.Proofs
end

section
/-! The check's stages in exact arithmetic (R62, R72 to R80, R86 to R95, R100 to R102), and the ranges they keep. -/

namespace Sys2Proof.Machine

open Sys2Proof.Claims

/-! ## Multiply and divide -/

/-- A multiply and divide gives the quotient, saturated at 65535 (R66). -/
theorem mulDiv_eq (a b : Nat) {d : Nat} (hd : 1 ≤ d) :
    mulDiv a b d = (min (a * b / d) 65535, decide (65535 < a * b / d)) := by
  have hlo : (multiply a b).lo < 65536 := Nat.mod_lt _ (by decide)
  have hle := le_hi_iff hlo hd
  rw [accValue_multiply] at hle
  unfold mulDiv
  dsimp only
  by_cases h : d ≤ (multiply a b).hi
  · obtain ⟨hs, hq⟩ := divide_of_le h
    rw [hs, hq, decide_eq_true (hle.mp h), min_eq_right (hle.mp h).le]
  · have hq : a * b / d ≤ 65535 := not_lt.mp fun k => h (hle.mpr k)
    rw [divide_of_not_le h, accValue_multiply, decide_eq_false (not_lt.mpr hq), min_eq_left hq]

theorem mulDiv_of_le {a b d : Nat} (hd : 1 ≤ d) (h : a * b / d ≤ 65535) : mulDiv a b d = (a * b / d, false) := by
  rw [mulDiv_eq a b hd, min_eq_left h, decide_eq_false (not_lt.mpr h)]

/-! ## Working inputs (R62) -/

theorem workingTemperature_fst (h : Half) : (workingTemperature h).1 = reading h := by
  unfold workingTemperature reading narTemperature
  split
  · rfl
  · split
    · simp only [Option.some.injEq]; omega
    · split <;> simp only [Option.some.injEq] <;> omega

theorem workingTemperature_snd (h : Half) : (workingTemperature h).2 = true ↔ outside h := by
  unfold workingTemperature outside narTemperature
  split
  · next hn => simp [hn]
  · next hn =>
    split
    · next hl => exact ⟨fun _ => ⟨hn, .inl hl⟩, fun _ => rfl⟩
    · next hl =>
      split
      · next hu => exact ⟨fun _ => ⟨hn, .inr hu⟩, fun _ => rfl⟩
      · next hu => exact ⟨nofun, fun k => absurd k.2 (by omega)⟩

theorem workingLevel_fst (h : Half) : (workingLevel h).1 = levelRead h := by
  unfold workingLevel levelRead narLevel
  split
  · rfl
  · split <;> simp only [Option.some.injEq] <;> omega

theorem workingLevel_snd (h : Half) : (workingLevel h).2 = true ↔ h ≠ 0xFFFF ∧ 1000 < h.toNat := by
  unfold workingLevel narLevel
  split
  · next hn => simp [hn]
  · next hn =>
    split
    · next hl => exact ⟨fun _ => ⟨hn, hl⟩, fun _ => rfl⟩
    · next hl => exact ⟨nofun, fun k => absurd k.2 hl⟩

theorem reading_range {h : Half} {x : Int} (hx : reading h = some x) : -400 ≤ x ∧ x ≤ 500 := by
  unfold reading at hx
  split at hx
  · cases hx
  · cases hx; omega

theorem levelRead_range {h : Half} {p : Nat} (hp : levelRead h = some p) : p ≤ 1000 := by
  unfold levelRead at hp
  split at hp
  · cases hp
  · cases hp; omega

/-! ## The frost stage -/

/-- The input of the frost stage under settings in force (R72, R78). -/
def frostInputOf (g : Settings) (m : Mode) (tc tr : Option Int) (doorOpen : Bool) : FrostInput :=
  { mode := m, tc := tc, tr := tr, doorOpen := doorOpen, alpha := g.alpha, deadBand := g.deadBand,
    frostGain := g.frostGain, doorGain := g.doorGain, meltGain := g.meltGain }

theorem frostInput_eq (s : State) (b : Bay) (m : Mode) (w : Working) : frostInput s b m w
    = frostInputOf s.run.settings m w.tc w.tr (decide ((bayAt s b).door.confirmed = .opened)) := rfl

/-- The step of the filter is the exact quotient, truncated toward zero (R65, R74). -/
theorem filterStep_eq {alpha : Nat} (ha : 1 ≤ alpha ∧ alpha ≤ 255) {s d : Int} (h : (d - s).natAbs ≤ 1800) :
    filterStep alpha s d = ((d - s) * alpha).tdiv 256 := by
  have hle : (d - s).natAbs * alpha / 256 ≤ 65535 := by
    have : (d - s).natAbs * alpha ≤ 1800 * 255 := Nat.mul_le_mul h ha.2
    omega
  have hsign : decide (d - s < 0) = decide ((d - s) * alpha < 0) := by
    rw [decide_eq_decide]
    have hpos : (0 : Int) < alpha := by exact_mod_cast ha.1
    constructor
    · exact fun hn => Int.mul_neg_of_neg_of_pos hn hpos
    · intro hn
      by_contra hc
      exact absurd (Int.mul_nonneg (not_lt.mp hc) hpos.le) (not_le.mpr hn)
  have habs : (d - s).natAbs * alpha = ((d - s) * alpha).natAbs := by rw [Int.natAbs_mul, Int.natAbs_natCast]
  unfold filterStep
  rw [mulDiv_of_le (by decide) hle, hsign, habs]
  exact withSign_tdiv _ 256

theorem filterSplit_eq {alpha : Nat} (ha : 1 ≤ alpha ∧ alpha ≤ 255) {s : Option Int} {d : Int}
    (hs : -900 ≤ s.getD 0 ∧ s.getD 0 ≤ 900) (hd : -900 ≤ d ∧ d ≤ 900) : filterSplit alpha s d = filtered alpha s d := by
  cases s with
  | none => rfl
  | some s0 =>
    have h0 : -900 ≤ s0 ∧ s0 ≤ 900 := hs
    exact congrArg (s0 + ·) (filterStep_eq ha (by omega))

/-- A filter step never overshoots: the filtered split stays within the splits' range. -/
theorem filtered_range {alpha : Nat} (ha : 1 ≤ alpha ∧ alpha ≤ 255) {s : Option Int} {d : Int}
    (hs : -900 ≤ s.getD 0 ∧ s.getD 0 ≤ 900) (hd : -900 ≤ d ∧ d ≤ 900) :
    -900 ≤ filtered alpha s d ∧ filtered alpha s d ≤ 900 := by
  cases s with
  | none => exact hd
  | some s0 =>
    have h0 : -900 ≤ s0 ∧ s0 ≤ 900 := hs
    have hpos : (1 : Int) ≤ alpha ∧ (alpha : Int) ≤ 255 := by exact_mod_cast ha
    show -900 ≤ s0 + ((d - s0) * alpha).tdiv 256 ∧ s0 + ((d - s0) * alpha).tdiv 256 ≤ 900
    rcases le_total 0 (d - s0) with hx | hx
    · have h1 : 0 ≤ ((d - s0) * alpha).tdiv 256 := Int.tdiv_nonneg (Int.mul_nonneg hx (by omega)) (by decide)
      have h2 : ((d - s0) * alpha).tdiv 256 ≤ d - s0 := by
        rw [Int.tdiv_eq_ediv_of_nonneg (Int.mul_nonneg hx (by omega))]
        have : (d - s0) * alpha ≤ (d - s0) * 255 := Int.mul_le_mul_of_nonneg_left hpos.2 hx
        omega
      omega
    · have hneg : ((d - s0) * alpha).tdiv 256 = -(((s0 - d) * alpha).tdiv 256) := by
        rw [← Int.neg_tdiv, ← Int.neg_mul, neg_sub]
      have h1 : 0 ≤ ((s0 - d) * alpha).tdiv 256 := Int.tdiv_nonneg (Int.mul_nonneg (by omega) (by omega)) (by decide)
      have h2 : ((s0 - d) * alpha).tdiv 256 ≤ s0 - d := by
        rw [Int.tdiv_eq_ediv_of_nonneg (Int.mul_nonneg (by omega) (by omega))]
        have : (s0 - d) * alpha ≤ (s0 - d) * 255 := Int.mul_le_mul_of_nonneg_left hpos.2 (by omega)
        omega
      omega

/-- A raw excess is limited (R76). -/
def excessLimited (x : Int) : Bool := decide (1000 < x)

theorem excess_eq {deadBand : Nat} (h : deadBand ≤ 50) (x : Int) :
    excess deadBand x = (excessOf deadBand x, excessLimited x) := by
  unfold excess excessOf excessLimited
  split
  · next hx =>
    have h1 : ¬ (1000 : Int) < x := by omega
    have h2 : (if x < (deadBand : Int) then 0 else (min x 1000).toNat) = 0 := by split <;> omega
    rw [h2, decide_eq_false h1]
  · next hx =>
    have hdb : ¬ x < (deadBand : Int) := by omega
    rw [if_neg hdb]
    split
    · next hl => rw [min_eq_left hl, decide_eq_false (not_lt.mpr hl)]
    · next hl => rw [min_eq_right (by omega), decide_eq_true (by omega)]; rfl

theorem excessOf_le (deadBand : Nat) (x : Int) : excessOf deadBand x ≤ 1000 := by
  unfold excessOf
  split <;> omega

theorem growth_eq {gain e : Nat} (hg : gain ≤ 255) (he : e ≤ 1000) : growth gain e = (e * gain / 16, false) := by
  refine mulDiv_of_le (by decide) ?_
  have : e * gain ≤ 1000 * 255 := Nat.mul_le_mul he hg
  omega

theorem doorTerm_eq (i : FrostInput) (h : i.mode ≠ .defrost) :
    doorTerm i = if i.doorOpen = true then 8 * i.doorGain else 0 := by
  unfold doorTerm
  rw [accValue_multiply, Nat.mul_comm]
  split
  · next hm => exact absurd hm h
  · rfl

theorem grow_eq (f g h : Nat) : grow f g h = (min (f + g + h) 60000, decide (60000 < f + g + h)) := by
  unfold grow
  split
  · next hl => rw [min_eq_left hl, decide_eq_false (not_lt.mpr hl)]
  · next hl => rw [min_eq_right (by omega), decide_eq_true (by omega)]

theorem melt_eq (f gain : Nat) : melt f gain = f - 64 * gain := by
  rw [melt, accValue_multiply, Nat.mul_comm]

/-- What the filter part leaves of the frost record, the index apart (R73 to R75). -/
def filterMath (g : Settings) (m : Mode) (tc tr : Option Int) (f : Frost) : Frost :=
  match m, tc, tr with
  | .cool, some c, some r =>
    let s := filtered g.alpha f.s (r - c)
    match f.b with
    | none =>
      let k := if c ≤ 20 then min (f.k + 1) 3 else f.k
      { f with s := some s, k := k, b := if c ≤ 20 ∧ k = 3 then some s else none }
    | some _ => { f with s := some s }
  | _, _, _ => f

theorem filterMath_f (g : Settings) (m : Mode) (tc tr : Option Int) (f : Frost) : (filterMath g m tc tr f).f = f.f := by
  unfold filterMath
  split
  · dsimp only
    split <;> rfl
  · rfl

/-- The index grows by the excess and the door term (R77 to R79). -/
theorem frostMath_eq (g : Settings) {m : Mode} (hm : m ≠ .defrost) (tc tr : Option Int) (o : Bool) (f : Frost) :
    frostMath g m tc tr o f
    = { filterMath g m tc tr f with f := min (f.f + excessOf g.deadBand (rawExcess g m tc tr f) * g.frostGain / 16
          + if o = true then 8 * g.doorGain else 0) 60000 } := by
  have hzero : excessOf g.deadBand 0 = 0 := by unfold excessOf; split <;> rfl
  obtain ⟨fs, fb, fk, ff⟩ := f
  cases m with
  | defrost => exact absurd rfl hm
  | cool =>
    cases tc with
    | none => cases tr <;> cases fs <;> cases fb <;> simp [frostMath, filterMath, rawExcess, grown, hzero]
    | some c =>
      cases tr with
      | none => cases fs <;> cases fb <;> simp [frostMath, filterMath, rawExcess, grown, hzero]
      | some r => cases fb <;> by_cases hcold : c ≤ 20 <;> simp [frostMath, filterMath, rawExcess, grown, hzero, hcold]
  | _ => simp [frostMath, filterMath, rawExcess, grown, hzero]

section
variable {g : Settings} (hg : Safety.SettingsInRange g) {tc tr : Option Int}
  (hc : ∀ x, tc = some x → -400 ≤ x ∧ x ≤ 500) (hr : ∀ x, tr = some x → -400 ≤ x ∧ x ≤ 500) {f : Frost}
  (hf : Safety.FrostInRange f)
include hg hc hr hf

/-- The filter part in exact arithmetic, with its excess, its SATURATE flag and INVALID (R73 to R76). -/
theorem filterPart_eq (m : Mode) (o : Bool) : filterPart (frostInputOf g m tc tr o) f
    = (filterMath g m tc tr f, (excessOf g.deadBand (rawExcess g m tc tr f), excessLimited (rawExcess g m tc tr f)),
        decide (m = .cool ∧ (tc = none ∨ tr = none))) := by
  obtain ⟨-, -, halpha, hdead, -⟩ := hg
  have hzero : excessOf g.deadBand 0 = 0 := by unfold excessOf; split <;> rfl
  have hzeroLimited : excessLimited 0 = false := rfl
  have hother (h : m ≠ .cool) : filterPart (frostInputOf g m tc tr o) f = (f, (0, false), false)
      ∧ filterMath g m tc tr f = f ∧ rawExcess g m tc tr f = 0 := by
    cases m with
    | cool => exact absurd rfl h
    | _ => exact ⟨rfl, rfl, rfl⟩
  have hheld (h : tc = none ∨ tr = none) : filterPart (frostInputOf g .cool tc tr o) f
      = (f, (excessOf g.deadBand (rawExcess g .cool tc tr f), excessLimited (rawExcess g .cool tc tr f)), true)
      ∧ filterMath g .cool tc tr f = f := by
    obtain ⟨fs, fb, fk, ff⟩ := f
    have hex (x : Int) := excess_eq hdead x
    rcases h with rfl | rfl
    · cases tr <;> cases fs <;> cases fb <;> simp [filterPart, frostInputOf, filterMath, rawExcess, hzero, hex, hzeroLimited]
    · cases tc <;> cases fs <;> cases fb <;> simp [filterPart, frostInputOf, filterMath, rawExcess, hzero, hex, hzeroLimited]
  by_cases hm : m = .cool
  · subst hm
    by_cases hn : tc = none ∨ tr = none
    · rw [(hheld hn).1, (hheld hn).2]
      simp [hn]
    · obtain ⟨c, rfl⟩ := Option.ne_none_iff_exists'.mp fun h => hn (.inl h)
      obtain ⟨r, rfl⟩ := Option.ne_none_iff_exists'.mp fun h => hn (.inr h)
      have h1 := hc c rfl
      have h2 := hr r rfl
      have hsplit : filterSplit g.alpha f.s (r - c) = filtered g.alpha f.s (r - c) :=
        filterSplit_eq halpha hf.1 (by omega)
      obtain ⟨fs, fb, fk, ff⟩ := f
      dsimp only at hsplit
      cases fb with
      | none =>
        by_cases hcold : c ≤ 20 <;>
          simp [filterPart, frostInputOf, filterMath, rawExcess, hzero, hzeroLimited, coldCoil, hcold, hsplit]
      | some b =>
        have hex := excess_eq hdead (filtered g.alpha fs (r - c) - b)
        by_cases hcold : c ≤ 20 <;>
          simp [filterPart, frostInputOf, filterMath, rawExcess, hzero, hzeroLimited, hex, coldCoil, hcold, hsplit]
  · obtain ⟨h1, h2, h3⟩ := hother hm
    rw [h1, h2, h3, hzero]
    simp [hm, hzeroLimited]

/-- The conditions that the frost stage meets (R68, R73, R76, R79). -/
theorem frostStage_eq {m : Mode} (hm : m ≠ .defrost) (o : Bool) : frostStage (frostInputOf g m tc tr o) f
    = ⟨frostMath g m tc tr o f, condsUnion (condInvalid (decide (m = .cool ∧ (tc = none ∨ tr = none))))
        (condSaturate (excessLimited (rawExcess g m tc tr f)
          || decide (60000 < f.f + excessOf g.deadBand (rawExcess g m tc tr f) * g.frostGain / 16
            + if o = true then 8 * g.doorGain else 0)))⟩ := by
  have hgain := growth_eq hg.2.2.2.2.1 (excessOf_le g.deadBand (rawExcess g m tc tr f))
  have hdoor := doorTerm_eq (frostInputOf g m tc tr o) hm
  have hindex : (filterMath g m tc tr f).f = f.f := filterMath_f g m tc tr f
  unfold frostStage
  rw [filterPart_eq hg hc hr hf m o, frostMath_eq g hm]
  have hmode : (frostInputOf g m tc tr o).mode = m := rfl
  dsimp only
  split
  · next h => exact absurd (hmode.symm.trans h) hm
  · show (⟨_, _⟩ : FrostResult) = _
    have hg' : growth (frostInputOf g m tc tr o).frostGain (excessOf g.deadBand (rawExcess g m tc tr f))
        = (excessOf g.deadBand (rawExcess g m tc tr f) * g.frostGain / 16, false) := hgain
    simp only [hg', hindex, grow_eq, hdoor, Bool.or_false]
    rfl

end

theorem frostStage_defrost (g : Settings) (tc tr : Option Int) (o : Bool) (f : Frost) :
    frostStage (frostInputOf g .defrost tc tr o) f = ⟨frostMath g .defrost tc tr o f, condInvalid false⟩ := by
  simp only [frostStage, filterPart, frostInputOf, melt_eq]
  rfl

theorem ite_some_range {x : Int} (h : -900 ≤ x ∧ x ≤ 900) (p : Prop) [Decidable p] :
    -900 ≤ (if p then some x else none).getD 0 ∧ (if p then some x else none).getD 0 ≤ 900 := by
  split
  · exact h
  · decide

theorem frostMath_range {g : Settings} (hg : Safety.SettingsInRange g) {tc tr : Option Int}
    (hc : ∀ x, tc = some x → -400 ≤ x ∧ x ≤ 500) (hr : ∀ x, tr = some x → -400 ≤ x ∧ x ≤ 500) {f : Frost}
    (hf : Safety.FrostInRange f) (m : Mode) (o : Bool) : Safety.FrostInRange (frostMath g m tc tr o f) := by
  have hpart : Safety.FrostInRange (filterMath g m tc tr f) := by
    obtain ⟨hs, hb, hk, hi⟩ := hf
    unfold filterMath
    split
    · next m' tc' tr' c r =>
      have hsplit := filtered_range hg.2.2.1 (d := r - c) hs (by have := hc c rfl; have := hr r rfl; omega)
      dsimp only
      split
      · refine ⟨hsplit, ?_, ?_, hi⟩
        · exact ite_some_range hsplit _
        · dsimp only
          split <;> omega
      · exact ⟨hsplit, hb, hk, hi⟩
    · exact ⟨hs, hb, hk, hi⟩
  by_cases hm : m = .defrost
  · subst hm
    obtain ⟨hs, hb, hk, hi⟩ := hf
    exact ⟨hs, hb, hk, (Nat.sub_le _ _).trans hi⟩
  · rw [frostMath_eq g hm]
    obtain ⟨hs, hb, hk, -⟩ := hpart
    exact ⟨hs, hb, hk, Nat.min_le_right _ _⟩

/-! ## The fuel stage -/

theorem fuelWindow_eq {v : Nat} {f : Fuel} (hv : f.vref.getD 0 ≤ 6000) : fuelWindow v f
    = (windowMath v f, false, decide (∃ x ∈ f.vref, x + 50 ≤ v)) := by
  unfold fuelWindow windowMath
  cases hx : f.vref with
  | none => simp
  | some x =>
    have hle : x ≤ 6000 := by simpa [hx] using hv
    dsimp only
    by_cases h1 : x + 50 ≤ v
    · simp [h1]
    · by_cases h2 : v + 20 ≤ x ∧ 10 ≤ f.w
      · have hq : (x - v) * 60 / f.w ≤ 65535 := by
          refine (Nat.div_le_div_left h2.2 (by decide)).trans ?_
          have : (x - v) * 60 ≤ 6000 * 60 := Nat.mul_le_mul_right 60 (by omega)
          omega
        have hmax (q : Nat) : (if q = 0 then 1 else q) = max 1 q := by split <;> omega
        rw [if_neg h1, if_pos h2, if_neg h1, if_pos h2, mulDiv_of_le (by omega : 1 ≤ f.w) hq]
        dsimp only
        rw [hmax]
        simp [h1]
      · simp [h1, h2]

/-- The volume is exact: a level of at most 1000 per mille of at most 600 litres (R88). -/
theorem fuelVolume_eq {p c : Nat} (hp : p ≤ 1000) (hc : c ≤ 600) : fuelVolume p c = (p * c / 100, false) := by
  refine mulDiv_of_le (by decide) ?_
  have : p * c ≤ 1000 * 600 := Nat.mul_le_mul hp hc
  omega

/-- Endurance (R93). -/
theorem endurance_eq (v r : Nat) : endurance v r
    = (if r = 0 then 65535 else min (v * 60 / r) 65535,
        ⟨false, false, decide (r ≠ 0 ∧ 65535 < v * 60 / r), decide (r = 0)⟩) := by
  unfold endurance
  by_cases h : r = 0
  · simp [h, condNorate]
  · simp only [if_neg h, mulDiv_eq v 60 (Nat.pos_of_ne_zero h), condSaturate]
    simp [h]

/-- The input of the fuel stage under settings in force (R86). -/
def fuelInputOf (g : Settings) (level : Option Nat) (capacity : Nat) (source : Source) (departure : Option Nat) : FuelInput :=
  { level := level, capacity := capacity, source := source, departure := departure, margin := g.fuelMargin,
    lowFuel := g.lowFuel }

theorem fuelInput_eq (s : State) (b : Bay) (src : Source) (w : Working) : fuelInput s b src w
    = fuelInputOf s.run.settings w.level (bayAt s b).capacity src (bayAt s b).departure := rfl

theorem shortTest_eq (g : Settings) (level : Option Nat) (capacity : Nat) (source : Source) (departure : Option Nat) (e : Nat) :
    shortTest (fuelInputOf g level capacity source departure) e
      = decide (source = .diesel ∧ e < departure.getD 0 + g.fuelMargin) := by
  rw [Bool.eq_iff_iff]
  cases source with
  | diesel => exact ⟨fun h => decide_eq_true ⟨rfl, of_decide_eq_true h⟩, fun h => decide_eq_true (of_decide_eq_true h).2⟩
  | shore => exact ⟨nofun, fun h => nomatch (of_decide_eq_true h).1⟩

/-- The fuel stage in exact arithmetic (R87 to R95), with the conditions it meets. -/
theorem fuelStage_eq (g : Settings) {level : Option Nat} (hp : ∀ p, level = some p → p ≤ 1000) {capacity : Nat}
    (hc : capacity ≤ 600) (source : Source) (departure : Option Nat) {f : Fuel} (hv : f.vref.getD 0 ≤ 6000) :
    let f' := fuelMath g level capacity source departure f
    fuelStage (fuelInputOf g level capacity source departure) f
      = ⟨f', ⟨decide (level = none ∨ capacity = 0), false,
          decide (capacity ≠ 0 ∧ f'.r ≠ 0 ∧ ∃ p ∈ level, 65535 < p * capacity / 100 * 60 / f'.r),
          decide (level ≠ none ∧ capacity ≠ 0 ∧ f'.r = 0)⟩, decide (refuelTaken level capacity f)⟩ := by
  intro f'
  cases level with
  | none => simp [fuelStage, fuelInputOf, f', fuelMath, condInvalid]
  | some p =>
    by_cases h0 : capacity = 0
    · simp [fuelStage, fuelInputOf, f', fuelMath, condInvalid, h0]
    · have hvol := fuelVolume_eq (hp p rfl) hc
      have hf' : f' = { windowMath (p * capacity / 100) f with
          e := if (windowMath (p * capacity / 100) f).r = 0 then 65535
            else min (p * capacity / 100 * 60 / (windowMath (p * capacity / 100) f).r) 65535,
          low := decide (p * capacity / 100 < g.lowFuel),
          short := decide (source = .diesel ∧ (if (windowMath (p * capacity / 100) f).r = 0 then 65535
            else min (p * capacity / 100 * 60 / (windowMath (p * capacity / 100) f).r) 65535)
              < departure.getD 0 + g.fuelMargin) } := by
        simp only [f', fuelMath, if_neg h0]
      have hr : f'.r = (windowMath (p * capacity / 100) f).r := by rw [hf']
      have hin : (fuelInputOf g (some p) capacity source departure).level = some p
          ∧ (fuelInputOf g (some p) capacity source departure).capacity = capacity
          ∧ (fuelInputOf g (some p) capacity source departure).lowFuel = g.lowFuel := ⟨rfl, rfl, rfl⟩
      unfold fuelStage
      simp only [hin.1, hin.2.1, hin.2.2, if_neg h0, hvol, fuelWindow_eq hv, endurance_eq, shortTest_eq, hr, ← hf']
      simp [condsUnion, condSaturate, refuelTaken, h0]

theorem windowMath_range {v : Nat} (hv : v ≤ 6000) {f : Fuel} (hf : Safety.FuelInRange f) :
    Safety.FuelInRange (windowMath v f) := by
  obtain ⟨h1, h2, h3, h4, h5, h6⟩ := hf
  unfold windowMath
  split
  · exact ⟨hv, hv, Nat.zero_le _, h4, h5, h6⟩
  · next x hx =>
    have hle : x ≤ 6000 := by simpa [hx, Safety.AtMost] using h2
    split
    · exact ⟨hv, hv, Nat.zero_le _, h4, h5, Nat.min_le_right _ _⟩
    · split
      · next h =>
        refine ⟨hv, hv, Nat.zero_le _, ?_, h5, h6⟩
        have hq : (x - v) * 60 / f.w ≤ (x - v) * 60 / 10 := Nat.div_le_div_left h.2 (by decide)
        have : (x - v) * 60 ≤ 6000 * 60 := Nat.mul_le_mul_right 60 (by omega)
        dsimp only
        omega
      · exact ⟨hv, h2, h3, h4, h5, h6⟩

theorem fuelMath_range (g : Settings) {level : Option Nat} (hp : ∀ p, level = some p → p ≤ 1000) {capacity : Nat}
    (hc : capacity ≤ 600) (source : Source) (departure : Option Nat) {f : Fuel} (hf : Safety.FuelInRange f) :
    Safety.FuelInRange (fuelMath g level capacity source departure f) := by
  unfold fuelMath
  split
  · exact hf
  · next p =>
    split
    · exact hf
    · have hv : p * capacity / 100 ≤ 6000 := by
        have : p * capacity ≤ 1000 * 600 := Nat.mul_le_mul (hp p rfl) hc
        omega
      obtain ⟨h1, h2, h3, h4, -, h6⟩ := windowMath_range hv hf
      refine ⟨h1, h2, h3, h4, ?_, h6⟩
      dsimp only
      split <;> omega

/-! ## The door stage -/

theorem doorStage_eq (report : DoorReport) (d : Door) : (doorStage report d).door = doorMath report d
    ∧ (doorStage report d).invalid = decide (report = .nar)
    ∧ ((doorStage report d).notice = .opened ↔ d.confirmed ≠ .opened ∧ (doorMath report d).confirmed = .opened) := by
  unfold doorStage doorMath
  cases report with
  | nar => cases d.confirmed <;> simp
  | closed =>
    cases hc : d.confirmed with
    | opened => by_cases hp : d.pending = some .closed <;> simp [hp]
    | _ => simp
  | opened =>
    cases hc : d.confirmed with
    | closed => by_cases hp : d.pending = some .opened <;> simp [hp, openingBegins]
    | _ => simp [openingBegins]

theorem doorMath_range (report : DoorReport) {d : Door} (h : Safety.DoorInRange d) : Safety.DoorInRange (doorMath report d) := by
  obtain ⟨h1, h2, h3, h4⟩ := h
  have hopen : min (d.openings + 1) 255 ≤ 255 := Nat.min_le_right _ _
  unfold doorMath
  dsimp only
  split
  · exact ⟨h1, h2, h3, h4⟩
  · exact ⟨h1, h2, h3, h4⟩
  · exact ⟨h1, h2, h3, h4⟩
  · split
    · exact ⟨h1, h1, h3, h4⟩
    · exact ⟨h1, h2, h3, h4⟩
  · exact ⟨Nat.zero_le _, h2, hopen, h4⟩
  · split
    · exact ⟨Nat.zero_le _, h2, hopen, h4⟩
    · exact ⟨h1, h2, h3, h4⟩
  · exact ⟨h1, h2, h3, h4⟩

theorem loseDoor_eq (d : Door) : loseDoor d = doorLost d := rfl

theorem doorLost_range {d : Door} (h : Safety.DoorInRange d) : Safety.DoorInRange (doorLost d) := by
  obtain ⟨h1, h2, h3, h4⟩ := h
  refine ⟨h1, ?_, h3, h4⟩
  unfold doorLost
  dsimp only
  split
  · exact h1
  · exact h2

theorem countOpen_range {d : Door} (h : Safety.DoorInRange d) : Safety.DoorInRange (countOpen d) := by
  obtain ⟨-, h2, h3, -⟩ := h
  exact ⟨Nat.min_le_right _ _, h2, h3, Nat.min_le_right _ _⟩

end Sys2Proof.Machine
end

section
/-! What every operation keeps of the bay records: ranges, ident and miss count, and the bounds of the shed stacks (R2, R5,
R31, R35, R72, R86, R99, R128, R142). -/

namespace Sys2Proof.Machine

open Sys2Proof.Claims

/-! ## Record changes -/

/-- A miss count in step with the link, under a loss limit (R35). -/
def MissOk (limit : Nat) (r : BayRecord) : Prop := r.missCount ≤ limit ∧ (r.link = .lost ↔ r.missCount = limit)

/-- A record change that keeps the ranges and the miss law, and drops an ident only with the enrolment. -/
structure Lawful (g : Settings) (r r' : BayRecord) : Prop where
  range : Safety.SettingsInRange g → Safety.BayInRange r → Safety.BayInRange r'
  ident : (r'.ident = r.ident ∧ enrolled r'.occupancy = enrolled r.occupancy)
    ∨ (r'.ident = none ∧ enrolled r'.occupancy = false)
  miss : 2 ≤ g.lossLimit → MissOk g.lossLimit r → MissOk g.lossLimit r'

theorem Lawful.refl (g : Settings) (r : BayRecord) : Lawful g r r := ⟨fun _ h => h, .inl ⟨rfl, rfl⟩, fun _ h => h⟩

theorem Lawful.trans {g : Settings} {r r' r'' : BayRecord} (h : Lawful g r r') (k : Lawful g r' r'') : Lawful g r r'' := by
  refine ⟨fun hg hr => k.range hg (h.range hg hr), ?_, fun hg hr => k.miss hg (h.miss hg hr)⟩
  rcases k.ident with ⟨ki, ke⟩ | k
  · rcases h.ident with ⟨hi, he⟩ | ⟨hi, he⟩
    · exact .inl ⟨ki.trans hi, ke.trans he⟩
    · exact .inr ⟨ki.trans hi, ke.trans he⟩
  · exact .inr k

/-- A change that leaves ident, occupancy, link and miss count. -/
theorem Lawful.ofRange {g : Settings} {r r' : BayRecord}
    (h : Safety.SettingsInRange g → Safety.BayInRange r → Safety.BayInRange r') (hi : r'.ident = r.ident)
    (ho : r'.occupancy = r.occupancy) (hl : r'.link = r.link) (hm : r'.missCount = r.missCount) : Lawful g r r' :=
  ⟨h, .inl ⟨hi, by rw [ho]⟩, fun _ k => by unfold MissOk; rw [hl, hm]; exact k⟩

/-- A defrost record that the ranges of R128 allow where the record before is within its ranges. -/
theorem Lawful.defrost {g : Settings} {r : BayRecord} {d : Defrost} (hd : d.draw = r.defrost.draw ∨ d.draw = r.draw)
    (he : d.elapsed = 0 ∨ d.elapsed ≤ max r.defrost.elapsed 90)
    (hh : d.holdoff ≤ r.defrost.holdoff ∨ d.holdoff = g.holdoff) (hc : d.count ≤ max r.defrost.count 255) :
    Lawful g r { r with defrost := d } := by
  refine .ofRange (fun hg ⟨h1, h2, h3, h4, h5, h6⟩ => ⟨h1, h2, h3, h4, ?_, h6⟩) rfl rfl rfl rfl
  obtain ⟨k1, k2, k3, k4⟩ := h5
  refine ⟨?_, ?_, ?_, hc.trans (max_le k4 le_rfl)⟩
  · rcases hd with hd | hd <;> rw [hd]
    · exact k1
    · exact .inr h1.2.2.1
  · rcases he with he | he
    · exact he.le.trans (Nat.zero_le _)
    · exact he.trans (max_le k2 le_rfl)
  · rcases hh with hh | hh
    · exact hh.trans k3
    · exact hh.le.trans hg.2.2.2.2.2.2.2.2.2.1

/-- A change of defrost state, reason, charge, shed-pending or origin alone. -/
theorem Lawful.defrostSame {g : Settings} {r : BayRecord} {d : Defrost} (hd : d.draw = r.defrost.draw)
    (he : d.elapsed = r.defrost.elapsed) (hh : d.holdoff = r.defrost.holdoff) (hc : d.count = r.defrost.count) :
    Lawful g r { r with defrost := d } :=
  .defrost (.inl hd) (.inr (by omega)) (.inl hh.le) (by omega)

theorem frostReset_range {f : Frost} (h : Safety.FrostInRange f) : Safety.FrostInRange (frostReset f) :=
  ⟨h.1, ⟨show (-900 : Int) ≤ 0 by decide, show (0 : Int) ≤ 900 by decide⟩, Nat.zero_le _, Nat.zero_le _⟩

theorem lawful_ended (g : Settings) (o : DefrostOutcome) (r : BayRecord) : Lawful g r (endedRecord g.holdoff o r) := by
  have hdefrost : Lawful g r { r with defrost := endedDefrost g.holdoff o r.defrost } := by
    refine .defrost (.inl rfl) (.inr (by simp [endedDefrost])) ?_ ?_
    · simp only [endedDefrost]
      split
      · exact .inr rfl
      · exact .inl le_rfl
    · simp only [endedDefrost]
      split <;> omega
  refine hdefrost.trans (.ofRange (fun _ ⟨h1, h2, h3, h4, h5, h6⟩ => ⟨h1, ?_, h3, h4, h5, h6⟩) rfl rfl rfl rfl)
  simp only [endedRecord]
  split
  · exact frostReset_range h2
  · exact h2

theorem empty_inRange : Safety.BayInRange BayRecord.empty := by decide

theorem lawful_emptied (g : Settings) (r : BayRecord) : Lawful g r (emptied r) := by
  refine ⟨fun _ h => ?_, .inr ⟨rfl, rfl⟩, fun hl _ => ⟨Nat.zero_le _, ⟨nofun, fun h => ?_⟩⟩⟩
  · obtain ⟨⟨-, hc, hd, -, -⟩, -⟩ := h
    exact ⟨⟨empty_inRange.1.1, hc, hd, empty_inRange.1.2.2.2.1, empty_inRange.1.2.2.2.2⟩, empty_inRange.2⟩
  · have h0 : (emptied r).missCount = 0 := rfl
    omega

theorem lawful_loseDoor (g : Settings) (r : BayRecord) : Lawful g r (loseDoorOf r) :=
  .ofRange (fun _ ⟨h1, h2, h3, h4, h5, h6⟩ => ⟨h1, h2, h3, doorLost_range h4, h5, h6⟩) rfl rfl rfl rfl

theorem lawful_answered (g : Settings) (snap : Snapshot) (r : BayRecord) : Lawful g r (answeredRecord snap r) := by
  refine ⟨fun _ ⟨h1, h2, h3, h4, h5, _⟩ => ⟨h1, h2, h3, h4, h5, Nat.zero_le _⟩, .inl ⟨rfl, ?_⟩,
    fun hl _ => ⟨Nat.zero_le _, ⟨nofun, fun h => ?_⟩⟩⟩
  · simp only [answeredRecord]
    split
    · next h => rw [h]; rfl
    · rfl
  · have h0 : (answeredRecord snap r).missCount = 0 := rfl
    omega

theorem lawful_missed (g : Settings) (o : ExchangeOutcome) (r : BayRecord) : Lawful g r (missedRecord g.lossLimit o r) := by
  unfold missedRecord
  dsimp only
  split
  · exact ⟨fun _ ⟨h1, h2, h3, h4, h5, _⟩ => ⟨h1, h2, h3, h4, h5, Nat.min_le_right _ _⟩, .inl ⟨rfl, rfl⟩,
      fun _ _ => ⟨le_rfl, ⟨fun _ => rfl, fun _ => rfl⟩⟩⟩
  · next h =>
    refine ⟨fun _ ⟨h1, h2, h3, h4, h5, _⟩ => ⟨h1, h2, h3, h4, h5, Nat.min_le_right _ _⟩, .inl ⟨rfl, rfl⟩,
      fun _ _ => ⟨?_, ⟨fun hl => absurd (.inl hl) h, fun hm => absurd (.inr ?_) h⟩⟩⟩
    · dsimp only
      omega
    · exact le_of_eq hm.symm

/-! ## Operations -/

/-- Every record changes lawfully, the settings stay, the clock stays in range, and a shed stack grows to at most 8
entries. -/
structure Evolves (s t : State) : Prop where
  settings : t.run.settings = s.run.settings
  clock : Safety.ClockInRange s.run → Safety.ClockInRange t.run
  records : ∀ c, Lawful s.run.settings (bayAt s c) (bayAt t c)
  depth : ∀ f, (feederAt t f).stack.length ≤ max 8 (feederAt s f).stack.length

theorem Evolves.refl (s : State) : Evolves s s := ⟨rfl, id, fun _ => .refl _ _, fun _ => le_max_right _ _⟩

theorem Evolves.trans {s t u : State} (h : Evolves s t) (k : Evolves t u) : Evolves s u := by
  refine ⟨k.settings.trans h.settings, k.clock ∘ h.clock, fun c => (h.records c).trans (h.settings ▸ k.records c),
    fun f => ?_⟩
  have h1 := h.depth f
  have h2 := k.depth f
  omega

/-- An operation that writes neither records nor feeders, and of the run controller neither settings nor clock. -/
theorem Evolves.of_run {s t : State} (hr : t.run.settings = s.run.settings)
    (hk : Safety.ClockInRange s.run → Safety.ClockInRange t.run) (hb : t.bays = s.bays)
    (ha : t.arb.feeders = s.arb.feeders) : Evolves s t :=
  ⟨hr, hk, fun c => by rw [bayAt_congr hb]; exact .refl _ _, fun f => by
    rw [show feederAt t f = feederAt s f by simp only [feederAt, ha]]
    exact le_max_right _ _⟩

/-- An operation that writes neither run controller, records nor feeders. -/
theorem Evolves.of_eq {s t : State} (hr : t.run = s.run) (hb : t.bays = s.bays)
    (ha : t.arb.feeders = s.arb.feeders) : Evolves s t := .of_run (by rw [hr]) (by rw [hr]; exact id) hb ha

theorem evolves_modBay {b : Bay} {g : BayRecord → BayRecord} {s : State}
    (h : Lawful s.run.settings (bayAt s b) (g (bayAt s b))) : Evolves s (modBay b g s) := by
  refine ⟨rfl, id, fun c => ?_, fun f => le_max_right _ _⟩
  rw [bayAt_modBay]
  split
  · next hc => rw [hc]; exact h
  · exact .refl _ _

theorem evolves_modDefrost {b : Bay} {g : Defrost → Defrost} {s : State}
    (hd : (g (bayAt s b).defrost).draw = (bayAt s b).defrost.draw)
    (he : (g (bayAt s b).defrost).elapsed = (bayAt s b).defrost.elapsed)
    (hh : (g (bayAt s b).defrost).holdoff = (bayAt s b).defrost.holdoff)
    (hc : (g (bayAt s b).defrost).count = (bayAt s b).defrost.count) : Evolves s (modDefrost b g s) :=
  evolves_modBay (.defrostSame hd he hh hc)

theorem evolves_mapBays {g : BayRecord → BayRecord} {s : State} (h : ∀ r, Lawful s.run.settings r (g r)) :
    Evolves s (mapBays g s) := by
  refine ⟨by rw [mapBays_run], by rw [mapBays_run]; exact id, fun c => ?_, fun f => ?_⟩
  · rw [bayAt_mapBays]
    exact h _
  · rw [show feederAt (mapBays g s) f = feederAt s f by simp only [feederAt, mapBays_arb]]
    exact le_max_right _ _

theorem evolves_raiseAlert (c : Category) (e : Element) (s : State) : Evolves s (raiseAlert c e s) := .of_eq rfl rfl rfl
theorem evolves_owePass (s : State) : Evolves s (owePass s) := .of_eq rfl rfl rfl

theorem evolves_owePassIf (x : Bool) (s : State) : Evolves s (owePassIf x s) := by
  rcases owePassIf_cases x s with h | h <;> rw [h]
  · exact evolves_owePass s
  · exact .refl s

theorem evolves_setOrders (q : List Order) (s : State) : Evolves s (setOrders q s) := .of_eq rfl rfl rfl

theorem evolves_placeStop (b : Bay) (s : State) : Evolves s (placeStop b s) := by
  rw [placeStop_setOrders]
  exact evolves_setOrders _ s

theorem evolves_leaveActive (b : Bay) (s : State) : Evolves s (leaveActive b s) := .of_eq rfl rfl rfl

/-- Feeder records rewritten with stacks that have not grown. -/
theorem Evolves.of_stacks {s t : State} (hr : t.run = s.run) (hb : t.bays = s.bays)
    (hf : ∀ f, (feederAt t f).stack.length ≤ max 8 (feederAt s f).stack.length) : Evolves s t :=
  ⟨by rw [hr], by rw [hr]; exact id, fun c => by rw [bayAt_congr hb]; exact .refl _ _, hf⟩

theorem evolves_leaveStacks (b : Bay) (s : State) : Evolves s (leaveStacks b s) :=
  .of_stacks rfl rfl fun f => by
    rw [feederAt_leaveStacks]
    exact (List.length_filter_le _ _).trans (le_max_right _ _)

theorem evolves_joinActive (b : Bay) (s : State) : Evolves s (joinActive b s) := .of_eq rfl rfl rfl
theorem evolves_leaveQueue (b : Bay) (s : State) : Evolves s (leaveQueue b s) := .of_eq rfl rfl rfl
theorem evolves_placeStart (b : Bay) (r : Bool) (s : State) : Evolves s (placeStart b r s) := .of_eq rfl rfl rfl

theorem evolves_leaveCollections (b : Bay) (s : State) : Evolves s (leaveCollections b s) :=
  ((evolves_leaveActive b s).trans (evolves_leaveQueue b _)).trans (evolves_leaveStacks b _)

theorem evolves_recordEnd (b : Bay) (r : StopReason) (s : State) : Evolves s (recordEnd b r s) :=
  .of_stacks rfl rfl fun f => by
    rw [feederAt_recordEnd]
    simp

theorem evolves_emptyRecord (b : Bay) (s : State) : Evolves s (emptyRecord b s) :=
  (evolves_modBay (lawful_emptied _ _)).trans (.of_eq rfl rfl rfl)

theorem evolves_becomeVacant (b : Bay) (s : State) : Evolves s (becomeVacant b s) :=
  (evolves_emptyRecord b s).trans (evolves_owePassIf _ _)

theorem evolves_endEpisode (b : Bay) (o : DefrostOutcome) (s : State) : Evolves s (endEpisode b o s) := by
  have h := (evolves_leaveCollections b s).trans
    (evolves_modBay (b := b) (g := endedRecord s.run.settings.holdoff o) (lawful_ended s.run.settings o _))
  have h2 : ∀ x, Evolves s (owePassIf x (if raisesFrost o then
      raiseAlert .frost (bayElement b) (modBay b (endedRecord s.run.settings.holdoff o) (leaveCollections b s))
      else modBay b (endedRecord s.run.settings.holdoff o) (leaveCollections b s))) := by
    intro x
    refine Evolves.trans ?_ (evolves_owePassIf x _)
    split
    · exact h.trans (evolves_raiseAlert _ _ _)
    · exact h
  rw [endEpisode_cases]
  split
  · exact (h2 _).trans (evolves_becomeVacant b _)
  · exact h2 _

theorem evolves_stopEpisode (b : Bay) (r : StopReason) (s : State) : Evolves s (stopEpisode b r s) :=
  ((evolves_leaveActive b s).trans (evolves_modDefrost rfl rfl rfl rfl)).trans (evolves_placeStop b _)

theorem evolves_endBusiness (b : Bay) (r : StopReason) (s : State) : Evolves s (endBusiness b r s) := by
  rcases endBusiness_cases b r s with h | h | ⟨-, h⟩ | ⟨-, h⟩ | ⟨-, h⟩ | h <;> rw [h]
  · exact .refl s
  · exact evolves_endEpisode b _ s
  · exact (evolves_placeStop b s).trans (evolves_endEpisode b _ _)
  · exact evolves_stopEpisode b r s
  · exact evolves_recordEnd b r s
  · exact evolves_modDefrost rfl rfl rfl rfl

theorem evolves_becomeLost (b : Bay) (s : State) : Evolves s (becomeLost b s) :=
  ((evolves_raiseAlert _ _ s).trans (evolves_modBay (lawful_loseDoor _ _))).trans (evolves_endBusiness b _ _)

theorem evolves_departHung (b : Bay) (s : State) : Evolves s (departHung b s) :=
  (evolves_owePassIf _ s).trans (evolves_becomeVacant b _)

theorem evolves_joinQueue (b : Bay) (o : Origin) (s : State) : Evolves s (joinQueue b o s) := by
  have hjoin : Evolves s { s with arb := { s.arb with queue := s.arb.queue ++ [⟨b, o, s.run.yardMinute, 0⟩] } } :=
    .of_eq rfl rfl rfl
  exact (hjoin.trans (evolves_modDefrost (b := b) (g := fun d => { d with state := .queued, origin := some o })
    rfl rfl rfl rfl)).trans (evolves_owePass _)

/-! ### Shedding and the grant pass -/

theorem evolves_setFeeder {f : FeederIx} {r : Feeder} {s : State}
    (h : r.stack.length ≤ max 8 (feederAt s f).stack.length) : Evolves s (setFeeder f r s) :=
  .of_stacks rfl rfl fun g => by
    rw [feederAt_setFeeder]
    split
    · next hg => rw [hg]; exact h
    · exact le_max_right _ _

theorem evolves_pushShed {f : FeederIx} {s : State} (h : stackHasRoom s f = true) (b : Bay) : Evolves s (pushShed f b s) := by
  have hlen : (feederAt s f).stack.length < 8 := by simpa [stackHasRoom] using h
  have hpush (n : Bool) : Evolves s (setFeeder f { feederAt s f with stack := ⟨b, none⟩ :: (feederAt s f).stack, nearFull := n } s) :=
    evolves_setFeeder (by simp only [List.length_cons]; omega)
  unfold pushShed
  dsimp only
  split
  · exact (hpush true).trans (evolves_raiseAlert _ _ _)
  · exact hpush _

theorem evolves_refusePush (f : FeederIx) (b : Bay) (s : State) : Evolves s (refusePush f b s) :=
  (evolves_setFeeder (f := f) (r := { feederAt s f with overflow := true }) (le_max_right _ _)).trans
    (evolves_raiseAlert _ _ _)

theorem evolves_shedRunning (f : FeederIx) (b : Bay) (s : State) : Evolves s (shedRunning f b s) := by
  unfold shedRunning
  split
  · next h => exact (evolves_pushShed h b).trans (evolves_stopEpisode b _ _)
  · exact (evolves_refusePush f b s).trans (evolves_stopEpisode b _ _)

theorem evolves_shedUnsent (f : FeederIx) (b : Bay) (s : State) : Evolves s (shedUnsent f b s) := by
  unfold shedUnsent
  split
  · next h =>
    have hroom : stackHasRoom (leaveActive b (placeStop b s)) f = true := by
      have hf : feederAt (leaveActive b (placeStop b s)) f = feederAt s f := by
        show (placeStop b s).arb.feeders[f.val] = _
        rw [placeStop_arb]
        rfl
      rw [stackHasRoom, hf]
      exact h
    exact ((((evolves_placeStop b s).trans (evolves_leaveActive b _)).trans (evolves_pushShed hroom b)).trans
      (evolves_modDefrost rfl rfl rfl rfl)).trans (evolves_owePass _)
  · exact ((evolves_placeStop b s).trans (evolves_refusePush f b _)).trans (evolves_endEpisode b _ _)

theorem evolves_shed (f : FeederIx) (b : Bay) (s : State) : Evolves s (shed f b s) := by
  rcases shed_cases f b s with ⟨-, -, h⟩ | ⟨-, h⟩ | ⟨-, h⟩ | h <;> rw [h]
  · exact evolves_shedUnsent f b s
  · exact evolves_modDefrost rfl rfl rfl rfl
  · exact evolves_shedRunning f b s
  · exact .refl s

theorem evolves_foldl {α : Type} {g : State → α → State} (h : ∀ s a, Evolves s (g s a)) (l : List α) (s : State) :
    Evolves s (l.foldl g s) := foldl_rel .refl (fun _ _ _ => .trans) h l s

theorem evolves_shedWalk (f : FeederIx) (s : State) : Evolves s (shedWalk f s) :=
  evolves_foldl (fun s b => by
    unfold walkStep
    dsimp only
    split
    · exact .refl s
    · split
      · exact evolves_shed f b s
      · exact .refl s) _ s

theorem evolves_resumeTop {f : FeederIx} {s : State} {top : ShedEntry} {rest : List ShedEntry}
    (h : (feederAt s f).stack = top :: rest) (b : Bay) : Evolves s (resumeTop f b rest s) :=
  (((evolves_setFeeder (f := f) (r := { feederAt s f with stack := rest })
    (by rw [h]; simp only [List.length_cons]; omega)).trans
    (evolves_modDefrost (b := b) (g := fun d => { d with state := .starting, reason := none, shedPending := false })
      rfl rfl rfl rfl)).trans (evolves_joinActive b _)).trans (evolves_placeStart b true _)

theorem evolves_resumeFeeder (f : FeederIx) (n : Nat) (s : State) : Evolves s (resumeFeeder f n s) := by
  induction n generalizing s with
  | zero => exact .refl s
  | succ n ih =>
    unfold resumeFeeder
    split
    · exact .refl s
    · next top rest hs =>
      dsimp only
      split
      · exact (evolves_resumeTop hs top.bay).trans (ih _)
      · exact .refl s

theorem evolves_grant (b : Bay) (c : Charge) (s : State) : Evolves s (grant b c s) :=
  ((evolves_modBay (.defrost (d := { (bayAt s b).defrost with
      state := .starting, reason := none, charge := c, draw := (bayAt s b).draw, shedPending := false, elapsed := 0 })
      (.inr rfl) (.inl rfl) (.inl le_rfl) (le_max_left _ _))).trans
    (evolves_joinActive b _)).trans (evolves_placeStart b false _)

theorem evolves_walkEntry (w : QueueWalk) (q : QueueEntry) : Evolves w.state (walkEntry w q).state := by
  rcases walkEntry_cases w q with h | ⟨f, -, -, -, -, h⟩ | ⟨-, -, h⟩ | ⟨f, -, -, -, -, h⟩ <;> rw [h]
  · exact .refl _
  · exact .refl _
  · exact evolves_grant q.bay _ _
  · exact evolves_grant q.bay _ _

theorem evolves_walkQueue (l : List QueueEntry) (w : QueueWalk) : Evolves w.state (l.foldl walkEntry w).state := by
  induction l generalizing w with
  | nil => exact .refl _
  | cons q l ih => exact (evolves_walkEntry w q).trans (ih _)

theorem evolves_resumeAll (s : State) : Evolves s (resumeAll s) :=
  evolves_foldl (fun s f => evolves_resumeFeeder f _ s) allFeeders s

theorem evolves_grantQueue (s : State) : Evolves s (grantQueue s) := by
  have hwalk := evolves_walkQueue s.arb.queue ⟨s, [], []⟩
  exact hwalk.trans (.of_eq rfl rfl rfl)

theorem evolves_grantPass (s : State) : Evolves s (grantPass s) := (evolves_resumeAll s).trans (evolves_grantQueue _)

theorem evolves_runPass (s : State) : Evolves s (runPass s) := by
  have h0 : Evolves s { s with passDue := false } := .of_eq rfl rfl rfl
  rcases runPass_cases s with ⟨-, h⟩ | ⟨-, -, h⟩ | ⟨-, -, h⟩ <;> rw [h]
  · exact .refl s
  · exact h0.trans (evolves_grantPass _)
  · exact h0

theorem evolves_serveLoop (s : State) : Evolves s (serveLoop s) :=
  .of_eq (by rw [serveLoop_run]) (serveLoop_bays s) (by rw [serveLoop_arb])

theorem evolves_haltTest (s : State) : Evolves s (haltTest s) := by
  rcases haltTest_cases s with h | ⟨-, -, h⟩ <;> rw [h]
  · exact .refl s
  · have hrun : Evolves s { s with run := { s.run with state := .halted } } := .of_run rfl id rfl rfl
    exact hrun.trans (evolves_mapBays (lawful_loseDoor _))

theorem evolves_settle (s : State) : Evolves s (settle s) :=
  ((evolves_runPass s).trans (.of_eq (by rw [endRound_run]) (endRound_bays _) (by rw [endRound_arb]))).trans
    ((evolves_serveLoop _).trans (evolves_haltTest _))

end Sys2Proof.Machine
end

section
/-! The laws of records and buffers over a whole command: exchanges, ticks and requests (O58). -/

namespace Sys2Proof.Machine

open Sys2Proof.Claims

/-! ## The check and the exchanges -/

theorem working_range (snap : Snapshot) : (∀ x, (workingInputs snap).tc = some x → -400 ≤ x ∧ x ≤ 500)
    ∧ (∀ x, (workingInputs snap).tr = some x → -400 ≤ x ∧ x ≤ 500)
    ∧ ∀ p, (workingInputs snap).level = some p → p ≤ 1000 := by
  refine ⟨fun x hx => reading_range (h := snap.tc) ?_, fun x hx => reading_range (h := snap.tr) ?_,
    fun p hp => levelRead_range (h := snap.p) ?_⟩
  · exact (workingTemperature_fst snap.tc).symm.trans hx
  · exact (workingTemperature_fst snap.tr).symm.trans hx
  · exact (workingLevel_fst snap.p).symm.trans hp

theorem frostStage_range {g : Settings} (hg : Safety.SettingsInRange g) {tc tr : Option Int}
    (hc : ∀ x, tc = some x → -400 ≤ x ∧ x ≤ 500) (hr : ∀ x, tr = some x → -400 ≤ x ∧ x ≤ 500) {f : Frost}
    (hf : Safety.FrostInRange f) (m : Mode) (o : Bool) :
    Safety.FrostInRange (frostStage (frostInputOf g m tc tr o) f).frost := by
  have hrange := frostMath_range hg hc hr hf m o
  by_cases hm : m = .defrost
  · rw [hm] at hrange ⊢
    rw [frostStage_defrost]
    exact hrange
  · rw [frostStage_eq hg hc hr hf hm]
    exact hrange

theorem evolves_checkInputs (b : Bay) (w : Working) (s : State) : Evolves s (checkInputs b w s) :=
  evolves_modBay (.ofRange (fun _ h => h) rfl rfl rfl rfl)

theorem evolves_checkDoor (b : Bay) (report : DoorReport) (s : State) : Evolves s (checkDoor b report s) := by
  have hrecord : Evolves s (modBay b (fun r => addCauses (condInvalid (doorStage report (bayAt s b).door).invalid)
      { r with door := (doorStage report (bayAt s b).door).door }) s) := by
    refine evolves_modBay (.ofRange (fun _ ⟨h1, h2, h3, h4, h5, h6⟩ => ⟨h1, h2, h3, ?_, h5, h6⟩) rfl rfl rfl rfl)
    show Safety.DoorInRange (doorStage report (bayAt s b).door).door
    rw [(doorStage_eq report _).1]
    exact doorMath_range report h4
  rcases checkDoor_cases b report s with ⟨-, h⟩ | ⟨-, h⟩ <;> rw [h]
  · exact hrecord.trans (evolves_endBusiness b _ _)
  · exact hrecord

theorem evolves_checkFrost (b : Bay) (m : Mode) (snap : Snapshot) (s : State) :
    Evolves s (checkFrost b m (workingInputs snap) s) := by
  obtain ⟨hc, hr, -⟩ := working_range snap
  have hrecord : Evolves s (modBay b (fun r =>
      addCauses (frostStage (frostInput s b m (workingInputs snap)) (bayAt s b).frost).causes
        { r with frost := (frostStage (frostInput s b m (workingInputs snap)) (bayAt s b).frost).frost }) s) := by
    refine evolves_modBay (.ofRange (fun hg ⟨h1, h2, h3, h4, h5, h6⟩ => ⟨h1, ?_, h3, h4, h5, h6⟩) rfl rfl rfl rfl)
    exact frostStage_range hg hc hr h2 m _
  unfold checkFrost
  dsimp only
  split
  · exact hrecord.trans (evolves_raiseAlert _ _ _)
  · exact hrecord

theorem evolves_checkFuel (b : Bay) (src : Source) (snap : Snapshot) (s : State) :
    Evolves s (checkFuel b src (workingInputs snap) s) := by
  obtain ⟨-, -, hp⟩ := working_range snap
  have hrecord : Evolves s (modBay b (fun r =>
      addCauses (fuelStage (fuelInput s b src (workingInputs snap)) (bayAt s b).fuel).causes
        { r with fuel := (fuelStage (fuelInput s b src (workingInputs snap)) (bayAt s b).fuel).fuel, fuelOrdered :=
            r.fuelOrdered && !(fuelStage (fuelInput s b src (workingInputs snap)) (bayAt s b).fuel).refuelled }) s) := by
    refine evolves_modBay (.ofRange (fun _ ⟨h1, h2, h3, h4, h5, h6⟩ => ⟨h1, h2, ?_, h4, h5, h6⟩) rfl rfl rfl rfl)
    have hcap : (bayAt s b).capacity ≤ 600 := by
      obtain ⟨-, h, -⟩ := h1
      omega
    have hv : (bayAt s b).fuel.vref.getD 0 ≤ 6000 := h3.2.1
    show Safety.FuelInRange (fuelStage (fuelInputOf s.run.settings _ _ _ _) _).fuel
    rw [fuelStage_eq s.run.settings hp hcap src (bayAt s b).departure hv]
    exact fuelMath_range _ hp hcap src _ h3
  unfold checkFuel
  dsimp only
  split
  · exact hrecord.trans (evolves_raiseAlert _ _ _)
  · exact hrecord

/-- The sticky set gains the causes and CHECK is raised: the end of a check before its demand test (R69, R70). -/
def checkClosed (b : Bay) (s : State) : State :=
  let s1 := modBay b (fun r => { r with sticky := condsUnion r.sticky r.causes }) s
  if condsMeet (bayAt s1 b).causes s1.run.settings.enables then raiseAlert .check (bayElement b) s1 else s1

theorem checkEnd_eq (b : Bay) (s : State) : checkEnd b s
    = if demandTest (checkClosed b s) b then joinQueue b .estimate (checkClosed b s) else checkClosed b s := rfl

theorem evolves_checkEnd (b : Bay) (s : State) : Evolves s (checkEnd b s) := by
  have hsticky : Evolves s (modBay b (fun r => { r with sticky := condsUnion r.sticky r.causes }) s) :=
    evolves_modBay (.ofRange (fun _ h => h) rfl rfl rfl rfl)
  have hclosed : Evolves s (checkClosed b s) := by
    unfold checkClosed
    dsimp only
    split
    · exact hsticky.trans (evolves_raiseAlert _ _ _)
    · exact hsticky
  rw [checkEnd_eq]
  split
  · exact hclosed.trans (evolves_joinQueue b _ _)
  · exact hclosed

theorem evolves_check (b : Bay) (snap : Snapshot) (s : State) : Evolves s (check b snap s) :=
  ((((evolves_checkInputs b _ s).trans (evolves_checkDoor b _ _)).trans (evolves_checkFrost b _ snap _)).trans
    (evolves_checkFuel b _ snap _)).trans (evolves_checkEnd b _)

theorem evolves_modeStep (b : Bay) (m : Mode) (s : State) : Evolves s (modeStep b m s) := by
  rcases modeStep_cases b m s with h | ⟨-, -, h⟩ | ⟨-, -, -, h⟩ | ⟨_, -, -, -, h⟩ <;> rw [h]
  · exact .refl s
  all_goals exact evolves_endEpisode b _ s

theorem evolves_chargeToSelf (b : Bay) (s : State) : Evolves s (chargeToSelf b s) :=
  (evolves_modDefrost (b := b) (g := fun d => { d with charge := .self, shedPending := false }) rfl rfl rfl rfl).trans
    (evolves_owePassIf _ _)

theorem evolves_chargeToFeeder (b : Bay) (f : FeederIx) (s : State) : Evolves s (chargeToFeeder b f s) := by
  have hcharge : Evolves s (modDefrost b (fun d => { d with charge := .feeder f }) s) :=
    evolves_modDefrost rfl rfl rfl rfl
  rcases chargeToFeeder_cases b f s with h | h <;> rw [h]
  · exact hcharge
  · exact hcharge.trans (evolves_shed f b _)

theorem evolves_sourceStep (b : Bay) (src : Source) (s : State) : Evolves s (sourceStep b src s) := by
  rcases sourceStep_cases b src s with h | ⟨-, -, h⟩ | ⟨f, -, -, -, h⟩ <;> rw [h]
  · exact .refl s
  · exact evolves_chargeToSelf b s
  · exact evolves_chargeToFeeder b f s

theorem evolves_pollSteps (b : Bay) (snap : Snapshot) (s : State) : Evolves s (pollSteps b snap s) :=
  (((evolves_modBay (lawful_answered _ snap _)).trans (evolves_owePassIf _ _)).trans (evolves_modeStep b _ _)).trans
    (evolves_sourceStep b _ _)

theorem evolves_pollAnswered (b : Bay) (snap : Snapshot) (s : State) : Evolves s (pollAnswered b snap s) := by
  rw [pollAnswered_eq]
  split
  · exact (evolves_pollSteps b snap s).trans (evolves_check b snap _)
  · exact evolves_pollSteps b snap s

theorem evolves_pollMissed (b : Bay) (o : ExchangeOutcome) (s : State) : Evolves s (pollMissed b o s) := by
  have hmissed : Evolves s (modBay b (missedRecord s.run.settings.lossLimit o) s) := evolves_modBay (lawful_missed _ o _)
  unfold pollMissed
  dsimp only
  split
  · exact hmissed.trans (evolves_becomeLost b _)
  · exact hmissed

theorem evolves_noteOutcome (b : Bay) (o : ExchangeOutcome) (s : State) : Evolves s (noteOutcome b o s) :=
  evolves_modBay (.ofRange (fun _ h => h) rfl rfl rfl rfl)

theorem evolves_startTaken (b : Bay) (s : State) : Evolves s (startTaken b s) := by
  rcases startTaken_cases b s with ⟨_, -, h⟩ | ⟨f, -, -, -, h⟩ | ⟨-, h⟩ <;> rw [h]
  · exact evolves_stopEpisode b _ s
  · exact evolves_shedRunning f b s
  · exact evolves_modDefrost rfl rfl rfl rfl

theorem evolves_stopAnswered (b : Bay) (s : State) : Evolves s (stopAnswered b s) := by
  rcases stopAnswered_cases b s with ⟨_, h⟩ | ⟨-, h⟩ | ⟨-, h⟩ <;> rw [h]
  · exact evolves_endEpisode b _ s
  · exact (evolves_modDefrost (b := b) (g := fun d => { d with state := .shed, reason := none }) rfl rfl rfl rfl).trans
      (evolves_owePass _)
  · exact .refl s

theorem evolves_stopUnanswered (b : Bay) (s : State) : Evolves s (stopUnanswered b s) := by
  have h := (((evolves_leaveStacks b s).trans (evolves_owePassIf (onStack s b) _)).trans
    (evolves_modDefrost (b := b) (g := fun d => { d with state := .hung, reason := hungReason s b }) rfl rfl rfl
      rfl)).trans (evolves_raiseAlert .power (bayElement b) _)
  unfold stopUnanswered
  dsimp only
  split
  · exact h.trans (evolves_departHung b _)
  · exact h

theorem evolves_orderOutcome (b : Bay) (o : OrderKind) (r : Option AckResult) (s : State) :
    Evolves s (orderOutcome b o r s) := by
  rcases orderOutcome_cases b o r s with ⟨_, a, -, -, -, h⟩ | ⟨_, -, -, -, h⟩ | ⟨-, -, -, h⟩ | ⟨-, -, -, h⟩ | h <;>
    rw [h]
  · rcases startAnswered_cases b a s with ⟨-, h⟩ | ⟨-, h⟩ <;> rw [h]
    · exact evolves_startTaken b s
    · exact evolves_endEpisode b _ s
  · exact evolves_stopEpisode b _ s
  · exact evolves_stopAnswered b s
  · exact evolves_stopUnanswered b s
  · exact .refl s

theorem evolves_exchangeResult (x : Exchange) (j : Judged) (s : State) : Evolves s (exchangeResult x j s) := by
  unfold exchangeResult
  split
  · exact evolves_pollAnswered _ _ s
  · exact evolves_pollMissed _ _ s
  · exact (evolves_noteOutcome _ _ s).trans (evolves_orderOutcome _ _ _ _)
  · exact (evolves_noteOutcome _ _ s).trans (evolves_orderOutcome _ _ _ _)

theorem evolves_endExchange (x : Exchange) (j : Judged) (s : State) : Evolves s (endExchange x j s) := by
  have hgap : Evolves s { s with loop := { s.loop with
      exchange := some { x with phase := .gap (gapAfter (judgedOutcome j)) } } } := .of_eq rfl rfl rfl
  unfold endExchange
  dsimp only
  refine Evolves.trans ?_ (evolves_settle _)
  split
  · exact hgap
  · exact hgap.trans (evolves_exchangeResult x j _)

/-! ## Ticks and moments -/

theorem evolves_doorTest (b : Bay) (s : State) : Evolves s (doorTest b s) := by
  unfold doorTest
  split
  · exact (evolves_modBay (.ofRange (fun _ h => h) rfl rfl rfl rfl)).trans (evolves_raiseAlert _ _ _)
  · exact .refl s

theorem evolves_momentEffect (m : Moment) (s : State) : Evolves s (momentEffect m s) := by
  cases m with
  | doorLimit b => exact evolves_doorTest b s
  | permitEnd b => exact evolves_doorTest b s
  | holdoffEnd b =>
    refine evolves_modBay (b := b) (g := fun r => { r with defrost := endHoldoff r.defrost })
      (.defrost (.inl rfl) (.inr (le_max_left _ _)) (.inl ?_) (le_max_left _ _))
    show (if (bayAt s b).defrost.holdoff = 1 then 0 else (bayAt s b).defrost.holdoff) ≤ _
    split <;> omega
  | timeout b =>
    show Evolves s (timeoutTest b s)
    unfold timeoutTest
    split
    · exact evolves_stopEpisode b _ s
    · exact .refl s

theorem evolves_takeMoment (m : Moment) (s : State) : Evolves s (takeMoment m s) := by
  rcases takeMoment_cases m s with ⟨-, h⟩ | ⟨-, h⟩ <;> rw [h]
  · exact (evolves_momentEffect m s).trans (.of_eq rfl rfl rfl)
  · exact .refl s

theorem evolves_takeMoments (ms : List Moment) (s : State) : Evolves s (takeMoments ms s) := by
  have hopen : Evolves s { s with moments := ms ++ s.moments } := .of_eq rfl rfl rfl
  exact hopen.trans (evolves_foldl (fun t m => evolves_takeMoment m t) ms _)

theorem evolves_startRound (s : State) : Evolves s (startRound s) := by
  unfold startRound
  dsimp only
  split
  · exact .of_eq (by rw [endRound_run]) (endRound_bays _) (by rw [endRound_arb])
  · exact .of_eq rfl rfl rfl

theorem evolves_advanceSecond (s : State) : Evolves s (advanceSecond s) := by
  unfold advanceSecond
  split
  · next h => exact .of_run rfl (fun k => ⟨by dsimp only; omega, k.2⟩) rfl rfl
  · exact .of_run rfl (fun k => ⟨Nat.zero_le _, k.2⟩) rfl rfl

theorem evolves_advanceMinute (s : State) : Evolves s (advanceMinute s) :=
  .of_run rfl (fun k => ⟨k.1, Nat.le_of_lt_succ (Nat.mod_lt _ (by decide))⟩) rfl rfl

theorem evolves_countOpenings (s : State) : Evolves s (countOpenings s) := by
  unfold countOpenings
  refine evolves_mapBays fun r => ?_
  split
  · exact .ofRange (fun _ ⟨h1, h2, h3, h4, h5, h6⟩ => ⟨h1, h2, h3, countOpen_range h4, h5, h6⟩) rfl rfl rfl rfl
  · exact .refl _ _

theorem lawful_minuteOfBay (g : Settings) (running : Bool) (r : BayRecord) : Lawful g r (minuteOfBay running r) := by
  refine .ofRange (fun _ ⟨h1, h2, h3, h4, h5, h6⟩ => ⟨?_, h2, ?_, h4, ?_, h6⟩) rfl rfl rfl rfl
  · obtain ⟨ha, hc, hd, he, hp⟩ := h1
    refine ⟨ha, hc, hd, ?_, (Nat.sub_le _ _).trans hp⟩
    show (r.departure.map (· - 1)).getD 0 ≤ 4095
    have hdep : r.departure.getD 0 ≤ 4095 := he
    cases hx : r.departure with
    | none => exact Nat.zero_le _
    | some n =>
      rw [hx] at hdep
      exact (Nat.sub_le n 1).trans hdep
  · obtain ⟨hv, hx, hw, hr, he, hn⟩ := h3
    show Safety.FuelInRange (if windowCounts running r then _ else _)
    split
    · exact ⟨hv, hx, Nat.min_le_right _ _, hr, he, hn⟩
    · exact ⟨hv, hx, hw, hr, he, hn⟩
  · obtain ⟨hd, he, hh, hc⟩ := h5
    refine ⟨hd, ?_, ?_, hc⟩
    · show (if r.defrost.state = .active then _ else _) ≤ 90
      split
      · exact Nat.min_le_right _ _
      · exact he
    · show (if r.defrost.holdoff = 1 then 1 else r.defrost.holdoff - 1) ≤ 240
      split <;> omega

theorem evolves_withFreeOrder {g : State → State} {s : State} (h : Evolves s (g s)) : Evolves s (withFreeOrder g s) := by
  rcases withFreeOrder_cases g s with k | ⟨q, -, k⟩ <;> rw [k]
  · exact h
  · exact h.trans (.of_eq rfl rfl rfl)

theorem withFreeOrder_bays (g : State → State) (s : State) : (withFreeOrder g s).bays = (g s).bays := by
  rcases withFreeOrder_cases g s with k | ⟨q, -, k⟩ <;> rw [k]
  rfl

theorem evolves_minuteTimeouts (s : State) : Evolves s (minuteTimeouts s) := by
  unfold minuteTimeouts
  split
  · exact (evolves_withFreeOrder (evolves_takeMoments _ s)).trans (evolves_serveLoop _)
  · exact .refl s

theorem evolves_withAlert (u : AlertUnit) (s : State) : Evolves s { s with alert := u } := .of_eq rfl rfl rfl

theorem evolves_countSilences (s : State) : Evolves s (countSilences s) := by
  unfold countSilences
  exact evolves_withAlert _ s

theorem evolves_takeMinute (s : State) : Evolves s (takeMinute s) := by
  have hcount : Evolves s (countMinutes (advanceMinute s)) :=
    (evolves_advanceMinute s).trans (evolves_mapBays fun r => lawful_minuteOfBay _ _ r)
  have hmoments : Evolves s (minuteTimeouts (minuteCounted s)) :=
    (hcount.trans (evolves_takeMoments (minuteEndings _) _)).trans (evolves_minuteTimeouts _)
  rw [takeMinute_eq]
  exact hmoments.trans (evolves_countSilences _)

theorem evolves_countRound (s : State) : Evolves s (countRound s) := by
  unfold countRound
  split
  · exact .refl s
  · split
    · exact (evolves_startRound s).trans (evolves_serveLoop _)
    · exact .of_eq rfl rfl rfl

theorem evolves_takeSecond (s : State) : Evolves s (takeSecond s) :=
  (((evolves_advanceSecond s).trans (evolves_countOpenings _)).trans (evolves_takeMoments _ _)).trans
    (evolves_countRound _)

/-! ## Requests -/

theorem evolves_departBay {b : Bay} {s : State} (h : enrolled (bayAt s b).occupancy = true) :
    Evolves s (departBay b s) := by
  have hdepart : Lawful s.run.settings (bayAt s b) { bayAt s b with occupancy := .departing } :=
    ⟨fun _ h => h, .inl ⟨rfl, h.symm⟩, fun _ h => h⟩
  have hstop : Evolves s (endBusiness b .depart (modBay b (fun r => { r with occupancy := .departing }) s)) :=
    (evolves_modBay hdepart).trans (evolves_endBusiness b _ _)
  unfold departBay
  cases (bayAt s b).defrost.state with
  | idle => exact evolves_becomeVacant b s
  | hung => exact evolves_departHung b s
  | _ => exact hstop

theorem storedCapacity_range (v : Nat) : (storedCapacity v).1 = 0 ∨ 20 ≤ (storedCapacity v).1 ∧ (storedCapacity v).1 ≤ 600 := by
  unfold storedCapacity clampWithin
  split
  · exact .inl rfl
  · right
    split
    · decide
    · split
      · dsimp only; omega
      · decide

theorem clampWithin_range {lo hi : Nat} (h : lo ≤ hi) (v : Nat) :
    lo ≤ (clampWithin lo hi v).1 ∧ (clampWithin lo hi v).1 ≤ hi := by
  unfold clampWithin
  split
  · exact ⟨le_rfl, h⟩
  · split
    · dsimp only; omega
    · exact ⟨h, le_rfl⟩

theorem evolves_storeBayData (b : Bay) (capacity : Nat) (f : Option FeederIx) (draw : Nat) (s : State) :
    Evolves s (storeBayData b capacity f draw s).2 := by
  have hrecord : Evolves s (modBay b (fun r =>
      { r with capacity := (storedCapacity capacity).1, feeder := f, draw := (storedDraw draw).1 }) s) :=
    evolves_modBay (.ofRange (fun _ ⟨⟨ha, _, _, hd, hp⟩, h⟩ =>
      ⟨⟨ha, storedCapacity_range capacity, clampWithin_range (by decide) draw, hd, hp⟩, h⟩) rfl rfl rfl rfl)
  unfold storeBayData
  dsimp only
  split
  · exact (hrecord.trans (evolves_owePass _)).trans (evolves_settle _)
  · exact hrecord

theorem lawful_markOn (g : Settings) (st : Station) (m : Mark) (r : BayRecord) : Lawful g r (markOn st m r) := by
  cases m <;> exact .ofRange (fun _ h => h) rfl rfl rfl rfl

theorem lawful_markOff (g : Settings) (m : Mark) (r : BayRecord) : Lawful g r (markOff m r) := by
  cases m <;> exact .ofRange (fun _ h => h) rfl rfl rfl rfl

theorem evolves_setMark (st : Station) (b : Bay) (m : Mark) (s : State) : Evolves s (setMark st b m s) := by
  have hmark : Evolves s (modBay b (markOn st m) s) := evolves_modBay (lawful_markOn _ st m _)
  unfold setMark
  dsimp only
  split
  · exact hmark
  · cases m with
    | hold => exact (hmark.trans (evolves_endBusiness b _ _)).trans (evolves_settle _)
    | _ => exact hmark

theorem evolves_clearMark (b : Bay) (m : Mark) (s : State) : Evolves s (clearMark b m s) := by
  have hmark : Evolves s (modBay b (markOff m) s) := evolves_modBay (lawful_markOff _ m _)
  unfold clearMark
  dsimp only
  split
  · cases m with
    | noDiesel => exact (hmark.trans (evolves_owePass _)).trans (evolves_settle _)
    | _ => exact hmark
  · exact hmark

theorem evolves_storePermit (b : Bay) (minutes : Nat) (s : State) : Evolves s (storePermit b minutes s).2 := by
  have hpermit : Evolves s (modBay b (fun r => { r with permit := (clampAbove 480 minutes).1 }) s) := by
    refine evolves_modBay (.ofRange (fun _ ⟨⟨ha, hc, hd, he, _⟩, h⟩ => ⟨⟨ha, hc, hd, he, ?_⟩, h⟩) rfl rfl rfl rfl)
    show (clampAbove 480 minutes).1 ≤ 480
    unfold clampAbove
    split
    · assumption
    · exact le_rfl
  unfold storePermit
  dsimp only
  split
  · exact hpermit.trans (evolves_takeMoments _ _)
  · exact hpermit

theorem evolves_setBudget (f : FeederIx) (v : Nat) (s : State) : Evolves s (setBudget f v s) :=
  evolves_setFeeder (le_max_right _ _)

theorem evolves_budgetChanged (f : FeederIx) (old : Nat) (s : State) : Evolves s (budgetChanged f old s) := by
  unfold budgetChanged
  dsimp only
  split
  · exact evolves_owePass s
  · split
    · exact evolves_shedWalk f s
    · exact .refl s

theorem evolves_changeBudgets (v : FeederIx → Nat) (s : State) : Evolves s (changeBudgets v s) := by
  unfold changeBudgets
  have hstored := evolves_foldl (fun t f => evolves_setBudget f (storedBudget (v f)).1 t) allFeeders s
  exact hstored.trans (evolves_foldl (fun t f => evolves_budgetChanged f (feederAt s f).budget t) allFeeders _)

theorem lawful_clearSticky (g : Settings) (r : BayRecord) : Lawful g r (clearSticky r) :=
  .ofRange (fun _ h => h) rfl rfl rfl rfl

theorem evolves_forBays {g : Bay → State → State} (h : ∀ b s, Evolves s (g b s)) (s : State) : Evolves s (forBays g s) :=
  evolves_foldl (fun t b => h b t) allBays s

theorem evolves_haltRunning (s : State) : Evolves s (haltRunning s) := by
  have hstop : Evolves s (stopSchedule (setRunState .halting s)) := .of_run rfl id rfl rfl
  have hbays := evolves_forBays (fun b t => evolves_endBusiness b .halt t) (stopSchedule (setRunState .halting s))
  exact (hstop.trans (evolves_withFreeOrder hbays)).trans (evolves_settle _)

/-! ## A changed loss limit (R35) -/

theorem evolves_limitBay (b : Bay) (s : State) : Evolves s (limitBay s.run.settings.lossLimit b s) := by
  have hcount : Lawful s.run.settings (bayAt s b)
      { bayAt s b with missCount := s.run.settings.lossLimit, link := .lost } :=
    ⟨fun _ h => h, .inl ⟨rfl, rfl⟩, fun _ _ => ⟨le_rfl, ⟨fun _ => rfl, fun _ => rfl⟩⟩⟩
  have hlost (h : (bayAt s b).link = .lost) : Lawful s.run.settings (bayAt s b)
      { bayAt s b with missCount := s.run.settings.lossLimit } :=
    ⟨fun _ h => h, .inl ⟨rfl, rfl⟩, fun _ _ => ⟨le_rfl, ⟨fun _ => rfl, fun _ => h⟩⟩⟩
  unfold limitBay
  dsimp only
  split
  · next h => exact evolves_modBay (hlost h)
  · split
    · exact (evolves_modBay hcount).trans (evolves_becomeLost b _)
    · exact .refl s

/-- A bay taken under a new loss limit has its miss count in step with it, whatever it was before (R35). -/
theorem limitBay_missOk (b : Bay) {s : State} (hl : 2 ≤ s.run.settings.lossLimit) :
    MissOk s.run.settings.lossLimit (bayAt (limitBay s.run.settings.lossLimit b s) b) := by
  unfold limitBay
  dsimp only
  split
  · next h =>
    rw [bayAt_modBay_same]
    exact ⟨le_rfl, fun _ => rfl, fun _ => h⟩
  · next h =>
    split
    · have hlost := (evolves_becomeLost b (modBay b (fun r =>
        { r with missCount := s.run.settings.lossLimit, link := .lost }) s)).records b
      refine hlost.miss hl ?_
      rw [bayAt_modBay_same]
      exact ⟨le_rfl, fun _ => rfl, fun _ => rfl⟩
    · next hc =>
      exact ⟨by omega, fun k => absurd k h, fun k => absurd k.ge hc⟩

/-- All bays taken under a new loss limit in turn. -/
theorem limitBays_missOk {limit : Nat} (hl : 2 ≤ limit) (l : List Bay) {s : State} (hs : s.run.settings.lossLimit = limit)
    {c : Bay} (hc : c ∈ l ∨ MissOk limit (bayAt s c)) :
    MissOk limit (bayAt (l.foldl (fun t b => limitBay limit b t) s) c) := by
  induction l generalizing s with
  | nil => exact hc.resolve_left (List.not_mem_nil)
  | cons b l ih =>
    subst hs
    have hev := evolves_limitBay b s
    have hlimit : (limitBay s.run.settings.lossLimit b s).run.settings.lossLimit = s.run.settings.lossLimit := by
      rw [hev.settings]
    refine ih hlimit ?_
    rcases hc with hc | hc
    · rcases List.mem_cons.mp hc with rfl | hc
      · exact .inr (limitBay_missOk _ hl)
      · exact .inl hc
    · exact .inr ((hev.records c).miss hl hc)

theorem evolves_limitBays {limit : Nat} (l : List Bay) {s : State} (hs : s.run.settings.lossLimit = limit) :
    Evolves s (l.foldl (fun t b => limitBay limit b t) s) := by
  induction l generalizing s with
  | nil => exact .refl s
  | cons b l ih =>
    subst hs
    have hev := evolves_limitBay b s
    exact hev.trans (ih (by rw [hev.settings]))

theorem evolves_limitAll (s : State) :
    Evolves s (withFreeOrder (forBays (limitBay s.run.settings.lossLimit)) s) := by
  have hbays : Evolves s (forBays (limitBay s.run.settings.lossLimit) s) := evolves_limitBays allBays rfl
  exact evolves_withFreeOrder hbays

theorem evolves_applyLossLimit (s : State) : Evolves s (applyLossLimit s) :=
  (evolves_limitAll s).trans (evolves_settle _)

theorem mem_allBays (b : Bay) : b ∈ allBays := List.mem_finRange b

/-- After a changed loss limit every miss count is in step with it (R35). -/
theorem applyLossLimit_missOk {s : State} (hl : 2 ≤ s.run.settings.lossLimit) (b : Bay) :
    MissOk s.run.settings.lossLimit (bayAt (applyLossLimit s) b) := by
  have hsettle := (evolves_settle (withFreeOrder (forBays (limitBay s.run.settings.lossLimit)) s)).records b
  rw [(evolves_limitAll s).settings] at hsettle
  refine hsettle.miss hl ?_
  rw [bayAt_congr (withFreeOrder_bays _ s)]
  exact limitBays_missOk hl allBays rfl (.inl (mem_allBays b))

/-! ## The laws kept -/

/-- Idents of 8 characters and bounded shed stacks (R5, R142). -/
def Fitting (s : State) : Prop := (∀ b, ∀ i ∈ (bayAt s b).ident, i.length = 8) ∧ Safety.StacksBounded s

/-- A change that keeps the laws of the records. -/
structure KeepsRecordLaws (s t : State) : Prop where
  ranges : Safety.RangesLaw s → Safety.RangesLaw t
  idents : Safety.IdentLaw s → Safety.IdentLaw t
  misses : Safety.MissLaw s → Safety.MissLaw t
  fitting : Fitting s → Fitting t

theorem KeepsRecordLaws.trans {s t u : State} (h : KeepsRecordLaws s t) (k : KeepsRecordLaws t u) : KeepsRecordLaws s u :=
  ⟨k.ranges ∘ h.ranges, k.idents ∘ h.idents, k.misses ∘ h.misses, k.fitting ∘ h.fitting⟩

theorem Lawful.ident_of_some {g : Settings} {r r' : BayRecord} (h : Lawful g r r') {i : List Byte}
    (hi : r'.ident = some i) : r.ident = some i := by
  rcases h.ident with ⟨k, -⟩ | ⟨k, -⟩
  · exact k.symm.trans hi
  · exact nomatch k.symm.trans hi

/-- Records that change lawfully one by one keep the idents' law. -/
theorem identLaw_of_lawful {g : Settings} {s t : State} (h : ∀ c, Lawful g (bayAt s c) (bayAt t c))
    (hs : Safety.IdentLaw s) : Safety.IdentLaw t := by
  obtain ⟨hheld, huniq⟩ := hs
  refine ⟨fun b => ?_, fun b c hb hbc => ?_⟩
  · rcases (h b).ident with ⟨ki, ke⟩ | ⟨ki, ke⟩
    · rw [ki, ke, hheld]
    · rw [ki, ke]
      rfl
  · obtain ⟨i, hi⟩ := Option.isSome_iff_exists.mp hb
    have hsb := (h b).ident_of_some hi
    have hsc := (h c).ident_of_some (hbc.symm.trans hi)
    exact huniq b c (by rw [hsb]; rfl) (hsb.trans hsc.symm)

theorem fitting_of_lawful {g : Settings} {s t : State} (h : ∀ c, Lawful g (bayAt s c) (bayAt t c))
    (hf : ∀ f, (feederAt t f).stack.length ≤ max 8 (feederAt s f).stack.length) (hs : Fitting s) : Fitting t := by
  refine ⟨fun b i hi => hs.1 b i ((h b).ident_of_some hi), fun f => ?_⟩
  have h1 := hs.2 f
  have h2 := hf f
  omega

theorem Evolves.keeps {s t : State} (h : Evolves s t) : KeepsRecordLaws s t := by
  refine ⟨fun ⟨hg, hk, hr⟩ => ⟨by rw [h.settings]; exact hg, h.clock hk, fun b => (h.records b).range hg (hr b)⟩,
    identLaw_of_lawful h.records, fun ⟨hl, hm⟩ => ⟨by rw [h.settings]; exact hl, fun b => ?_⟩,
    fitting_of_lawful h.records h.depth⟩
  have hok : MissOk s.run.settings.lossLimit (bayAt t b) := (h.records b).miss hl (hm b)
  rw [← h.settings] at hok
  exact hok

/-- The enrolment of a trailer under an ident that no other bay holds (R4, R5). -/
theorem arrived_keeps {s : State} {b : Bay} {i : List Byte} {capacity departure : Option Nat} (hi : identOk i = true)
    (hu : identHeldElsewhere s b i = false) :
    KeepsRecordLaws s (modBay b (arrivedRecord i s.run.yardMinute capacity departure) s) := by
  have hlen : i.length = 8 := (identOk_iff i).mp hi |>.1
  have hfree (c : Bay) (hc : c ≠ b) (hs : Safety.IdentLaw s) : (bayAt s c).ident ≠ some i := by
    intro h
    have hnot : (bayAt s c).occupancy ≠ .vacant := by
      intro hv
      have := hs.1 c
      rw [h, hv] at this
      cases this
    have hheld : identHeldElsewhere s b i = true :=
      List.any_eq_true.mpr ⟨c, mem_allBays c, by simp [hc, hnot, h]⟩
    rw [hu] at hheld
    cases hheld
  refine ⟨fun ⟨hg, hk, hr⟩ => ⟨hg, hk, fun c => ?_⟩, fun hs => ⟨fun c => ?_, fun c d hc hcd => ?_⟩,
    fun ⟨hl, hm⟩ => ⟨hl, fun c => ?_⟩, fun hs => ⟨fun c j hj => ?_, hs.2⟩⟩
  · rw [bayAt_modBay]
    split
    · obtain ⟨⟨-, hcap, hd, -, hp⟩, hrest⟩ := hr b
      refine ⟨⟨hk.2, ?_, hd, ?_, hp⟩, hrest⟩
      · cases capacity with
        | none => exact hcap
        | some v => exact storedCapacity_range v
      · cases departure with
        | none => exact Nat.zero_le _
        | some v => exact storedDeparture_le v
    · exact hr c
  · rw [bayAt_modBay]
    split
    · rfl
    · exact hs.1 c
  · rw [bayAt_modBay] at hc hcd
    rw [bayAt_modBay] at hcd
    by_cases hcb : c = b
    · by_cases hdb : d = b
      · exact hcb.trans hdb.symm
      · rw [if_pos hcb, if_neg hdb] at hcd
        exact absurd hcd.symm (hfree d hdb hs)
    · rw [if_neg hcb] at hc hcd
      by_cases hdb : d = b
      · rw [if_pos hdb] at hcd
        exact absurd hcd (hfree c hcb hs)
      · rw [if_neg hdb] at hcd
        exact hs.2 c d hc hcd
  · rw [bayAt_modBay]
    split
    · exact hm b
    · exact hm c
  · rw [bayAt_modBay] at hj
    split at hj
    · obtain rfl : i = j := Option.some.inj hj
      exact hlen
    · exact hs.1 c j hj

/-! ### Settings -/

theorem storeSetting_range {id v : Nat} {g g' : Settings} {clamped : Bool} (h : storeSetting id v g = some (g', clamped))
    (hg : Safety.SettingsInRange g) : Safety.SettingsInRange g' := by
  obtain ⟨h1, h2, h3, h4, h5, h6, h7, h8, h9, h10, h11, h12, h13⟩ := hg
  have hin {lo hi : Nat} (hle : lo ≤ hi) := clampWithin_range hle v
  unfold storeSetting at h
  split at h
  · next lo hi hr =>
    cases h
    unfold settingRange at hr
    split at hr <;> cases hr
    · exact ⟨hin (by decide), h2, h3, h4, h5, h6, h7, h8, h9, h10, h11, h12, h13⟩
    · exact ⟨h1, hin (by decide), h3, h4, h5, h6, h7, h8, h9, h10, h11, h12, h13⟩
    · exact ⟨h1, h2, hin (by decide), h4, h5, h6, h7, h8, h9, h10, h11, h12, h13⟩
    · exact ⟨h1, h2, h3, (hin (by decide)).2, h5, h6, h7, h8, h9, h10, h11, h12, h13⟩
    · exact ⟨h1, h2, h3, h4, (hin (by decide)).2, h6, h7, h8, h9, h10, h11, h12, h13⟩
    · exact ⟨h1, h2, h3, h4, h5, (hin (by decide)).2, h7, h8, h9, h10, h11, h12, h13⟩
    · exact ⟨h1, h2, h3, h4, h5, h6, (hin (by decide)).2, h8, h9, h10, h11, h12, h13⟩
    · exact ⟨h1, h2, h3, h4, h5, h6, h7, hin (by decide), h9, h10, h11, h12, h13⟩
    · exact ⟨h1, h2, h3, h4, h5, h6, h7, h8, hin (by decide), h10, h11, h12, h13⟩
    · exact ⟨h1, h2, h3, h4, h5, h6, h7, h8, h9, (hin (by decide)).2, h11, h12, h13⟩
    · exact ⟨h1, h2, h3, h4, h5, h6, h7, h8, h9, h10, hin (by decide), h12, h13⟩
    · exact ⟨h1, h2, h3, h4, h5, h6, h7, h8, h9, h10, h11, (hin (by decide)).2, h13⟩
    · exact ⟨h1, h2, h3, h4, h5, h6, h7, h8, h9, h10, h11, h12, (hin (by decide)).2⟩
  · split at h
    · cases h
      exact ⟨h1, h2, h3, h4, h5, h6, h7, h8, h9, h10, h11, h12, h13⟩
    · split at h
      · cases h
        exact ⟨h1, h2, h3, h4, h5, h6, h7, h8, h9, h10, h11, h12, h13⟩
      · cases h

theorem storeSetting_lossLimit {id v : Nat} {g g' : Settings} {clamped : Bool}
    (h : storeSetting id v g = some (g', clamped)) (hl : 2 ≤ g.lossLimit) : 2 ≤ g'.lossLimit := by
  unfold storeSetting at h
  split at h
  · next lo hi hr =>
    cases h
    by_cases hid : id = 2
    · subst hid
      cases hr
      exact (clampWithin_range (by decide) v).1
    · rw [writeNumber_lossLimit hid]
      exact hl
  · split at h
    · cases h
      exact hl
    · split at h
      · cases h
        exact hl
      · cases h

/-- A setting stored, with the effects of its change (R32, R34, R35). -/
theorem setting_keeps {id v : Nat} {s : State} {g : Settings} {clamped : Bool}
    (h : storeSetting id v s.run.settings = some (g, clamped)) :
    KeepsRecordLaws s (settingChanged s.run.settings (withSettings g s)) := by
  have hstored (u : State) (hu : Evolves (withSettings g s) u) (hm : 2 ≤ g.lossLimit →
      (∀ b, MissOk s.run.settings.lossLimit (bayAt s b)) → ∀ b, MissOk g.lossLimit (bayAt u b)) :
      KeepsRecordLaws s u := by
    refine ⟨fun ⟨hg, hk, hr⟩ => hu.keeps.ranges ⟨storeSetting_range h hg, hk, hr⟩, identLaw_of_lawful hu.records,
      fun ⟨hl, hs⟩ => ?_, fitting_of_lawful hu.records hu.depth⟩
    have hl' := storeSetting_lossLimit h hl
    have hlimit : u.run.settings.lossLimit = g.lossLimit := by rw [hu.settings]; rfl
    rw [Safety.MissLaw, hlimit]
    exact ⟨hl', hm hl' hs⟩
  unfold settingChanged
  split
  · exact hstored _ (evolves_applyLossLimit _) fun hl _ => applyLossLimit_missOk (s := withSettings g s) hl
  · next hlim =>
    have hlim : s.run.settings.lossLimit = g.lossLimit := not_not.mp hlim
    have hsame (u : State) (hu : Evolves (withSettings g s) u) : KeepsRecordLaws s u :=
      hstored u hu fun hl hs b => (hu.records b).miss hl (hlim ▸ hs b)
    split
    · exact hsame _ (evolves_withAlert _ _)
    · exact hsame _ (.refl _)

/-! ### Commands -/

theorem AnswerEffect.keepsRecordLaws {st : Station} {s t : State} (h : AnswerEffect st s t) : KeepsRecordLaws s t := by
  cases h with
  | same => exact (Evolves.refl s).keeps
  | arrive b i capacity departure hi hv hu => exact (arrived_keeps hi hu).trans (evolves_serveLoop _).keeps
  | depart b ho =>
    have henrolled : enrolled (bayAt s b).occupancy = true := by rcases ho with h | h <;> rw [h] <;> rfl
    exact ((evolves_departBay henrolled).trans (evolves_settle _)).keeps
  | departure b d hd ho =>
    exact (evolves_modBay (.ofRange (fun _ ⟨⟨ha, hc, hw, _, hp⟩, h⟩ => ⟨⟨ha, hc, hw, hd, hp⟩, h⟩) rfl rfl rfl rfl)).keeps
  | bayData b capacity f draw => exact (evolves_storeBayData b capacity f draw s).keeps
  | close b ho =>
    exact (evolves_modBay ⟨fun _ h => h, .inl ⟨rfl, by rw [ho]; rfl⟩, fun _ h => h⟩).keeps
  | opened b ho => exact (evolves_emptyRecord b s).keeps
  | mark b m ho => exact (evolves_setMark st b m s).keeps
  | unmark b m ho => exact (evolves_clearMark b m s).keeps
  | defrostNow b h => exact ((evolves_joinQueue b _ s).trans (evolves_settle _)).keeps
  | withdraw b h => exact ((evolves_endBusiness b _ s).trans (evolves_settle _)).keeps
  | budget f v =>
    exact (((evolves_setBudget f _ s).trans (evolves_budgetChanged f _ _)).trans (evolves_settle _)).keeps
  | budgets v => exact ((evolves_changeBudgets v s).trans (evolves_settle _)).keeps
  | release b h => exact ((evolves_endEpisode b _ s).trans (evolves_settle _)).keeps
  | permit b minutes ho => exact (evolves_storePermit b minutes s).keeps
  | clearFlags b => exact (evolves_modBay (lawful_clearSticky _ _)).keeps
  | clearAllFlags => exact (evolves_mapBays (lawful_clearSticky _)).keeps
  | feederFlags f =>
    exact (evolves_setFeeder (r := { feederAt s f with nearFull := false, overflow := false }) (le_max_right _ _)).keeps
  | takeAlert => exact (evolves_withAlert _ s).keeps
  | releaseAlert c u h => exact (evolves_withAlert _ s).keeps
  | alertMask mask => exact (evolves_withAlert _ s).keeps
  | begin h =>
    have hrun : Evolves s (setRunState .running s) := .of_run rfl id rfl rfl
    exact ((hrun.trans (evolves_startRound _)).trans (evolves_serveLoop _)).keeps
  | halt h => exact (evolves_haltRunning s).keeps
  | setting id v g clamped h => exact setting_keeps h

theorem evolves_receiveRequest (st : Station) (s : State) : Evolves s (receiveRequest st s) := .of_eq rfl rfl rfl
theorem evolves_writeReply (st : Station) (r : Reply) (s : State) : Evolves s (writeReply st r s) := .of_eq rfl rfl rfl

/-- Every command keeps the laws of the records (R2, R5, R31, R35, R142). -/
theorem CommandEffect.keepsRecordLaws {s t : State} (h : CommandEffect s t) : KeepsRecordLaws s t := by
  cases h with
  | same => exact (Evolves.refl s).keeps
  | reset high =>
    obtain ⟨hr, hi, hm, -, -, -, -, ⟨hb, hst, -⟩, -⟩ := Proofs.lawsHoldAtReset
    exact ⟨fun _ => hr, fun _ => hi, fun _ => hm, fun _ => ⟨hb, hst⟩⟩
  | request st r t ha _ =>
    exact ((evolves_receiveRequest st s).keeps.trans ha.keepsRecordLaws).trans (evolves_writeReply st r t).keeps
  | second => exact (evolves_takeSecond s).keeps
  | minuteThenSecond => exact ((evolves_takeMinute s).trans (evolves_takeSecond _)).keeps
  | minute => exact (evolves_takeMinute s).keeps
  | moment m => exact (evolves_takeMoment m s).keeps
  | timeout b => exact ((evolves_takeMoment _ s).trans (evolves_serveLoop _)).keeps
  | silence o => exact (evolves_withAlert _ s).keeps
  | round => exact ((evolves_startRound s).trans (evolves_serveLoop _)).keeps
  | gapEnd b k ms v h =>
    have hfree : Evolves s { s with loop := { s.loop with exchange := none } } := .of_eq rfl rfl rfl
    exact ((hfree.trans (evolves_serveLoop _)).trans (evolves_haltTest _)).keeps
  | windowOpen b k v h =>
    exact (Evolves.of_eq (s := s) (t := { s with loop :=
      { s.loop with exchange := some ⟨b, k, .awaiting, v⟩, lde := false, ltx := [] } }) rfl rfl rfl).keeps
  | ended x j h hp => exact (evolves_endExchange x j s).keeps
  | halted => exact (evolves_haltTest s).keeps
  | general t ha hg => exact ha.keepsRecordLaws

/-! ### Reply buffers -/

theorem length_flatMap_const {α : Type} {g : α → List Byte} {n : Nat} (h : ∀ a, (g a).length = n) (l : List α) :
    (l.flatMap g).length = n * l.length := by
  induction l with
  | nil => rfl
  | cons a l ih => rw [List.flatMap_cons, List.length_append, ih, h, List.length_cons, Nat.mul_succ, Nat.add_comm]

theorem applyMark_fits (op : MarkOp) (st : Station) (b : Bay) (m : Mark) (s : State) :
    (applyMark op st b m s).1.data.length ≤ 62 := by
  unfold applyMark
  dsimp only
  split
  · exact Nat.zero_le _
  · exact Nat.le_of_ble_eq_true rfl
  · split <;> exact Nat.zero_le _
  · split
    · exact Nat.zero_le _
    · exact Nat.le_of_ble_eq_true rfl

/-- Every owning block's reply fits the reply buffer (R166). -/
theorem answerTo_fits {s : State} (hs : Fitting s) (op : MarkOp) (st : Station) (args : List Byte) (k : RequestKind) :
    (answerTo op st args k s).1.data.length ≤ 62 := by
  have hbay {x : Byte} {g : Bay → State → Reply × State} (h : ∀ b, (g b s).1.data.length ≤ 62) :
      (withBay x g s).1.data.length ≤ 62 := by
    rcases withBay_cases x g s with ⟨b, -, e⟩ | e <;> rw [e]
    · exact h b
    · exact Nat.zero_le _
  have hfeeder {x : Byte} {g : FeederIx → State → Reply × State} (h : ∀ f, (g f s).1.data.length ≤ 62) :
      (withFeeder x g s).1.data.length ≤ 62 := by
    rcases withFeeder_cases x g s with ⟨f, e⟩ | e <;> rw [e]
    · exact h f
    · exact Nat.zero_le _
  have hview (v : View) (b : Bay) : (bayView v b (bayAt s b)).length ≤ 62 := by
    rw [bayView_eq, length_viewBytes b (fun i hi => hs.1 b i hi)]
    cases v <;> decide
  have hentries (s : State) (e : ShedEntry) : (shedEntryBytes s e).length = 3 := rfl
  cases k <;> dsimp only [answerTo]
  case readBay =>
    unfold readBayOwner
    split
    · refine hbay fun b => ?_
      split
      · exact hview _ b
      · exact Nat.zero_le _
    · exact Nat.zero_le _
  case readFeeder =>
    unfold readFeederOwner
    split
    · refine hfeeder fun f => ?_
      have hstack := hs.2 f
      have hlen : (answer (feederView s f) s).1.data.length = 7 + 3 * (feederAt s f).stack.length := by
        show (feederView s f).length = _
        unfold feederView
        dsimp only
        rw [List.length_append, length_flatMap_const (hentries s), List.length_reverse]
        rfl
      omega
    · exact Nat.zero_le _
  case readQueue =>
    unfold readQueueOwner
    split
    · next x =>
      split
      · have hlen : (queueView s x.toNat).length = 2 + 5 * ((s.arb.queue.drop (x.toNat - 1)).take 12).length := by
          unfold queueView
          rw [List.length_append, length_flatMap_const (n := 5) fun _ => rfl]
          rfl
        have htake := List.length_take_le 12 (s.arb.queue.drop (x.toNat - 1))
        show (queueView s x.toNat).length ≤ 62
        omega
      · exact Nat.zero_le _
    · exact Nat.zero_le _
  case readActive =>
    unfold readActiveOwner
    split
    · next x =>
      split
      · have hlen : (activeView s x.toNat).length = 2 + 6 * ((s.arb.active.drop (x.toNat - 1)).take 10).length := by
          unfold activeView
          rw [List.length_append, length_flatMap_const (n := 6) fun _ => rfl]
          rfl
        have htake := List.length_take_le 10 (s.arb.active.drop (x.toNat - 1))
        show (activeView s x.toNat).length ≤ 62
        omega
      · exact Nat.zero_le _
    · exact Nat.zero_le _
  case takeAlert =>
    show (takenView _).length ≤ 62
    unfold takenView
    split <;> simp [elementBytes]
  case readYard => exact Nat.le_of_ble_eq_true rfl
  case readSetting =>
    unfold readSettingOwner
    split
    · split
      · exact Nat.le_of_ble_eq_true rfl
      · exact Nat.zero_le _
    · exact Nat.zero_le _
  case mark =>
    unfold markOwner
    split
    · refine hbay fun b => ?_
      split
      · split
        · exact Nat.zero_le _
        · split
          · exact Nat.zero_le _
          · exact applyMark_fits op st b _ s
      · exact Nat.zero_le _
    · exact Nat.zero_le _
  case arrive =>
    unfold arriveOwner
    split
    · refine hbay fun b => ?_
      repeat' split
      all_goals exact Nat.zero_le _
    · exact Nat.zero_le _
  case depart | closeBay | openBay | defrostNow | withdraw | forceRelease | doorPermit | setBayData =>
    simp only [departOwner, closeBayOwner, openBayOwner, defrostNowOwner, withdrawOwner, forceReleaseOwner, doorPermitOwner,
      setBayDataOwner]
    split
    · refine hbay fun b => ?_
      split <;> exact Nat.zero_le _
    · exact Nat.zero_le _
  case setDeparture =>
    unfold setDepartureOwner
    split
    · refine hbay fun b => ?_
      repeat' split
      all_goals exact Nat.zero_le _
    · exact Nat.zero_le _
  case feederBudgetSingle | clearFlagsFeeder =>
    simp only [feederBudgetSingleOwner, clearFlagsFeederOwner]
    split
    · exact hfeeder fun f => Nat.zero_le _
    · exact Nat.zero_le _
  case clearFlagsBay =>
    unfold clearFlagsBayOwner
    split
    · split
      · exact Nat.zero_le _
      · exact hbay fun b => Nat.zero_le _
    · exact Nat.zero_le _
  case feederBudgetAll | beginRounds | haltRounds =>
    simp only [feederBudgetAllOwner, feederBudgets, beginRoundsOwner, haltRoundsOwner]
    split <;> exact Nat.zero_le _
  case releaseAlert =>
    unfold releaseAlertOwner
    repeat' split
    all_goals exact Nat.zero_le _
  case alertMask =>
    unfold alertMaskOwner
    repeat' split
    all_goals exact Nat.zero_le _
  case setSetting =>
    unfold setSettingOwner
    repeat' split
    all_goals exact Nat.zero_le _

theorem isReply_fits {st : Station} {s : State} (hs : Fitting s) {r : Reply} (h : IsReply st s r) : r.data.length ≤ 62 := by
  rcases h with h | ⟨op, args, k, rfl⟩
  · rw [h]
    exact Nat.zero_le _
  · exact answerTo_fits ((evolves_receiveRequest st s).keeps.fitting hs) op st args k

theorem heldReply_fits {r : Reply} (h : r.data.length ≤ 62) : (heldReply r).data.length ≤ 62 := by
  unfold heldReply
  split
  · exact h
  · exact Nat.zero_le _

/-- Each reply buffer holds at most 62 data bytes after a command (R166). -/
theorem CommandEffect.repliesFit {s t : State} (h : CommandEffect s t) (hs : Fitting s)
    (hr : ∀ st, (slotAt s st).reply.data.length ≤ 62) (st : Station) : (slotAt t st).reply.data.length ≤ 62 := by
  have hport (e : t.port = s.port) : (slotAt t st).reply.data.length ≤ 62 := by rw [slotAt_congr e]; exact hr st
  cases h with
  | same => exact hr st
  | reset high => cases st <;> exact Nat.zero_le _
  | request o r t h hreply =>
    rw [slotAt_request h]
    split
    · exact heldReply_fits (isReply_fits hs hreply)
    · exact hr st
  | second => exact hport (takeSecond_outside s).port
  | minuteThenSecond => exact hport ((takeMinute_outside s).trans (takeSecond_outside _)).port
  | minute => exact hport (takeMinute_outside s).port
  | moment m => exact hport (takeMoment_keeps m s).port
  | timeout b => exact hport ((serveLoop_port _).trans (takeMoment_keeps _ s).port)
  | silence o => exact hr st
  | round => exact hport ((startRound_keeps s).trans (serveLoop_keeps _)).port
  | gapEnd b k ms v h =>
    exact hport ((haltTest_keeps _).port.trans (serveLoop_port { s with loop := { s.loop with exchange := none } }))
  | windowOpen b k v h => exact hr st
  | ended x j h hp => exact hport (endExchange_keeps x j s).port
  | halted => exact hport (haltTest_keeps s).port
  | general t ha hg => exact hport ha.keepsPort.port

end Sys2Proof.Machine

namespace Sys2Proof.Proofs

open Sys2Proof.Machine Sys2Proof.Claims

/-- Settles O58: every command is one of the changes of `CommandEffect`, each of which keeps the records' laws. -/
theorem stepKeepsRecordLaws : Obligations.StepKeepsRecordLaws := by
  refine ⟨fun s t hs h => ?_, fun s t hi hm h => ?_, fun s t ⟨hb, hst, hr⟩ h => ?_⟩
  · exact step_of_effect (P := Safety.RangesLaw) (fun _ _ h => h) (fun _ _ hs h => h.keepsRecordLaws.ranges hs) hs h
  · exact step_of_effect (P := fun s => Safety.IdentLaw s ∧ Safety.MissLaw s) (fun _ _ h => h)
      (fun _ _ ⟨hi, hm⟩ h => ⟨h.keepsRecordLaws.idents hi, h.keepsRecordLaws.misses hm⟩) ⟨hi, hm⟩ h
  · refine step_of_effect (P := BuffersFit) (fun _ _ h => h) (fun s t ⟨hb, hst, hr⟩ h => ?_) ⟨hb, hst, hr⟩ h
    obtain ⟨hb', hst'⟩ := h.keepsRecordLaws.fitting ⟨hb, hst⟩
    exact ⟨hb', hst', h.repliesFit ⟨hb, hst⟩ hr⟩

end Sys2Proof.Proofs
end

section
/-! What an operation leaves of a bay it is not about: its record, its places in the collections and its orders (`SameFor`);
and what the end of a change can still do to a bay (`Undisturbed`). -/

namespace Sys2Proof.Machine

open Sys2Proof.Claims

/-! ## A bay left alone -/

/-- A bay's record, its places in the arbiter's collections and its queued orders are those of before. -/
structure SameFor (c : Bay) (s t : State) : Prop where
  record : bayAt t c = bayAt s c
  queue : t.arb.queue.filter (fun q => decide (q.bay = c)) = s.arb.queue.filter (fun q => decide (q.bay = c))
  active : t.arb.active.filter (fun x => decide (x = c)) = s.arb.active.filter (fun x => decide (x = c))
  stack : ∀ f, (feederAt t f).stack.filter (fun e => decide (e.bay = c))
    = (feederAt s f).stack.filter (fun e => decide (e.bay = c))
  orders : t.loop.orders.filter (fun o => decide (o.bay = c)) = s.loop.orders.filter (fun o => decide (o.bay = c))

variable {b c : Bay} {s t u : State}

theorem SameFor.refl (c : Bay) (s : State) : SameFor c s s := ⟨rfl, rfl, rfl, fun _ => rfl, rfl⟩

theorem SameFor.trans (h : SameFor c s t) (k : SameFor c t u) : SameFor c s u :=
  ⟨k.record.trans h.record, k.queue.trans h.queue, k.active.trans h.active, fun f => (k.stack f).trans (h.stack f),
    k.orders.trans h.orders⟩

theorem SameFor.symm (h : SameFor c s t) : SameFor c t s :=
  ⟨h.record.symm, h.queue.symm, h.active.symm, fun f => (h.stack f).symm, h.orders.symm⟩

theorem SameFor.of_eq (hb : t.bays = s.bays) (ha : t.arb = s.arb) (ho : t.loop.orders = s.loop.orders) : SameFor c s t :=
  ⟨bayAt_congr hb c, by rw [ha], by rw [ha], fun f => by simp only [feederAt, ha], by rw [ho]⟩

/-- Two lists with the same entries outside b have the same entries of any other bay. -/
theorem filter_eq_of_filter_ne {α : Type} {key : α → Bay} {l l' : List α} (hcb : c ≠ b)
    (h : l'.filter (fun x => decide (key x ≠ b)) = l.filter (fun x => decide (key x ≠ b))) :
    l'.filter (fun x => decide (key x = c)) = l.filter (fun x => decide (key x = c)) := by
  have hc (l : List α) : (l.filter (fun x => decide (key x ≠ b))).filter (fun x => decide (key x = c))
      = l.filter (fun x => decide (key x = c)) := by
    rw [List.filter_filter]
    refine List.filter_congr fun x _ => ?_
    by_cases hx : key x = c
    · simp [hx, hcb]
    · simp [hx]
  rw [← hc l', h, hc]

theorem ActsOn.sameFor {K : Category → Prop} (h : ActsOn b K s t) (hcb : c ≠ b) : SameFor c s t :=
  ⟨h.records c hcb, filter_eq_of_filter_ne hcb h.queue, filter_eq_of_filter_ne (key := id) hcb h.active,
    fun f => filter_eq_of_filter_ne hcb (h.sheds f), filter_eq_of_filter_ne hcb h.orders⟩

theorem mem_congr_of_filter {α : Type} {key : α → Bay} {l l' : List α}
    (h : l'.filter (fun x => decide (key x = c)) = l.filter (fun x => decide (key x = c))) {x : α} (hx : key x = c) :
    x ∈ l' ↔ x ∈ l := by
  have hmem (l : List α) : x ∈ l.filter (fun x => decide (key x = c)) ↔ x ∈ l := by simp [List.mem_filter, hx]
  rw [← hmem l', h, hmem]

theorem SameFor.mem_queue (h : SameFor c s t) {q : QueueEntry} (hq : q.bay = c) : q ∈ t.arb.queue ↔ q ∈ s.arb.queue :=
  mem_congr_of_filter h.queue hq

theorem SameFor.mem_active (h : SameFor c s t) : c ∈ t.arb.active ↔ c ∈ s.arb.active :=
  mem_congr_of_filter (key := id) h.active rfl

theorem SameFor.mem_stack (h : SameFor c s t) (f : FeederIx) {e : ShedEntry} (he : e.bay = c) :
    e ∈ (feederAt t f).stack ↔ e ∈ (feederAt s f).stack := mem_congr_of_filter (h.stack f) he

theorem SameFor.mem_orders (h : SameFor c s t) {o : Order} (ho : o.bay = c) : o ∈ t.loop.orders ↔ o ∈ s.loop.orders :=
  mem_congr_of_filter h.orders ho

theorem SameFor.onAStack (h : SameFor c s t) : onAStack t c ↔ onAStack s c := by
  constructor
  · rintro ⟨f, e, he, hc⟩
    exact ⟨f, e, (h.mem_stack f hc).mp he, hc⟩
  · rintro ⟨f, e, he, hc⟩
    exact ⟨f, e, (h.mem_stack f hc).mpr he, hc⟩

theorem SameFor.waits (h : SameFor c s t) : (∀ q ∈ t.arb.queue, q.bay ≠ c) ↔ ∀ q ∈ s.arb.queue, q.bay ≠ c :=
  ⟨fun k q hq hc => k q ((h.mem_queue hc).mpr hq) hc, fun k q hq hc => k q ((h.mem_queue hc).mp hq) hc⟩

theorem SameFor.inNoCollection (h : SameFor c s t) : inNoCollection t c ↔ inNoCollection s c := by
  unfold Claims.inNoCollection
  rw [h.waits, h.mem_active, h.onAStack]

theorem SameFor.startWaits (h : SameFor c s t) : startWaits t c ↔ startWaits s c :=
  exists_congr fun _ => h.mem_orders rfl

theorem SameFor.noOrder (h : SameFor c s t) : noOrder t c ↔ noOrder s c :=
  ⟨fun k o ho hc => k o ((h.mem_orders hc).mpr ho) hc, fun k o ho hc => k o ((h.mem_orders hc).mp ho) hc⟩

/-! ## Who waits where -/

theorem onStack_iff (s : State) (b : Bay) : onStack s b = true ↔ onAStack s b := by
  unfold onStack stackEntry
  rw [List.find?_isSome]
  simp only [List.mem_flatMap, decide_eq_true_eq]
  constructor
  · rintro ⟨e, ⟨f, -, he⟩, hb⟩
    exact ⟨f, e, he, hb⟩
  · rintro ⟨f, e, he, hb⟩
    exact ⟨e, ⟨f, List.mem_finRange f, he⟩, hb⟩

theorem SameFor.onStack (h : SameFor c s t) : onStack t c = onStack s c := by
  rw [Bool.eq_iff_iff, onStack_iff, onStack_iff, h.onAStack]

theorem SameFor.startUnsent (h : SameFor c s t) : startUnsent t c = startUnsent s c := by
  rw [Bool.eq_iff_iff, startUnsent_iff, startUnsent_iff, h.startWaits]

/-! ## The grant pass on a bay that does not wait for it -/

theorem resumeTop_actsOn {f : FeederIx} {top : ShedEntry} {rest : List ShedEntry} (h : (feederAt s f).stack = top :: rest)
    (K : Category → Prop) : ActsOn top.bay K s (resumeTop f top.bay rest s) := by
  have hpop : ActsOn top.bay K s (setFeeder f { feederAt s f with stack := rest } s) :=
    setFeeder_actsOn top.bay K (by rw [h]; simp)
  exact ((hpop.trans (modDefrost_actsOn top.bay K
    (fun d => { d with state := .starting, reason := none, shedPending := false }) _)).trans
    (joinActive_actsOn top.bay K _)).trans (placeStart_actsOn top.bay K true _)

theorem grant_actsOn (x : Bay) (ch : Charge) (K : Category → Prop) (s : State) : ActsOn x K s (grant x ch s) := by
  have hdefrost := modDefrost_actsOn x K (fun d => { d with
    state := .starting, reason := none, charge := ch, draw := (bayAt s x).draw, shedPending := false, elapsed := 0 }) s
  exact (hdefrost.trans (joinActive_actsOn x K _)).trans (placeStart_actsOn x K false _)

theorem sameFor_resumeTop {f : FeederIx} {top : ShedEntry} {rest : List ShedEntry} (h : (feederAt s f).stack = top :: rest)
    (hc : top.bay ≠ c) : SameFor c s (resumeTop f top.bay rest s) :=
  (resumeTop_actsOn h fun _ => False).sameFor hc.symm

theorem sameFor_grant {x : Bay} (hc : x ≠ c) (ch : Charge) (s : State) : SameFor c s (grant x ch s) :=
  (grant_actsOn x ch (fun _ => False) s).sameFor hc.symm

/-- The pass resumes the bay on top of a stack only while it is SHED (R121). -/
theorem sameFor_resumeFeeder (f : FeederIx) (n : Nat) {s : State}
    (h : (bayAt s c).defrost.state ≠ .shed ∨ ¬ onAStack s c) : SameFor c s (resumeFeeder f n s) := by
  induction n generalizing s with
  | zero => exact .refl c s
  | succ n ih =>
    rcases resumeFeeder_succ f n s with e | ⟨top, rest, hs, hshed, -, e⟩ <;> rw [e]
    · exact .refl c s
    · have hc : top.bay ≠ c := by
        rintro rfl
        exact h.elim (absurd hshed) fun k => k ⟨f, top, by rw [hs]; exact List.mem_cons_self, rfl⟩
      have hstep := sameFor_resumeTop (c := c) hs hc
      refine hstep.trans (ih ?_)
      rw [hstep.record, hstep.onAStack]
      exact h

theorem sameFor_foldl {α : Type} {P : State → Prop} {g : State → α → State} (hP : ∀ {s t}, SameFor c s t → P s → P t)
    (h : ∀ s a, P s → SameFor c s (g s a)) (l : List α) {s : State} (hs : P s) : SameFor c s (l.foldl g s) := by
  induction l generalizing s with
  | nil => exact .refl c s
  | cons a l ih => exact (h s a hs).trans (ih (hP (h s a hs) hs))

theorem sameFor_resumeAll (h : (bayAt s c).defrost.state ≠ .shed ∨ ¬ onAStack s c) : SameFor c s (resumeAll s) :=
  sameFor_foldl (P := fun s => (bayAt s c).defrost.state ≠ .shed ∨ ¬ onAStack s c)
    (fun k hs => by rw [k.record, k.onAStack]; exact hs) (fun s f hs => sameFor_resumeFeeder f _ hs) allFeeders h

/-- The walk of the queue passes a bay that is not in it by. -/
theorem sameFor_walkQueue (l : List QueueEntry) (w : QueueWalk) (hl : ∀ q ∈ l, q.bay ≠ c) (hw : ∀ q ∈ w.kept, q.bay ≠ c) :
    SameFor c w.state (l.foldl walkEntry w).state ∧ ∀ q ∈ (l.foldl walkEntry w).kept, q.bay ≠ c := by
  induction l generalizing w with
  | nil => exact ⟨.refl c _, hw⟩
  | cons q l ih =>
    have hq : q.bay ≠ c := hl q List.mem_cons_self
    have hrest : ∀ x ∈ l, x.bay ≠ c := fun x hx => hl x (List.mem_cons_of_mem q hx)
    have hkept (q' : QueueEntry) (h' : q'.bay = q.bay) : ∀ x ∈ w.kept ++ [q'], x.bay ≠ c := by
      intro x hx
      rcases List.mem_append.mp hx with hx | hx
      · exact hw x hx
      · rw [List.mem_singleton.mp hx, h']
        exact hq
    rw [List.foldl_cons]
    rcases walkEntry_cases w q with h | ⟨f, -, -, -, -, h⟩ | ⟨-, -, h⟩ | ⟨f, -, -, -, -, h⟩ <;> rw [h]
    · exact ih (keepEntry w q) hrest (hkept q rfl)
    · exact ih (passOverEntry w f q) hrest (hkept _ rfl)
    · obtain ⟨k, hk⟩ := ih { w with state := grant q.bay .self w.state } hrest hw
      exact ⟨(sameFor_grant hq _ _).trans k, hk⟩
    · obtain ⟨k, hk⟩ := ih { w with state := grant q.bay (.feeder f) w.state } hrest hw
      exact ⟨(sameFor_grant hq _ _).trans k, hk⟩

theorem filter_bay_eq_nil {l : List QueueEntry} (h : ∀ q ∈ l, q.bay ≠ c) : l.filter (fun q => decide (q.bay = c)) = [] :=
  List.filter_eq_nil_iff.mpr fun q hq => by simpa using h q hq

theorem sameFor_grantQueue (h : ∀ q ∈ s.arb.queue, q.bay ≠ c) : SameFor c s (grantQueue s) := by
  obtain ⟨k, hk⟩ := sameFor_walkQueue s.arb.queue ⟨s, [], []⟩ h nofun
  exact ⟨k.record, (filter_bay_eq_nil hk).trans (filter_bay_eq_nil h).symm, k.active, k.stack, k.orders⟩

/-- A grant pass touches only bays that wait for it: in the queue, or SHED on a stack (R120). -/
theorem sameFor_grantPass (hq : ∀ q ∈ s.arb.queue, q.bay ≠ c) (hs : (bayAt s c).defrost.state ≠ .shed ∨ ¬ onAStack s c) :
    SameFor c s (grantPass s) := by
  have h := sameFor_resumeAll hs
  exact h.trans (sameFor_grantQueue (h.waits.mpr hq))

/-- No pass can touch the bay: none is owed, or rounds are not running, or the bay waits nowhere. -/
def NoPassFor (s : State) (c : Bay) : Prop :=
  s.passDue = false ∨ s.run.state ≠ .running
    ∨ ((∀ q ∈ s.arb.queue, q.bay ≠ c) ∧ ((bayAt s c).defrost.state ≠ .shed ∨ ¬ onAStack s c))

theorem sameFor_runPass (h : NoPassFor s c) : SameFor c s (runPass s) := by
  have hclear : SameFor c s { s with passDue := false } := .of_eq rfl rfl rfl
  rcases runPass_cases s with ⟨-, e⟩ | ⟨hd, hr, e⟩ | ⟨-, -, e⟩ <;> rw [e]
  · exact .refl c s
  · rcases h with h | h | ⟨hq, hs⟩
    · rw [hd] at h
      cases h
    · exact absurd hr h
    · exact hclear.trans (sameFor_grantPass hq hs)
  · exact hclear

/-! ## The end of a change -/

/-- What the end of a change may still do to a bay: enter HALTED, and take its STOP for the loop. -/
structure Undisturbed (c : Bay) (s t : State) : Prop where
  record : bayAt t c = bayAt s c ∨ bayAt t c = loseDoorOf (bayAt s c)
  queue : ∀ q, q.bay = c → (q ∈ t.arb.queue ↔ q ∈ s.arb.queue)
  active : c ∈ t.arb.active ↔ c ∈ s.arb.active
  stack : ∀ f e, e.bay = c → (e ∈ (feederAt t f).stack ↔ e ∈ (feederAt s f).stack)
  stop : stopOnItsWay s c → stopOnItsWay t c

theorem Undisturbed.refl (c : Bay) (s : State) : Undisturbed c s s :=
  ⟨.inl rfl, fun _ _ => .rfl, .rfl, fun _ _ _ => .rfl, id⟩

theorem Undisturbed.trans (h : Undisturbed c s t) (k : Undisturbed c t u) : Undisturbed c s u := by
  refine ⟨?_, fun q hq => (k.queue q hq).trans (h.queue q hq), k.active.trans h.active,
    fun f e he => (k.stack f e he).trans (h.stack f e he), k.stop ∘ h.stop⟩
  rcases k.record with k | k <;> rcases h.record with h | h <;> rw [k, h]
  · exact .inl rfl
  · exact .inr rfl
  · exact .inr rfl
  · exact .inr rfl

theorem SameFor.undisturbed (h : SameFor c s t)
    (hx : s.loop.exchange = some ⟨c, .order .stop, .sending, false⟩ →
      t.loop.exchange = some ⟨c, .order .stop, .sending, false⟩) : Undisturbed c s t :=
  ⟨.inl h.record, fun _ hq => h.mem_queue hq, h.mem_active, fun f _ he => h.mem_stack f he,
    fun hs => hs.imp (fun k => (h.mem_orders rfl).mpr k) hx⟩

/-- An operation about another bay leaves this bay's exchange. -/
theorem ActsOn.undisturbed {K : Category → Prop} (h : ActsOn b K s t) (hcb : c ≠ b) : Undisturbed c s t := by
  refine (h.sameFor hcb).undisturbed fun hx => ?_
  rcases h.exchange with e | ⟨x, hs, hb, -, -⟩
  · rw [e, hx]
  · rw [hs] at hx
    cases hx
    exact absurd hb hcb

theorem undisturbed_serveLoop (c : Bay) (s : State) : Undisturbed c s (serveLoop s) := by
  refine ⟨.inl (bayAt_congr (serveLoop_bays s) c), fun q _ => by rw [serveLoop_arb], by rw [serveLoop_arb],
    fun f e _ => by simp only [feederAt, serveLoop_arb], fun h => ?_⟩
  rcases h with h | h
  · exact stopOnItsWay_serveLoop h
  · rw [serveLoop_of_busy (by rw [h]; rfl)]
    exact .inr h

theorem undisturbed_haltTest (c : Bay) (s : State) : Undisturbed c s (haltTest s) := by
  rcases haltTest_cases s with h | ⟨-, -, h⟩
  · rw [h]
    exact .refl c s
  · refine ⟨.inr ?_, fun q _ => by rw [haltTest_arb], by rw [haltTest_arb],
      fun f e _ => by simp only [feederAt, haltTest_arb], fun k => by unfold stopOnItsWay; rw [haltTest_loop]; exact k⟩
    rw [h, bayAt_mapBays]
    rfl

/-- The end of a change leaves a bay that the pass leaves, but for HALTED entry and the loop arbiter. -/
theorem undisturbed_settle_of (h : SameFor c s (runPass s)) : Undisturbed c s (settle s) := by
  have hpass : Undisturbed c s (runPass s) := h.undisturbed fun hx => by
    rw [(runPass_frame s).loop]
    exact hx
  have hround : Undisturbed c (runPass s) (endRound (runPass s)) :=
    (SameFor.of_eq (endRound_bays _) (endRound_arb _) (endRound_orders _)).undisturbed fun hx => by
      rw [endRound_exchange]
      exact hx
  exact ((hpass.trans hround).trans (undisturbed_serveLoop c _)).trans (undisturbed_haltTest c _)

theorem undisturbed_settle (h : NoPassFor s c) : Undisturbed c s (settle s) := undisturbed_settle_of (sameFor_runPass h)

end Sys2Proof.Machine
end

section
/-! What ends a bay's defrost business makes of that bay (R131, R136, R145), and that the end of the change leaves it so. -/

namespace Sys2Proof.Machine

open Sys2Proof.Claims

variable {b c : Bay} {s t u w : State}

/-! ## The end of an episode -/

theorem endedDefrost_eq (holdoff : Nat) (o : DefrostOutcome) (d : Defrost) : endedDefrost holdoff o d = afterOutcome holdoff o d := by
  cases o <;> rfl

theorem endedRecord_eq (holdoff : Nat) (o : DefrostOutcome) (r : BayRecord) : endedRecord holdoff o r = recordAfter holdoff o r := by
  cases o <;> rfl

theorem owePassIf_eq (x : Bool) (s : State) : owePassIf x s = { s with passDue := s.passDue || x } := by
  cases x
  · rw [Bool.or_false]
    rfl
  · rw [Bool.or_true]
    rfl

theorem becomeVacant_eq (b : Bay) (s : State) :
    becomeVacant b s = { emptyRecord b s with passDue := s.passDue || (bayAt s b).noDiesel } := owePassIf_eq _ _

/-- The state of an ended episode before its FROST raise and its triggers. -/
def episodeEnded (b : Bay) (o : DefrostOutcome) (s : State) : State :=
  modBay b (endedRecord s.run.settings.holdoff o) (leaveCollections b s)

theorem bayAt_episodeEnded (b : Bay) (o : DefrostOutcome) (s : State) :
    bayAt (episodeEnded b o s) b = recordAfter s.run.settings.holdoff o (bayAt s b) := by
  rw [← endedRecord_eq, episodeEnded, bayAt_modBay_same]
  rfl

/-- The end of an episode, FROST raised where the outcome has it (R131). -/
def frostTold (b : Bay) (o : DefrostOutcome) (s : State) : State :=
  if raisesFrost o then raiseAlert .frost (bayElement b) (episodeEnded b o s) else episodeEnded b o s

theorem endEpisode_eq (b : Bay) (o : DefrostOutcome) (s : State) : endEpisode b o s
    = if (bayAt s b).occupancy = .departing then becomeVacant b (owePassIf (endTriggers s b) (frostTold b o s))
      else owePassIf (endTriggers s b) (frostTold b o s) := endEpisode_cases b o s

theorem frostTold_bays (b : Bay) (o : DefrostOutcome) (s : State) : (frostTold b o s).bays = (episodeEnded b o s).bays := by
  unfold frostTold
  split <;> rfl

theorem frostTold_arb (b : Bay) (o : DefrostOutcome) (s : State) : (frostTold b o s).arb = (leaveCollections b s).arb := by
  unfold frostTold
  split <;> rfl

theorem frostTold_loop (b : Bay) (o : DefrostOutcome) (s : State) : (frostTold b o s).loop = s.loop := by
  unfold frostTold
  split <;> rfl

theorem frostTold_passDue (b : Bay) (o : DefrostOutcome) (s : State) : (frostTold b o s).passDue = s.passDue := by
  unfold frostTold
  split <;> rfl

theorem bayAt_frostTold (b : Bay) (o : DefrostOutcome) (s : State) :
    bayAt (frostTold b o s) b = recordAfter s.run.settings.holdoff o (bayAt s b) := by
  rw [bayAt_congr (frostTold_bays b o s), bayAt_episodeEnded]

theorem endEpisode_arb (b : Bay) (o : DefrostOutcome) (s : State) : (endEpisode b o s).arb = (leaveCollections b s).arb := by
  rw [endEpisode_eq, becomeVacant_eq, owePassIf_eq]
  split <;> exact frostTold_arb b o s

theorem bayAt_emptyRecord_same (b : Bay) (s : State) : bayAt (emptyRecord b s) b = emptiedRecord (bayAt s b) :=
  bayAt_modBay_same b emptied s

/-- The record of a bay whose episode has ended; DEPARTING, it is emptied (R9, R131). -/
theorem bayAt_endEpisode (b : Bay) (o : DefrostOutcome) (s : State) : bayAt (endEpisode b o s) b
    = if (bayAt s b).occupancy = .departing then emptiedRecord (bayAt s b)
      else recordAfter s.run.settings.holdoff o (bayAt s b) := by
  rw [endEpisode_eq, becomeVacant_eq, owePassIf_eq]
  split
  · show bayAt (emptyRecord b _) b = _
    rw [bayAt_emptyRecord_same]
    show emptiedRecord (bayAt (frostTold b o s) b) = _
    rw [bayAt_frostTold]
    rfl
  · exact bayAt_frostTold b o s

theorem endEpisode_passDue (b : Bay) (o : DefrostOutcome) (s : State) : (endEpisode b o s).passDue
    = (s.passDue || endTriggers s b || decide ((bayAt s b).occupancy = .departing) && (bayAt s b).noDiesel) := by
  have hmark : (bayAt (frostTold b o s) b).noDiesel = (bayAt s b).noDiesel := by
    rw [bayAt_frostTold]
    rfl
  rw [endEpisode_eq, becomeVacant_eq, owePassIf_eq]
  split
  · next h =>
    show ((frostTold b o s).passDue || endTriggers s b || (bayAt (frostTold b o s) b).noDiesel) = _
    rw [hmark, frostTold_passDue, decide_eq_true h, Bool.true_and]
  · next h =>
    show ((frostTold b o s).passDue || endTriggers s b) = _
    rw [frostTold_passDue, decide_eq_false h, Bool.false_and, Bool.or_false]

theorem inNoCollection_leaveCollections (b : Bay) (s : State) : inNoCollection (leaveCollections b s) b := by
  refine ⟨fun q hq => ?_, fun hb => ?_, fun ⟨f, e, he, hb⟩ => ?_⟩
  · simpa using (List.mem_filter.mp hq).2
  · simpa using (List.mem_filter.mp hb).2
  · have he' : e ∈ (feederAt (leaveStacks b (leaveQueue b (leaveActive b s))) f).stack := he
    rw [feederAt_leaveStacks] at he'
    have hne := (List.mem_filter.mp he').2
    simp [hb] at hne

theorem inNoCollection_of_arb (h : t.arb = s.arb) : inNoCollection t b ↔ inNoCollection s b := by
  unfold inNoCollection onAStack feederAt
  rw [h]

/-- A bay whose episode has ended is in none of the arbiter's collections (R131). -/
theorem inNoCollection_endEpisode (b : Bay) (o : DefrostOutcome) (s : State) : inNoCollection (endEpisode b o s) b :=
  (inNoCollection_of_arb (endEpisode_arb b o s)).mpr (inNoCollection_leaveCollections b s)

theorem noPassFor_of_inNoCollection (h : inNoCollection s b) : NoPassFor s b := .inr (.inr ⟨h.1, .inr h.2.2⟩)

/-! ## The table of R145 -/

/-- Business that ends at once is ended with its event's outcome; an unsent START is removed first (R50, R145). -/
theorem endBusiness_of_endsAtOnce (h : endsAtOnce s b) (r : StopReason) : ∃ v, v.bays = s.bays ∧ v.arb = s.arb
    ∧ v.run = s.run ∧ v.loop.exchange = s.loop.exchange ∧ v.passDue = s.passDue
    ∧ (v.loop.orders = s.loop.orders ∨ (startWaits s b ∧ v = placeStop b s))
    ∧ endBusiness b r s = endEpisode b (outcomeOf r) v := by
  unfold endBusiness
  rcases h with h | h | ⟨h, hw⟩ <;> rw [h]
  · exact ⟨s, rfl, rfl, rfl, rfl, rfl, .inl rfl, rfl⟩
  · exact ⟨s, rfl, rfl, rfl, rfl, rfl, .inl rfl, rfl⟩
  · refine ⟨placeStop b s, placeStop_bays b s, placeStop_arb b s, placeStop_run b s, ?_, placeStop_passDue b s,
      .inr ⟨hw, rfl⟩, if_pos ((startUnsent_iff s b).mpr hw)⟩
    rw [placeStop_loop]

theorem endBusiness_of_rest (h : (bayAt s b).defrost.state = .idle ∨ (bayAt s b).defrost.state = .hung) (r : StopReason) :
    endBusiness b r s = s := by
  unfold endBusiness
  rcases h with h | h <;> rw [h]

theorem endBusiness_of_sent (h : (bayAt s b).defrost.state = .starting) (hw : ¬ startWaits s b) (r : StopReason) :
    endBusiness b r s = modDefrost b (fun d => { d with reason := some r }) s := by
  unfold endBusiness
  rw [h]
  exact if_neg fun k => hw ((startUnsent_iff s b).mp k)

theorem endBusiness_of_active (h : (bayAt s b).defrost.state = .active) (r : StopReason) :
    endBusiness b r s = stopEpisode b r s := by
  unfold endBusiness
  rw [h]

theorem endBusiness_of_stopping (h : (bayAt s b).defrost.state = .stopping) (r : StopReason) : endBusiness b r s
    = if onStack s b then recordEnd b r s else modDefrost b (fun d => { d with reason := some r }) s := by
  unfold endBusiness
  rw [h]

theorem endBusiness_of_stopping_off (h : (bayAt s b).defrost.state = .stopping) (hs : ¬ onAStack s b) (r : StopReason) :
    endBusiness b r s = modDefrost b (fun d => { d with reason := some r }) s := by
  rw [endBusiness_of_stopping h]
  exact if_neg fun k => hs ((onStack_iff s b).mp k)

theorem endBusiness_of_stopping_on (h : (bayAt s b).defrost.state = .stopping) (hs : onAStack s b) (r : StopReason) :
    endBusiness b r s = recordEnd b r s := by
  rw [endBusiness_of_stopping h]
  exact if_pos ((onStack_iff s b).mpr hs)

theorem mem_recordEnd {r : StopReason} {f : FeederIx} {e : ShedEntry}
    (he : e ∈ (feederAt (recordEnd b r s) f).stack) (hb : e.bay = b) : e.ended = some r := by
  rw [feederAt_recordEnd] at he
  obtain ⟨x, -, rfl⟩ := List.mem_map.mp he
  by_cases hx : x.bay = b
  · simp [hx]
  · simp [hx] at hb

theorem bayAt_modDefrost_same (b : Bay) (g : Defrost → Defrost) (s : State) :
    bayAt (modDefrost b g s) b = { bayAt s b with defrost := g (bayAt s b).defrost } :=
  bayAt_modBay_same b (fun r => { r with defrost := g r.defrost }) s

/-- An event of R145 carried out on a bay, before the end of the change. -/
theorem businessEnded_endBusiness (b : Bay) (r : StopReason) (s : State) :
    businessEnded r (outcomeOf r) s (endBusiness b r s) b := by
  refine ⟨fun h => by rw [endBusiness_of_rest h], fun h => ?_, fun h hw => ?_, fun h => ⟨?_, ?_, fun hn => ?_⟩, fun h hs => ?_,
    fun h hs => ⟨?_, fun f => ⟨?_, fun e he hb => ?_⟩⟩⟩
  · obtain ⟨v, hbays, -, hrun, -, -, -, e⟩ := endBusiness_of_endsAtOnce h r
    rw [e]
    refine ⟨inNoCollection_endEpisode b _ v, fun ho => ?_, fun ho => ?_⟩ <;> rw [bayAt_endEpisode, bayAt_congr hbays]
    · rw [if_pos ho]
    · rw [if_neg ho, hrun]
      rfl
  · rw [endBusiness_of_sent h hw, bayAt_modDefrost_same]
  · rw [endBusiness_of_active h, bayAt_stopEpisode, if_pos rfl]
    rfl
  · rw [endBusiness_of_active h, stopEpisode_arb]
    simp
  · rw [endBusiness_of_active h]
    refine .inl ?_
    rw [stopEpisode_loop]
    exact stop_mem_placeStop (not_startWaits_of_noOrder hn)
  · rw [endBusiness_of_stopping_off h hs, bayAt_modDefrost_same]
  · rw [endBusiness_of_stopping_on h hs]
    rfl
  · rintro ⟨e, he, hb⟩
    rw [endBusiness_of_stopping_on h hs]
    refine ⟨{ e with ended := some r }, ?_, hb⟩
    rw [feederAt_recordEnd]
    exact List.mem_map.mpr ⟨e, he, by simp [hb]⟩
  · rw [endBusiness_of_stopping_on h hs] at he
    exact mem_recordEnd he hb

/-- A bay on which no business ended at once leaves the pass as it was. -/
theorem endBusiness_passDue (h : ¬ endsAtOnce s b) (r : StopReason) : (endBusiness b r s).passDue = s.passDue := by
  unfold endBusiness
  split
  · rfl
  · next k => exact absurd (.inl k) h
  · next k =>
    split
    · next hw => exact absurd (.inr (.inr ⟨k, (startUnsent_iff s b).mp hw⟩)) h
    · rfl
  · exact stopEpisode_passDue b r s
  · split <;> rfl
  · next k => exact absurd (.inr (.inl k)) h
  · rfl

/-- After an event of R145 that ended business at once, or with no pass owed before it, no pass can touch the bay. -/
theorem noPassFor_endBusiness (h : endsAtOnce s b ∨ atRest s) (r : StopReason) : NoPassFor (endBusiness b r s) b := by
  by_cases hend : endsAtOnce s b
  · exact noPassFor_of_inNoCollection ((businessEnded_endBusiness b r s).2.1 hend).1
  · exact .inl ((endBusiness_passDue hend r).trans (h.resolve_left hend))

/-! ## What surrounds an event -/

theorem loseDoorOf_emptied (r : BayRecord) : loseDoorOf (emptiedRecord r) = emptiedRecord r := rfl

/-- What follows an event of R145 within its change leaves the table's result. -/
theorem businessEnded_post {r : StopReason} {o : DefrostOutcome} (h : businessEnded r o s w b) (k : Undisturbed b w t) :
    businessEnded r o s t b := by
  obtain ⟨hidle, honce, hsent, hactive, hoff, hon⟩ := h
  have hdefrost : (bayAt t b).defrost = (bayAt w b).defrost := by
    rcases k.record with e | e <;> rw [e]
    rfl
  refine ⟨fun h => hdefrost.trans (hidle h), fun h => ?_, fun h hw => hdefrost.trans (hsent h hw), fun h => ?_,
    fun h hs => hdefrost.trans (hoff h hs), fun h hs => ?_⟩
  · obtain ⟨⟨hq, ha, hst⟩, hempty, hout⟩ := honce h
    refine ⟨⟨fun q hq' hb => hq q ((k.queue q hb).mp hq') hb, fun hb => ha (k.active.mp hb),
      fun ⟨f, e, he, hb⟩ => hst ⟨f, e, (k.stack f e hb).mp he, hb⟩⟩, fun ho => ?_, fun ho => hdefrost.trans (hout ho)⟩
    rcases k.record with e | e <;> rw [e, hempty ho]
    exact loseDoorOf_emptied _
  · obtain ⟨hd, ha, hstop⟩ := hactive h
    exact ⟨hdefrost.trans hd, fun hb => ha (k.active.mp hb), fun hn => k.stop (hstop hn)⟩
  · obtain ⟨hd, hst⟩ := hon h hs
    refine ⟨hdefrost.trans hd, fun f => ⟨fun he => ?_, fun e he hb => (hst f).2 e ((k.stack f e hb).mp he) hb⟩⟩
    obtain ⟨e, he', hb⟩ := (hst f).1 he
    exact ⟨e, (k.stack f e hb).mpr he', hb⟩

/-- What precedes an event of R145 within its change leaves what the table reads. -/
theorem businessEnded_pre_of_iff {r : StopReason} {o : DefrostOutcome} (h : businessEnded r o u t b)
    (hrun : u.run.settings.holdoff = s.run.settings.holdoff) (harb : ∀ f e, e.bay = b → (e ∈ (feederAt u f).stack ↔ e ∈ (feederAt s f).stack))
    (hord : ∀ x : Order, x.bay = b → (x ∈ u.loop.orders ↔ x ∈ s.loop.orders))
    (hdef : (bayAt u b).defrost = (bayAt s b).defrost) (hocc : (bayAt u b).occupancy = .departing ↔ (bayAt s b).occupancy = .departing)
    (hempty : emptiedRecord (bayAt u b) = emptiedRecord (bayAt s b)) : businessEnded r o s t b := by
  obtain ⟨hidle, honce, hsent, hactive, hoff, hon⟩ := h
  have hwaits : startWaits u b ↔ startWaits s b := exists_congr fun _ => hord _ rfl
  have hstack : onAStack u b ↔ onAStack s b :=
    ⟨fun ⟨f, e, he, hb⟩ => ⟨f, e, (harb f e hb).mp he, hb⟩, fun ⟨f, e, he, hb⟩ => ⟨f, e, (harb f e hb).mpr he, hb⟩⟩
  rw [hdef] at hidle hsent hactive hoff hon
  refine ⟨hidle, fun h => ?_, fun h hw => hsent h (hwaits.not.mpr hw), fun h => ?_, fun h hs => hoff h (hstack.not.mpr hs),
    fun h hs => ?_⟩
  · have h' : endsAtOnce u b := by
      rw [endsAtOnce, hdef, hwaits]
      exact h
    obtain ⟨hno, he, hne⟩ := honce h'
    rw [hocc] at he
    rw [ne_eq, hocc] at hne
    rw [hempty] at he
    rw [hdef, hrun] at hne
    exact ⟨hno, he, hne⟩
  · obtain ⟨hd, ha, hstop⟩ := hactive h
    exact ⟨hd, ha, fun hn => hstop fun x hx hb => hn x ((hord x hb).mp hx) hb⟩
  · obtain ⟨hd, hst⟩ := hon h (hstack.mpr hs)
    refine ⟨hd, fun f => ⟨fun ⟨e, he, hb⟩ => (hst f).1 ⟨e, (harb f e hb).mpr he, hb⟩, (hst f).2⟩⟩

theorem businessEnded_pre {r : StopReason} {o : DefrostOutcome} (h : businessEnded r o u t b)
    (hrun : u.run.settings.holdoff = s.run.settings.holdoff) (harb : ∀ f e, e.bay = b → (e ∈ (feederAt u f).stack ↔ e ∈ (feederAt s f).stack))
    (hord : ∀ x : Order, x.bay = b → (x ∈ u.loop.orders ↔ x ∈ s.loop.orders))
    (hdef : (bayAt u b).defrost = (bayAt s b).defrost) (hocc : (bayAt u b).occupancy = (bayAt s b).occupancy)
    (hempty : emptiedRecord (bayAt u b) = emptiedRecord (bayAt s b)) : businessEnded r o s t b :=
  businessEnded_pre_of_iff h hrun harb hord hdef (by rw [hocc]) hempty

end Sys2Proof.Machine
end

section
/-! MARK on an enrolled bay (O22 to O24), WITHDRAW and FORCE RELEASE (O49). -/

namespace Sys2Proof.Machine

open Sys2Proof.Claims

variable {b c : Bay} {s t u w : State}

/-! ## The end of the change that an event of R145 is in -/

/-- The arbiter after a change that owes no pass. -/
theorem settle_arb_of_atRest (h : atRest s) : (settle s).arb = s.arb := ((settled_settle s).2 (.inl h)).1

/-- An event of R145 with the end of its change: it ended business at once, or no pass was owed before it. -/
theorem businessEnded_settle (h : endsAtOnce s b ∨ atRest s) (r : StopReason) :
    businessEnded r (outcomeOf r) s (settle (endBusiness b r s)) b :=
  businessEnded_post (businessEnded_endBusiness b r s) (undisturbed_settle (noPassFor_endBusiness h r))

/-- The reply leaves what the table of R145 speaks of. -/
theorem businessEnded_writeReply {r : StopReason} {o : DefrostOutcome} (h : businessEnded r o s t b) (st : Station)
    (x : Reply) : businessEnded r o s (writeReply st x t) b :=
  businessEnded_post h ((SameFor.of_eq (s := t) (t := writeReply st x t) rfl rfl rfl).undisturbed id)

/-- The arbiter after an event of R145 that ends nothing at once, no pass being owed before it. -/
theorem settle_endBusiness_arb (h : atRest s) (hn : ¬ endsAtOnce s b) (r : StopReason) :
    (settle (endBusiness b r s)).arb = (endBusiness b r s).arb :=
  settle_arb_of_atRest ((endBusiness_passDue hn r).trans h)

theorem not_endsAtOnce {x : DefrostState} (h : (bayAt s b).defrost.state = x) (hq : x ≠ .queued) (hs : x ≠ .shed)
    (hw : x = .starting → ¬ startWaits s b) : ¬ endsAtOnce s b := by
  rw [endsAtOnce, h]
  rintro (k | k | ⟨k, kw⟩)
  · exact hq k
  · exact hs k
  · exact hw k kw

/-- An outcome of a stop reason leaves the frost record (R83). -/
theorem recordAfter_outcomeOf (holdoff : Nat) (r : StopReason) (x : BayRecord) :
    recordAfter holdoff (outcomeOf r) x = { x with defrost := afterOutcome holdoff (outcomeOf r) x.defrost } := by
  cases r <;> rfl

/-- An event of R145 writes of a bay's record the defrost record alone, unless the bay is emptied. -/
theorem endBusiness_record (h : ¬ ((bayAt s b).occupancy = .departing ∧ endsAtOnce s b)) (r : StopReason) :
    ∃ d, bayAt (endBusiness b r s) b = { bayAt s b with defrost := d } := by
  by_cases hend : endsAtOnce s b
  · obtain ⟨v, hbays, -, -, -, -, -, e⟩ := endBusiness_of_endsAtOnce hend r
    have hocc : (bayAt s b).occupancy ≠ .departing := fun ho => h ⟨ho, hend⟩
    rw [e, bayAt_endEpisode, bayAt_congr hbays, if_neg hocc]
    exact ⟨_, recordAfter_outcomeOf _ r _⟩
  · unfold endBusiness
    split
    · exact ⟨_, rfl⟩
    · next k => exact absurd (.inl k) hend
    · next k =>
      rw [if_neg fun hw => hend (.inr (.inr ⟨k, (startUnsent_iff s b).mp hw⟩)), bayAt_modDefrost_same]
      exact ⟨_, rfl⟩
    · rw [bayAt_stopEpisode, if_pos rfl]
      exact ⟨_, rfl⟩
    · split
      · exact ⟨_, rfl⟩
      · rw [bayAt_modDefrost_same]
        exact ⟨_, rfl⟩
    · next k => exact absurd (.inr (.inl k)) hend
    · exact ⟨_, rfl⟩

/-! ## MARK -/

theorem markOn_eq (st : Station) (m : Mark) (r : BayRecord) : markOn st m r = markedBy st m r := by
  cases m with
  | hold => cases h : r.hold <;> simp [markOn, markedBy, h]
  | _ => rfl

theorem markOff_eq (m : Mark) (r : BayRecord) : markOff m r = unmarked m r := by cases m <;> rfl

theorem markValue_eq (m : Mark) (r : BayRecord) : markValue m r = holdsMark m r := by cases m <;> rfl

theorem modBay_eq (b : Bay) (g : BayRecord → BayRecord) (s : State) : modBay b g s = withBayRecord b (g (bayAt s b)) s := rfl

/-- A mark's set without notice: nothing but the record (R16, R18). -/
theorem setMark_written (st : Station) {m : Mark} (h : m ≠ .hold ∨ (bayAt s b).hold.isSome = true) :
    setMark st b m s = withBayRecord b (markedBy st m (bayAt s b)) s := by
  rw [← markOn_eq, ← modBay_eq]
  unfold setMark
  dsimp only
  split
  · rfl
  · next hv =>
    cases m with
    | hold => exact absurd (h.resolve_left fun k => k rfl) hv
    | _ => rfl

/-- HOLD set from clear with its notice (R16, R145). -/
theorem setMark_held (st : Station) (h : (bayAt s b).hold = none) : setMark st b .hold s
    = settle (endBusiness b .hold (withBayRecord b (markedBy st .hold (bayAt s b)) s)) := by
  rw [← markOn_eq, ← modBay_eq]
  have hv : markValue .hold (bayAt s b) = false := by simp [markValue, h]
  unfold setMark
  dsimp only
  rw [hv]
  rfl

theorem exec_mark {st : Station} {m : Mark} (hb : stands (bayAt s b)) (hm : mayMark m st = true) (op : MarkOp) :
    exec (markRow op st [bayByte b, opByte op, markByte m]) s = .next (writeReply st
      (applyMark op st b m (taking st s)).1 (applyMark op st b m (taking st s)).2) := by
  have hp : permitted .mark st = true := by revert hm; cases m <;> cases st <;> decide
  have hmark : markPermitted m st = true := by revert hm; cases m <;> cases st <;> decide
  have hown : markOwner op st [bayByte b, opByte op, markByte m] (taking st s) = applyMark op st b m (taking st s) := by
    rw [markOwner_bayByte, hmark, if_neg nofun]
    exact if_neg ((stands_iff _).mp hb)
  rw [exec_taken (k := .mark) (owner := markOwner op st [bayByte b, opByte op, markByte m]) (exec_markRow op st _ _ s) hp rfl,
    hown]

theorem exec_markSet {st : Station} {m : Mark} (hb : stands (bayAt s b)) (hm : mayMark m st = true) :
    exec (.markSet st [bayByte b, 0, markByte m]) s
      = .next (writeReply st (plain .done) (setMark st b m (taking st s))) := exec_mark hb hm .set

theorem exec_markTestSet {st : Station} {m : Mark} (hb : stands (bayAt s b)) (hm : mayMark m st = true) :
    exec (.markTestSet st [bayByte b, 2, markByte m]) s
      = .next (writeReply st (previousValue (markValue m (bayAt s b))) (setMark st b m (taking st s))) :=
  exec_mark hb hm .testSet

theorem previousValue_eq (m : Mark) (r : BayRecord) :
    previousValue (markValue m r) = ⟨.done, [if holdsMark m r then 1 else 0]⟩ := by
  rw [markValue_eq]
  cases holdsMark m r <;> rfl

theorem reply_writeReply_done (st : Station) (data : List Byte) (s : State) :
    (slotAt (writeReply st ⟨.done, data⟩ s) st).reply = ⟨.done, data⟩ := by
  rw [writeReply, slotAt_setSlot_same]
  rfl

/-- The record of a bay whose HOLD is set from clear, the bay not being emptied. -/
theorem record_setMark_held {st : Station} (h : (bayAt s b).hold = none)
    (hn : ¬ ((bayAt s b).occupancy = .departing ∧ endsAtOnce s b)) :
    (bayAt (setMark st b .hold s) b).hold = some st := by
  have hmark : markedBy st .hold (bayAt s b) = { bayAt s b with hold := some st } := by simp [markedBy, h]
  rw [setMark_held st h, hmark]
  generalize hv : withBayRecord b { bayAt s b with hold := some st } s = v
  have hb : bayAt v b = { bayAt s b with hold := some st } := by rw [← hv, bayAt_withBayRecord_same]
  have hn' : ¬ ((bayAt v b).occupancy = .departing ∧ endsAtOnce v b) := by
    rw [endsAtOnce, hb, ← hv]
    exact hn
  obtain ⟨d, hd⟩ := endBusiness_record hn' .hold
  have hpass := (runPass_defrostsOnly (endBusiness b .hold v)).record b
  rcases settle_records (endBusiness b .hold v) with k | ⟨-, k⟩ <;> rw [k b, hpass, hd, hb]
  rfl

/-! ## WITHDRAW and FORCE RELEASE -/

theorem withdrawOwner_bayByte (b : Bay) (s : State) : withdrawOwner [bayByte b] s
    = if withdrawable (bayAt s b).defrost.state then (plain .done, settle (endBusiness b .withdraw s))
      else refuse .refusedState s := by
  simp only [withdrawOwner, withBay_bayByte]

theorem forceReleaseOwner_bayByte (b : Bay) (s : State) : forceReleaseOwner [bayByte b] s
    = if (bayAt s b).defrost.state = .hung then (plain .done, settle (endEpisode b .forced s))
      else refuse .refusedState s := by
  simp only [forceReleaseOwner, withBay_bayByte]

theorem exec_withdraw {st : Station} (hst : st = .office ∨ st = .service)
    (h : withdrawable (bayAt s b).defrost.state = true) : exec (.withdraw st [bayByte b]) s
      = .next (writeReply st (plain .done) (settle (endBusiness b .withdraw (taking st s)))) := by
  have hp : permitted .withdraw st = true := by rcases hst with rfl | rfl <;> rfl
  have hown : withdrawOwner [bayByte b] (taking st s)
      = (plain .done, settle (endBusiness b .withdraw (taking st s))) := by
    rw [withdrawOwner_bayByte]
    exact if_pos h
  rw [exec_taken (k := .withdraw) (owner := withdrawOwner [bayByte b]) rfl hp rfl, hown]

end Sys2Proof.Machine

namespace Sys2Proof.Proofs

open Sys2Proof.Machine Sys2Proof.Claims

/-- Settles O22: the two rows make one change, and differ in the reply. -/
theorem markSetAndTestSet : Obligations.MarkSetAndTestSet := by
  intro s st b m hb hm
  refine ⟨_, _, exec_markSet hb hm, exec_markTestSet hb hm, reply_writeReply_done _ _ _, ?_, fun x => rfl, rfl, rfl,
    fun hn => ?_, fun h => ?_⟩
  · rw [previousValue_eq]
    exact reply_writeReply_done _ _ _
  · show holdsMark m (bayAt (setMark st b m (taking st s)) b) = true
      ∧ (bayAt (setMark st b m (taking st s)) b).hold = _
    by_cases hwritten : m ≠ .hold ∨ (bayAt s b).hold.isSome = true
    · rw [setMark_written (s := taking st s) st hwritten, bayAt_withBayRecord_same]
      refine ⟨?_, rfl⟩
      show holdsMark m (markedBy st m (bayAt s b)) = true
      cases m with
      | hold => cases h : (bayAt s b).hold <;> simp [holdsMark, markedBy, h]
      | _ => rfl
    · obtain ⟨rfl, hclear⟩ : m = .hold ∧ (bayAt s b).hold = none := by
        simpa [not_or] using hwritten
      have hhold := record_setMark_held (s := taking st s) (st := st) hclear fun k => hn ⟨rfl, k⟩
      refine ⟨?_, hhold.trans ?_⟩
      · simp [holdsMark, hhold]
      · simp [markedBy, hclear]
  · rw [setMark_written (s := taking st s) st h]
    exact writeReply_withBayRecord_taking st .done b _ s

/-- Settles O23: the event of R145, carried out on the record that holds the mark. -/
theorem holdSetEndsBusiness : Obligations.HoldSetEndsBusiness := by
  intro s st b hst hrest hb hclear
  have hm : mayMark .hold st = true := by rcases hst with rfl | rfl <;> rfl
  have hset := setMark_held (s := taking st s) (b := b) st hclear
  generalize hv : withBayRecord b (markedBy st .hold (bayAt (taking st s) b)) (taking st s) = v at hset
  have hbv : bayAt v b = markedBy st .hold (bayAt s b) := by rw [← hv, bayAt_withBayRecord_same]; rfl
  have harb : v.arb = s.arb := by rw [← hv]; rfl
  have hloop : v.loop = s.loop := by rw [← hv]; rfl
  have hrestv : atRest v := by rw [← hv]; exact hrest
  have hdef : (bayAt v b).defrost = (bayAt s b).defrost := by rw [hbv]; rfl
  have hstack : onAStack v b ↔ onAStack s b := by unfold onAStack feederAt; rw [harb]
  have hwaits : startWaits v b ↔ startWaits s b := by unfold startWaits; rw [hloop]
  have hstate : (setMark st b .hold (taking st s)).arb = (settle (endBusiness b .hold v)).arb := by rw [hset]
  refine ⟨_, exec_markSet hb hm, reply_writeReply_done _ _ _, ?_, fun hn => ?_, fun h => ?_, fun h hw => ?_, fun h => ?_,
    fun h hs => ?_, fun h hs f => ?_⟩
  · rw [hset]
    refine businessEnded_pre (businessEnded_writeReply (businessEnded_settle (.inr hrestv) .hold) st _) ?_ ?_ ?_ hdef ?_ ?_
    · rw [← hv]; rfl
    · intro f e _; simp only [feederAt, harb]
    · intro x _; rw [hloop]
    · rw [hbv]; rfl
    · rw [hbv]; rfl
  · exact record_setMark_held (s := taking st s) hclear hn
  · refine hstate.trans ?_
    rw [← hdef] at h
    rw [endBusiness_of_rest h, settle_arb_of_atRest hrestv, harb]
  · refine hstate.trans ?_
    rw [← hdef] at h
    rw [settle_endBusiness_arb hrestv (not_endsAtOnce h nofun nofun fun _ => hwaits.not.mpr hw),
      endBusiness_of_sent h (hwaits.not.mpr hw)]
    exact harb
  · refine (congrArg Arbiter.active hstate).trans ?_
    rw [← hdef] at h
    rw [settle_endBusiness_arb hrestv (not_endsAtOnce h nofun nofun nofun), endBusiness_of_active h, stopEpisode_arb, harb]
  · refine hstate.trans ?_
    rw [← hdef] at h
    rw [settle_endBusiness_arb hrestv (not_endsAtOnce h nofun nofun nofun),
      endBusiness_of_stopping_off h (hstack.not.mpr hs)]
    exact harb
  · rw [← hdef] at h
    have hrecorded : (setMark st b .hold (taking st s)).arb = (recordEnd b .hold v).arb := by
      rw [hstate, settle_endBusiness_arb hrestv (not_endsAtOnce h nofun nofun nofun),
        endBusiness_of_stopping_on h (hstack.mpr hs)]
    show ((setMark st b .hold (taking st s)).arb.feeders[f.val]).stack = _
    rw [hrecorded]
    show (feederAt (recordEnd b .hold v) f).stack = _
    rw [feederAt_recordEnd]
    simp only [feederAt, harb]

end Sys2Proof.Proofs
end

section
/-! MARK cleared (O24), WITHDRAW and FORCE RELEASE (O49), DEPART (O18). -/

namespace Sys2Proof.Machine

open Sys2Proof.Claims

variable {b c : Bay} {s t u w : State}

/-! ## MARK cleared -/

theorem holdForeign_iff (st : Station) (m : Mark) (r : BayRecord) :
    holdForeign st m r = true ↔ m = .hold ∧ ∃ owner, r.hold = some owner ∧ owner ≠ st := by
  cases m with
  | hold => cases h : r.hold <;> simp [holdForeign, h]
  | _ => simp [holdForeign]

theorem clearMark_written {m : Mark} (h : m ≠ .noDiesel ∨ (bayAt s b).noDiesel = false) :
    clearMark b m s = withBayRecord b (unmarked m (bayAt s b)) s := by
  rw [← markOff_eq, ← modBay_eq]
  unfold clearMark
  dsimp only
  split
  · next hv =>
    cases m with
    | noDiesel =>
      have hv' : (bayAt s b).noDiesel = true := hv
      rw [h.resolve_left fun k => k rfl] at hv'
      cases hv'
    | _ => rfl
  · rfl

theorem clearMark_noDiesel (h : (bayAt s b).noDiesel = true) : clearMark b .noDiesel s
    = settle { withBayRecord b (unmarked .noDiesel (bayAt s b)) s with passDue := true } := by
  have hv : markValue .noDiesel (bayAt s b) = true := h
  unfold clearMark
  dsimp only
  rw [hv]
  rfl

theorem exec_markClear_foreign {st : Station} {m : Mark} (hb : stands (bayAt s b)) (hm : mayMark m st = true)
    (h : holdForeign st m (bayAt s b) = true) :
    exec (.markClear st [bayByte b, 1, markByte m]) s = .next (told st .refusedOwner [] s)
      ∧ exec (.markTestClear st [bayByte b, 3, markByte m]) s = .next (told st .refusedOwner [] s) := by
  have hrefused (op : MarkOp) (ho : op = .clear ∨ op = .testClear) :
      applyMark op st b m (taking st s) = refuse .refusedOwner (taking st s) := by
    rcases ho with rfl | rfl <;> exact if_pos h
  have hreply : writeReply st (plain .refusedOwner) (taking st s) = told st .refusedOwner [] s :=
    writeReply_taking st .refusedOwner s
  refine ⟨(exec_mark hb hm .clear).trans ?_, (exec_mark hb hm .testClear).trans ?_⟩
  · rw [hrefused .clear (.inl rfl)]
    exact congrArg _ hreply
  · rw [hrefused .testClear (.inr rfl)]
    exact congrArg _ hreply

theorem exec_markClear_own {st : Station} {m : Mark} (hb : stands (bayAt s b)) (hm : mayMark m st = true)
    (h : holdForeign st m (bayAt s b) = false) :
    exec (.markClear st [bayByte b, 1, markByte m]) s = .next (writeReply st (plain .done) (clearMark b m (taking st s)))
      ∧ exec (.markTestClear st [bayByte b, 3, markByte m]) s
        = .next (writeReply st (previousValue (markValue m (bayAt s b))) (clearMark b m (taking st s))) := by
  have hown : holdForeign st m (bayAt (taking st s) b) = false := h
  have hclear : applyMark .clear st b m (taking st s) = (plain .done, clearMark b m (taking st s)) := by
    simp only [applyMark, hown]
    rfl
  have htest : applyMark .testClear st b m (taking st s)
      = (previousValue (markValue m (bayAt s b)), clearMark b m (taking st s)) := by
    simp only [applyMark, hown]
    rfl
  refine ⟨(exec_mark hb hm .clear).trans ?_, (exec_mark hb hm .testClear).trans ?_⟩
  · rw [hclear]
  · rw [htest]

/-- The end of a change leaves the marks of every bay. -/
theorem record_settle (s : State) (b : Bay) : ∃ d, bayAt (settle s) b = { bayAt s b with defrost := d }
    ∨ bayAt (settle s) b = loseDoorOf { bayAt s b with defrost := d } := by
  have hpass := (runPass_defrostsOnly s).record b
  rcases settle_records s with k | ⟨-, k⟩ <;> rw [k b, hpass]
  · exact ⟨_, .inl rfl⟩
  · exact ⟨_, .inr rfl⟩

/-! ## DEPART -/

theorem departOwner_bayByte (b : Bay) (s : State) : departOwner [bayByte b] s
    = if (bayAt s b).occupancy = .arriving ∨ (bayAt s b).occupancy = .parked then (plain .done, settle (departBay b s))
      else refuse .refusedState s := by
  simp only [departOwner, withBay_bayByte]
  cases h : (bayAt s b).occupancy <;> rfl

theorem departOwner_of_noBay {x : Byte} (h : noBay x) (s : State) : departOwner [x] s = refuse .badArgument s := by
  simp only [departOwner, withBay_of_noBay h, refuse, plain]

theorem exec_depart (ho : (bayAt s b).occupancy = .arriving ∨ (bayAt s b).occupancy = .parked) :
    exec (.depart .gate [bayByte b]) s
      = .next (writeReply .gate (plain .done) (settle (departBay b (taking .gate s)))) := by
  have hown : departOwner [bayByte b] (taking .gate s) = (plain .done, settle (departBay b (taking .gate s))) := by
    rw [departOwner_bayByte]
    exact if_pos ho
  rw [exec_taken (k := .depart) (owner := departOwner [bayByte b]) rfl rfl rfl, hown]

end Sys2Proof.Machine

namespace Sys2Proof.Proofs

open Sys2Proof.Machine Sys2Proof.Claims

/-- Settles O24: a foreign HOLD is refused, any other clear writes the record, and a NO-DIESEL-DEFROST owes a pass. -/
theorem markClearAndTestClear : Obligations.MarkClearAndTestClear := by
  intro s st b m hb hm
  refine ⟨fun h1 h2 => exec_markClear_foreign hb hm ((holdForeign_iff st m _).mpr ⟨h1, h2⟩), fun hn => ?_⟩
  have hown : holdForeign st m (bayAt s b) = false := by
    simpa using (holdForeign_iff st m (bayAt s b)).not.mpr hn
  obtain ⟨hclear, htest⟩ := exec_markClear_own hb hm hown
  have hwritten (h : m ≠ .noDiesel ∨ (bayAt s b).noDiesel = false) :=
    clearMark_written (s := taking st s) (b := b) (m := m) h
  refine ⟨_, _, hclear, htest, reply_writeReply_done _ _ _, ?_, fun x => rfl, rfl, rfl, ?_, fun h => ?_, fun hd hv => ?_⟩
  · rw [previousValue_eq]
    exact reply_writeReply_done _ _ _
  · show holdsMark m (bayAt (clearMark b m (taking st s)) b) = false
    by_cases h : m ≠ .noDiesel ∨ (bayAt s b).noDiesel = false
    · rw [hwritten h, bayAt_withBayRecord_same]
      cases m <;> rfl
    · obtain ⟨rfl, hv⟩ : m = .noDiesel ∧ (bayAt s b).noDiesel = true := by simpa [not_or] using h
      rw [clearMark_noDiesel (s := taking st s) hv]
      have hrecord := record_settle
        { withBayRecord b (unmarked .noDiesel (bayAt (taking st s) b)) (taking st s) with passDue := true } b
      have hb' : bayAt { withBayRecord b (unmarked .noDiesel (bayAt (taking st s) b)) (taking st s) with passDue := true } b
        = unmarked .noDiesel (bayAt s b) := bayAt_withBayRecord_same b _ (taking st s)
      rw [hb'] at hrecord
      obtain ⟨d, k | k⟩ := hrecord <;> rw [k] <;> rfl
  · rw [hwritten h]
    exact writeReply_withBayRecord_taking st .done b _ s
  · subst hd
    rw [clearMark_noDiesel (s := taking st s) hv]
    exact settled_writeReply_settle st (plain .done) _

end Sys2Proof.Proofs
end

section
/-! The end of a change: the run state and the records it leaves, and that a grant pass reads arbiter and records alone. -/

namespace Sys2Proof.Machine

open Sys2Proof.Claims

variable {b c : Bay} {s t u w : State}

/-! ## HALTED entry -/

theorem haltDone_iff (s : State) : haltDone s = true ↔ haltReady s := by
  have hcount : countBays (fun r => startingOrStopping r.defrost) s = 0
      ↔ ∀ b, (bayAt s b).defrost.state ≠ .starting ∧ (bayAt s b).defrost.state ≠ .stopping := by
    rw [countBays, List.length_eq_zero_iff, List.filter_eq_nil_iff]
    refine ⟨fun h b => ?_, fun h b _ => ?_⟩
    · have hb := h b (mem_allBays b)
      constructor <;> intro k <;> simp [startingOrStopping, k] at hb
    · obtain ⟨h1, h2⟩ := h b
      unfold startingOrStopping
      split
      · next k => exact absurd k h1
      · next k => exact absurd k h2
      · nofun
  rw [haltDone, Bool.and_eq_true, decide_eq_true_iff, hcount, List.isEmpty_iff]

/-- HALTED entry leaves what the test of R25 reads. -/
theorem haltReady_haltTest (s : State) : haltReady (haltTest s) ↔ haltReady s := by
  have hdefrost (b : Bay) : (bayAt (haltTest s) b).defrost = (bayAt s b).defrost := by
    rcases haltTest_cases s with h | ⟨-, -, h⟩ <;> rw [h]
    rw [bayAt_mapBays]
    rfl
  unfold haltReady
  rw [haltTest_loop]
  simp only [hdefrost]

/-- In HALTING the test of R25 enters HALTED exactly under its conditions. -/
theorem haltTest_run (s : State) : (haltTest s).run = { s.run with state := (haltTest s).run.state }
    ∧ (s.run.state = .halting → ((haltTest s).run.state = .halted ↔ haltReady (haltTest s))
        ∧ ((haltTest s).run.state ≠ .halted → (haltTest s).run = s.run))
    ∧ (s.run.state ≠ .halting → haltTest s = s) := by
  rw [haltReady_haltTest, ← haltDone_iff]
  unfold haltTest
  split
  · next h =>
    refine ⟨by rw [mapBays_run], fun _ => ⟨⟨fun _ => h.2, fun _ => by rw [mapBays_run]⟩, fun k => absurd (by rw [mapBays_run]) k⟩,
      fun k => absurd h.1 k⟩
  · next h =>
    refine ⟨rfl, fun k => ⟨⟨fun e => ?_, fun e => absurd ⟨k, e⟩ h⟩, fun _ => rfl⟩, fun _ => rfl⟩
    rw [k] at e
    cases e

theorem beforeHaltTest_run (s : State) : (serveLoop (endRound (runPass s))).run = s.run := by
  rw [serveLoop_run, endRound_run, runPass_run]

theorem settle_run (s : State) : (settle s).run = { s.run with state := (settle s).run.state } := by
  have h := (haltTest_run (serveLoop (endRound (runPass s)))).1
  rw [beforeHaltTest_run] at h
  exact h

theorem settle_run_halting (h : s.run.state = .halting) : ((settle s).run.state = .halted ↔ haltReady (settle s))
    ∧ ((settle s).run.state ≠ .halted → (settle s).run = s.run) := by
  have k := (haltTest_run (serveLoop (endRound (runPass s)))).2.1
  rw [beforeHaltTest_run] at k
  exact k h

theorem settle_run_of_ne (h : s.run.state ≠ .halting) : (settle s).run = s.run := by
  have k := (haltTest_run (serveLoop (endRound (runPass s)))).2.2
  rw [beforeHaltTest_run] at k
  rw [settle, k h, beforeHaltTest_run]

/-- After the pass the end of a change leaves every record, or it enters HALTED and every door watch loses its knowledge. -/
theorem settle_cases (s : State) : ((settle s).run = s.run ∧ ∀ b, bayAt (settle s) b = bayAt (runPass s) b)
    ∨ (s.run.state = .halting ∧ (settle s).run = { s.run with state := .halted }
        ∧ ∀ b, bayAt (settle s) b = loseDoorOf (bayAt (runPass s) b)) := by
  have hb : (serveLoop (endRound (runPass s))).bays = (runPass s).bays := by simp
  rcases haltTest_cases (serveLoop (endRound (runPass s))) with h | ⟨hs, -, h⟩
  · exact .inl ⟨by rw [settle, h, beforeHaltTest_run], fun b => by rw [settle, h, bayAt_congr hb]⟩
  · rw [beforeHaltTest_run] at hs
    refine .inr ⟨hs, by rw [settle, h, mapBays_run, beforeHaltTest_run], fun b => ?_⟩
    rw [settle, h, bayAt_mapBays]
    exact congrArg loseDoorOf (bayAt_congr hb b)

/-- A state in which no pass will be made: its records and arbiter stand after the pass (R120). -/
theorem runPass_of_none (h : s.passDue = false ∨ s.run.state ≠ .running) :
    (runPass s).bays = s.bays ∧ (runPass s).arb = s.arb ∧ (runPass s).loop = s.loop := by
  rcases runPass_cases s with ⟨-, e⟩ | ⟨hd, hr, -⟩ | ⟨-, -, e⟩
  · rw [e]; exact ⟨rfl, rfl, rfl⟩
  · rcases h with h | h
    · rw [hd] at h; cases h
    · exact absurd hr h
  · rw [e]; exact ⟨rfl, rfl, rfl⟩

/-! ## A bay that a pass keeps waiting -/

/-- The pass grants no demand of a bay whose charge cannot be told (R122). -/
theorem walkQueue_record (l : List QueueEntry) (w : QueueWalk) (h : passCharge (bayAt w.state c) = .none) :
    bayAt (l.foldl walkEntry w).state c = bayAt w.state c := by
  induction l generalizing w with
  | nil => rfl
  | cons q l ih =>
    have hother {x : Charge} (hx : passCharge (bayAt w.state q.bay) = x) (hne : x ≠ .none) :
        bayAt (grant q.bay x w.state) c = bayAt w.state c := by
      refine (sameFor_grant ?_ x w.state).record
      rintro rfl
      exact hne (hx.symm.trans h)
    rw [List.foldl_cons]
    rcases walkEntry_cases w q with e | ⟨f, -, -, -, -, e⟩ | ⟨hx, -, e⟩ | ⟨f, hx, -, -, -, e⟩ <;> rw [e]
    · exact ih (keepEntry w q) h
    · exact ih (passOverEntry w f q) h
    · have hstep := hother hx nofun
      exact (ih { w with state := grant q.bay .self w.state } (by rw [hstep]; exact h)).trans hstep
    · have hstep := hother hx nofun
      exact (ih { w with state := grant q.bay (.feeder f) w.state } (by rw [hstep]; exact h)).trans hstep

/-- The second step of a pass as a walk of the queue (R122). -/
def queueWalked (s : State) : QueueWalk := s.arb.queue.foldl walkEntry ⟨s, [], []⟩

theorem grantQueue_eq (s : State) : grantQueue s
    = { (queueWalked s).state with arb := { (queueWalked s).state.arb with queue := (queueWalked s).kept } } := rfl

theorem bayAt_grantQueue (s : State) (c : Bay) : bayAt (grantQueue s) c = bayAt (queueWalked s).state c := by
  rw [grantQueue_eq]
  exact bayAt_congr rfl c

theorem grantQueue_record (h : passCharge (bayAt s c) = .none) : bayAt (grantQueue s) c = bayAt s c := by
  rw [bayAt_grantQueue]
  exact walkQueue_record s.arb.queue ⟨s, [], []⟩ h

theorem grantPass_record (h : passCharge (bayAt s c) = .none) (hs : (bayAt s c).defrost.state ≠ .shed) :
    bayAt (grantPass s) c = bayAt s c := by
  have hresume := (sameFor_resumeAll (.inl hs)).record
  rw [grantPass, grantQueue_record (by rw [hresume]; exact h), hresume]

/-- An emptied bay stays so through the end of a change (R2, R107). -/
theorem settle_emptied {r : BayRecord} (h : bayAt s b = emptiedRecord r) : bayAt (settle s) b = emptiedRecord r := by
  have hpass : bayAt (runPass s) b = emptiedRecord r := by
    rcases runPass_cases s with ⟨-, e⟩ | ⟨-, -, e⟩ | ⟨-, -, e⟩ <;> rw [e]
    · exact h
    · have hb : bayAt { s with passDue := false } b = emptiedRecord r := h
      rw [grantPass_record (by rw [hb]; rfl) (by rw [hb]; nofun), hb]
    · exact h
  rcases settle_cases s with ⟨-, k⟩ | ⟨-, -, k⟩ <;> rw [k b, hpass]
  exact loseDoorOf_emptied r

/-! ## A grant pass reads arbiter and records alone -/

/-- Two states have the same bay records and the same arbiter. -/
structure SameBusiness (s t : State) : Prop where
  bays : t.bays = s.bays
  arb : t.arb = s.arb

theorem SameBusiness.bayAt (h : SameBusiness s t) (b : Bay) : bayAt t b = bayAt s b := bayAt_congr h.bays b

theorem SameBusiness.feederAt (h : SameBusiness s t) (f : FeederIx) : feederAt t f = feederAt s f := by
  simp only [Machine.feederAt, h.arb]

theorem SameBusiness.committed (h : SameBusiness s t) (f : FeederIx) : committed t f = committed s f := by
  simp only [Machine.committed, h.bayAt]

theorem SameBusiness.modDefrost (h : SameBusiness s t) (b : Bay) (g : Defrost → Defrost) :
    SameBusiness (modDefrost b g s) (modDefrost b g t) := by
  refine ⟨?_, h.arb⟩
  show t.bays.set b.val { Machine.bayAt t b with defrost := g (Machine.bayAt t b).defrost } = _
  rw [h.bayAt, h.bays]
  rfl

theorem SameBusiness.setFeeder (h : SameBusiness s t) (f : FeederIx) (r : Feeder) :
    SameBusiness (setFeeder f r s) (setFeeder f r t) := ⟨h.bays, by
  show { t.arb with feeders := t.arb.feeders.set f.val r } = _
  rw [h.arb]
  rfl⟩

theorem SameBusiness.joinActive (h : SameBusiness s t) (b : Bay) : SameBusiness (joinActive b s) (joinActive b t) :=
  ⟨h.bays, by
    show { t.arb with active := t.arb.active ++ [b] } = _
    rw [h.arb]
    rfl⟩

theorem SameBusiness.placeStart (h : SameBusiness s t) (b : Bay) (x : Bool) :
    SameBusiness (placeStart b x s) (placeStart b x t) := ⟨h.bays, h.arb⟩

theorem sameBusiness_resumeTop (h : SameBusiness s t) (f : FeederIx) (b : Bay) (rest : List ShedEntry) :
    SameBusiness (resumeTop f b rest s) (resumeTop f b rest t) := by
  unfold resumeTop
  rw [h.feederAt]
  exact (((h.setFeeder f _).modDefrost b _).joinActive b).placeStart b true

theorem sameBusiness_grant (h : SameBusiness s t) (b : Bay) (x : Charge) : SameBusiness (grant b x s) (grant b x t) := by
  unfold grant
  rw [h.bayAt]
  exact ((h.modDefrost b _).joinActive b).placeStart b false

theorem sameBusiness_resumeFeeder (f : FeederIx) (n : Nat) (h : SameBusiness s t) :
    SameBusiness (resumeFeeder f n s) (resumeFeeder f n t) := by
  induction n generalizing s t with
  | zero => exact h
  | succ n ih =>
    unfold resumeFeeder
    rw [h.feederAt]
    split
    · exact h
    · next top rest _ =>
      dsimp only
      rw [h.bayAt, h.committed]
      split
      · exact ih (sameBusiness_resumeTop h f top.bay rest)
      · exact h

theorem sameBusiness_resumeAll (h : SameBusiness s t) : SameBusiness (resumeAll s) (resumeAll t) := by
  unfold resumeAll
  generalize allFeeders = l
  induction l generalizing s t with
  | nil => exact h
  | cons f l ih =>
    rw [List.foldl_cons, List.foldl_cons, h.feederAt]
    exact ih (sameBusiness_resumeFeeder f _ h)

theorem sameBusiness_walkEntry {w v : QueueWalk} (h : SameBusiness w.state v.state) (hk : v.kept = w.kept)
    (hb : v.barriers = w.barriers) (q : QueueEntry) : SameBusiness (walkEntry w q).state (walkEntry v q).state
      ∧ (walkEntry v q).kept = (walkEntry w q).kept ∧ (walkEntry v q).barriers = (walkEntry w q).barriers := by
  unfold walkEntry
  dsimp only
  rw [h.bayAt, hb]
  cases passCharge (bayAt w.state q.bay) with
  | none => exact ⟨h, congrArg (· ++ [q]) hk, hb⟩
  | self =>
    dsimp only
    split
    · exact ⟨h, congrArg (· ++ [q]) hk, hb⟩
    · exact ⟨sameBusiness_grant h q.bay .self, hk, rfl⟩
  | feeder f =>
    dsimp only
    rw [h.feederAt, h.committed]
    split
    · exact ⟨h, congrArg (· ++ [q]) hk, hb⟩
    · split
      · exact ⟨h, congrArg (· ++ [q]) hk, hb⟩
      · split
        · exact ⟨sameBusiness_grant h q.bay (.feeder f), hk, rfl⟩
        · exact ⟨h, congrArg (· ++ [_]) hk, by simp only [passOverEntry, hb]⟩

theorem sameBusiness_walkQueue (l : List QueueEntry) {w v : QueueWalk} (h : SameBusiness w.state v.state)
    (hk : v.kept = w.kept) (hb : v.barriers = w.barriers) :
    SameBusiness (l.foldl walkEntry w).state (l.foldl walkEntry v).state
      ∧ (l.foldl walkEntry v).kept = (l.foldl walkEntry w).kept := by
  induction l generalizing w v with
  | nil => exact ⟨h, hk⟩
  | cons q l ih =>
    obtain ⟨h', hk', hb'⟩ := sameBusiness_walkEntry h hk hb q
    exact ih h' hk' hb'

theorem sameBusiness_grantQueue (h : SameBusiness s t) : SameBusiness (grantQueue s) (grantQueue t) := by
  obtain ⟨hwalk, hkept⟩ : SameBusiness (queueWalked s).state (queueWalked t).state
      ∧ (queueWalked t).kept = (queueWalked s).kept := by
    unfold queueWalked
    rw [h.arb]
    exact sameBusiness_walkQueue _ h rfl rfl
  rw [grantQueue_eq, grantQueue_eq]
  exact ⟨hwalk.bays, by rw [hwalk.arb, hkept]⟩

/-- A grant pass makes the same of the same records and arbiter. -/
theorem sameBusiness_grantPass (h : SameBusiness s t) : SameBusiness (grantPass s) (grantPass t) :=
  sameBusiness_grantQueue (sameBusiness_resumeAll h)

/-- `settled` reads records, arbiter, run state and the pass owed. -/
theorem settled_of_same {x : State} (h : settled w x) (k : SameBusiness w u) (hp : u.passDue = w.passDue)
    (hr : u.run.state = w.run.state) : settled u x := by
  have hpass := sameBusiness_grantPass (s := { w with passDue := false }) (t := { u with passDue := false }) ⟨k.bays, k.arb⟩
  obtain ⟨h1, h2⟩ := h
  refine ⟨fun hd hrun => ?_, fun hn => ?_⟩
  · obtain ⟨ha, hb⟩ := h1 (hp ▸ hd) (hr ▸ hrun)
    exact ⟨ha.trans hpass.arb.symm, fun b => (hb b).trans (hpass.bayAt b).symm⟩
  · rw [hp, hr] at hn
    obtain ⟨ha, hb⟩ := h2 hn
    exact ⟨ha.trans k.arb.symm, fun b => by rw [hb, k.bayAt]⟩

end Sys2Proof.Machine
end

section
/-! WITHDRAW and FORCE RELEASE (O49), DEPART (O18). -/

namespace Sys2Proof.Machine

open Sys2Proof.Claims

variable {b c : Bay} {s t u w : State}

theorem withdrawOwner_of_noBay {x : Byte} (h : noBay x) (s : State) : withdrawOwner [x] s = refuse .badArgument s := by
  simp only [withdrawOwner, withBay_of_noBay h, refuse, plain]

theorem forceReleaseOwner_of_noBay {x : Byte} (h : noBay x) (s : State) :
    forceReleaseOwner [x] s = refuse .badArgument s := by
  simp only [forceReleaseOwner, withBay_of_noBay h, refuse, plain]

/-- The arbiter after an event of R145 that ended nothing at once, at the end of its change. -/
theorem settled_endBusiness_arb {x : Arbiter} (h : atRest s) (hn : ¬ endsAtOnce s b) {r : StopReason}
    (hx : (endBusiness b r s).arb = x) : (settle (endBusiness b r s)).arb = x := by
  rw [settle_endBusiness_arb h hn, hx]

theorem exec_forceRelease (h : (bayAt s b).defrost.state = .hung) : exec (.forceRelease .feeder [bayByte b]) s
    = .next (writeReply .feeder (plain .done) (settle (endEpisode b .forced (taking .feeder s)))) := by
  have hown : forceReleaseOwner [bayByte b] (taking .feeder s)
      = (plain .done, settle (endEpisode b .forced (taking .feeder s))) := by
    rw [forceReleaseOwner_bayByte]
    exact if_pos h
  rw [exec_taken (k := .forceRelease) (owner := forceReleaseOwner [bayByte b]) rfl rfl rfl, hown]

theorem countedOnFeeder_of {d : Defrost} {f : FeederIx} (hc : d.charge = .feeder f) (hs : counted d.state = true) :
    countedOnFeeder d = true := by
  simp [countedOnFeeder, hc, hs]

/-- The end of an episode that gives a feeder back its draw owes a pass (R120). -/
theorem endEpisode_owes (o : DefrostOutcome) (h : countedOnFeeder (bayAt s b).defrost = true) :
    (endEpisode b o s).passDue = true := by
  have hcount : endTriggers s b = true := by simp [endTriggers, h]
  rw [endEpisode_passDue, hcount, Bool.or_true, Bool.true_or]

/-! ## DEPART -/

theorem departBay_eq (h1 : (bayAt s b).defrost.state ≠ .idle) (h2 : (bayAt s b).defrost.state ≠ .hung) :
    departBay b s = endBusiness b .depart (withBayRecord b { bayAt s b with occupancy := .departing } s) := by
  unfold departBay
  split
  · next h => exact absurd h h1
  · next h => exact absurd h h2
  · rfl

theorem departBay_of_idle (h : (bayAt s b).defrost.state = .idle) : departBay b s = becomeVacant b s := by
  unfold departBay
  rw [h]

theorem departBay_of_hung (h : (bayAt s b).defrost.state = .hung) : departBay b s = departHung b s := by
  unfold departBay
  rw [h]

theorem bayAt_becomeVacant_same (b : Bay) (s : State) : bayAt (becomeVacant b s) b = emptiedRecord (bayAt s b) := by
  rw [bayAt_becomeVacant, if_pos rfl]
  rfl

theorem bayAt_departHung (b : Bay) (s : State) : bayAt (departHung b s) b = emptiedRecord (bayAt s b) := by
  rw [departHung, bayAt_becomeVacant_same, owePassIf_eq]
  rfl

/-- A HUNG bay that gives a feeder back its draw owes a pass as it departs (R120, R139). -/
theorem departHung_owes (h : countedOnFeeder (bayAt s b).defrost = true) : (departHung b s).passDue = true := by
  rw [departHung, becomeVacant_eq, owePassIf_eq, h]
  show (s.passDue || true || _) = true
  rw [Bool.or_true, Bool.true_or]

/-- A bay that becomes VACANT, as its record, the arbiter and the pass owed show it. -/
theorem settled_becomeVacant {x : State} (h : settled (becomeVacant b s) x) (hrest : atRest s) :
    settled { withBayRecord b (emptiedRecord (bayAt s b)) s with passDue := (bayAt s b).noDiesel } x := by
  have heq := becomeVacant_eq b s
  refine settled_of_same h ⟨?_, ?_⟩ ?_ ?_ <;> rw [heq]
  · rfl
  · rfl
  · rw [show s.passDue = false from hrest]
    rfl
  · rfl

/-- A bay that becomes VACANT in a change: its record, and what the change leaves of the arbiter and of the other bays. -/
theorem settle_becomeVacant (hrest : atRest s) (b : Bay) :
    let t := settle (becomeVacant b s)
    let passes := s.run.state = .running ∧ (bayAt s b).noDiesel = true
    bayAt t b = emptiedRecord (bayAt s b) ∧ (¬ passes → t.arb = s.arb)
      ∧ (∀ c, c ≠ b → ¬ passes → t.run.state = s.run.state → bayAt t c = bayAt s c)
      ∧ ∀ c, c ≠ b → t.run.state ≠ s.run.state → bayAt t c = { bayAt s c with door := doorLost (bayAt s c).door } := by
  have heq := becomeVacant_eq b s
  have hrun : (becomeVacant b s).run = s.run := by rw [heq]; rfl
  have harb : (becomeVacant b s).arb = s.arb := by rw [heq]; rfl
  have hdue : (becomeVacant b s).passDue = (bayAt s b).noDiesel := by
    rw [heq]
    show (s.passDue || _) = _
    rw [show s.passDue = false from hrest, Bool.false_or]
  have hother : KeepsOthers b s (becomeVacant b s) := (becomeVacant_actsOn b (fun _ => False) s).records
  have hnone (h : ¬ (s.run.state = .running ∧ (bayAt s b).noDiesel = true)) :
      (becomeVacant b s).passDue = false ∨ (becomeVacant b s).run.state ≠ .running := by
    rw [hdue, hrun]
    by_cases hr : s.run.state = .running
    · exact .inl (Bool.eq_false_iff.mpr fun k => h ⟨hr, k⟩)
    · exact .inr hr
  have hpass (h : (becomeVacant b s).passDue = false ∨ (becomeVacant b s).run.state ≠ .running) {c : Bay} (hc : c ≠ b) :
      bayAt (runPass (becomeVacant b s)) c = bayAt s c := by
    rw [bayAt_congr (runPass_of_none h).1, hother c hc]
  refine ⟨settle_emptied (bayAt_becomeVacant_same b s), fun h => ?_, fun c hc h hr => ?_, fun c hc hr => ?_⟩
  · rw [((settled_settle _).2 (hnone h)).1, harb]
  · rcases settle_cases (becomeVacant b s) with ⟨-, k⟩ | ⟨hh, k, -⟩
    · rw [k c, hpass (hnone h) hc]
    · rw [hrun] at hh
      rw [k, hh] at hr
      cases hr
  · rcases settle_cases (becomeVacant b s) with ⟨k, -⟩ | ⟨hh, -, k⟩
    · exact absurd (by rw [k, hrun]) hr
    · rw [k c, hpass (.inr (by rw [hh]; nofun)) hc]
      rfl

/-- A bay made DEPARTING under the event of R145, at the end of the change, where nothing ends at once (R8). -/
theorem settle_departed {v : State} (hv : v = withBayRecord b { bayAt s b with occupancy := .departing } s)
    (hrest : atRest s) : businessEnded .depart .abortedDepart v (settle (endBusiness b .depart v)) b
      ∧ (¬ endsAtOnce s b → (bayAt (settle (endBusiness b .depart v)) b).occupancy = .departing
          ∧ (settle (endBusiness b .depart v)).arb = (endBusiness b .depart v).arb) := by
  have hrestv : atRest v := by rw [hv]; exact hrest
  have hbv : bayAt v b = { bayAt s b with occupancy := .departing } := by rw [hv, bayAt_withBayRecord_same]
  refine ⟨businessEnded_settle (.inr hrestv) .depart, fun hn => ?_⟩
  have hn' : ¬ endsAtOnce v b := by
    rw [endsAtOnce, hbv, hv]
    exact hn
  refine ⟨?_, settle_endBusiness_arb hrestv hn' .depart⟩
  obtain ⟨d, hd⟩ := endBusiness_record (fun k => hn' k.2) .depart
  have hend := (undisturbed_settle (noPassFor_endBusiness (b := b) (.inr hrestv) .depart)).record
  rw [hd, hbv] at hend
  rcases hend with k | k <;> rw [k]
  rfl

end Sys2Proof.Machine

namespace Sys2Proof.Proofs

open Sys2Proof.Machine Sys2Proof.Claims

/-- Settles O49: WITHDRAW is an event of R145, FORCE RELEASE the end of an episode. -/
theorem withdrawAndForceRelease : Obligations.WithdrawAndForceRelease := by
  refine ⟨fun s st hst => ⟨fun b ho h => ?_, fun b hrest h hw => ?_, fun b hrest h hn => ?_, fun b h => ?_, fun x hx => ?_⟩,
    fun s => ⟨fun b h => ?_, fun b h => ?_, fun x hx => ?_⟩⟩
  · have hok : withdrawable (bayAt s b).defrost.state = true := by
      rcases h with h | h | ⟨h, -⟩ <;> rw [h] <;> rfl
    obtain ⟨-, honce, -⟩ := businessEnded_writeReply (businessEnded_settle (s := taking st s) (b := b) (.inl h) .withdraw)
      st (plain .done)
    obtain ⟨hno, -, hd⟩ := honce h
    exact ⟨_, exec_withdraw hst hok, reply_writeReply_done _ _ _, hd ho, hno⟩
  · have hok : withdrawable (bayAt s b).defrost.state = true := by rw [h]; rfl
    obtain ⟨-, -, hsent, -⟩ := businessEnded_writeReply
      (businessEnded_settle (s := taking st s) (b := b) (.inr hrest) .withdraw) st (plain .done)
    refine ⟨_, exec_withdraw hst hok, reply_writeReply_done _ _ _, hsent h hw, ?_⟩
    refine settled_endBusiness_arb (s := taking st s) (b := b) hrest (not_endsAtOnce h nofun nofun fun _ => hw) ?_
    rw [endBusiness_of_sent (s := taking st s) h hw]
    rfl
  · have hok : withdrawable (bayAt s b).defrost.state = true := by rw [h]; rfl
    obtain ⟨-, -, -, hactive, -⟩ := businessEnded_writeReply
      (businessEnded_settle (s := taking st s) (b := b) (.inr hrest) .withdraw) st (plain .done)
    obtain ⟨hd, -, hstop⟩ := hactive h
    refine ⟨_, exec_withdraw hst hok, reply_writeReply_done _ _ _, hd, ?_, hstop hn⟩
    refine settled_endBusiness_arb (s := taking st s) (b := b) hrest (not_endsAtOnce h nofun nofun nofun) ?_
    rw [endBusiness_of_active (s := taking st s) h, stopEpisode_arb]
    rfl
  · have hp : permitted .withdraw st = true := by rcases hst with rfl | rfl <;> rfl
    refine exec_refused (k := .withdraw) (owner := withdrawOwner [bayByte b]) rfl hp rfl ?_
    rw [withdrawOwner_bayByte]
    refine if_neg ?_
    show ¬ withdrawable (bayAt s b).defrost.state = true
    rcases h with h | h | h <;> rw [h] <;> nofun
  · have hp : permitted .withdraw st = true := by rcases hst with rfl | rfl <;> rfl
    exact exec_refused (k := .withdraw) (owner := withdrawOwner [x]) rfl hp rfl (withdrawOwner_of_noBay hx _)
  · have hno := inNoCollection_endEpisode b .forced (taking .feeder s)
    have hafter := undisturbed_settle (noPassFor_of_inNoCollection hno)
    have hrecord := bayAt_endEpisode b .forced (taking .feeder s)
    refine ⟨_, exec_forceRelease h, reply_writeReply_done _ _ _, ?_, fun ho => ?_, fun ho => ?_,
      settled_writeReply_settle _ _ _, fun f hf => ?_⟩
    · obtain ⟨hq, ha, hs⟩ := hno
      exact ⟨fun q hq' hb => hq q ((hafter.queue q hb).mp hq') hb, fun hb => ha (hafter.active.mp hb),
        fun ⟨f, e, he, hb⟩ => hs ⟨f, e, (hafter.stack f e hb).mp he, hb⟩⟩
    · rw [if_neg (show ¬ (bayAt (taking .feeder s) b).occupancy = .departing from ho)] at hrecord
      rw [bayAt_congr (writeReply_bays _ _ _)]
      have hend := hafter.record
      rw [hrecord] at hend
      rcases hend with k | k <;> rw [k] <;> exact ⟨rfl, rfl⟩
    · rw [if_pos (show (bayAt (taking .feeder s) b).occupancy = .departing from ho)] at hrecord
      rw [bayAt_congr (writeReply_bays _ _ _)]
      exact settle_emptied (r := bayAt s b) hrecord
    · exact endEpisode_owes .forced (countedOnFeeder_of (d := (bayAt s b).defrost) hf (by rw [h]; rfl))
  · refine exec_refused (k := .forceRelease) (owner := forceReleaseOwner [bayByte b]) rfl rfl rfl ?_
    rw [forceReleaseOwner_bayByte]
    exact if_neg h
  · exact exec_refused (k := .forceRelease) (owner := forceReleaseOwner [x]) rfl rfl rfl (forceReleaseOwner_of_noBay hx _)

/-- Settles O18: an IDLE or HUNG bay is emptied, any other becomes DEPARTING under the event of R145. -/
theorem departFollowsDefrostState : Obligations.DepartFollowsDefrostState := by
  refine ⟨fun s b hrest ho => ?_, fun s b h1 h2 => ?_, fun s x hx => ?_⟩
  · have hrun : (departBay b (taking .gate s)).run = s.run := (departBay_actsOn b (fun _ => False) _).run
    have heq (h1 : (bayAt s b).defrost.state ≠ .idle) (h2 : (bayAt s b).defrost.state ≠ .hung) :=
      departBay_eq (s := taking .gate s) (b := b) h1 h2
    have hdepart := settle_departed (s := taking .gate s) (b := b) rfl hrest
    generalize hv : withBayRecord b { bayAt (taking .gate s) b with occupancy := .departing } (taking .gate s) = v
      at heq hdepart
    have hbv : bayAt v b = { bayAt s b with occupancy := .departing } := by rw [← hv, bayAt_withBayRecord_same]; rfl
    have hdef : (bayAt v b).defrost = (bayAt s b).defrost := by rw [hbv]
    have hstack : onAStack v b ↔ onAStack s b := by unfold onAStack feederAt; rw [← hv]; rfl
    have hwaits : startWaits v b ↔ startWaits s b := by unfold startWaits; rw [← hv]; rfl
    have hnoOrder : noOrder v b ↔ noOrder s b := by unfold noOrder; rw [← hv]; rfl
    obtain ⟨⟨-, honce, hsent, hactive, hoff, hon⟩, hstay⟩ := hdepart
    rw [hdef] at hsent hactive hoff hon
    refine ⟨_, exec_depart ho, reply_writeReply_done _ _ _, fun h => ?_, fun h => ?_, fun h => ?_, fun h _ => ?_,
      fun h => ⟨?_, fun f hf => ?_⟩, fun h => ?_, fun h hn => ?_, fun h hw => ?_, fun h hs => ?_, fun h hs => ?_⟩
    · have hvacant := settle_becomeVacant (s := taking .gate s) hrest b
      rw [departBay_of_idle (s := taking .gate s) h]
      obtain ⟨h1, h2, h3, h4⟩ := hvacant
      exact ⟨h1, h2, h3, h4, settled_becomeVacant (settled_writeReply_settle _ _ _) hrest⟩
    · have hhalt := settle_run_halting (s := departBay b (taking .gate s)) (by rw [hrun]; exact h)
      rw [hrun] at hhalt
      exact hhalt
    · exact (settle_run_of_ne (by rw [hrun]; exact h)).trans hrun
    · rw [departBay_of_hung (s := taking .gate s) h]
      rw [bayAt_congr (writeReply_bays _ _ _)]
      exact settle_emptied (r := bayAt s b) (bayAt_departHung b (taking .gate s))
    · rw [departBay_of_hung (s := taking .gate s) h]
      exact settled_writeReply_settle _ _ _
    · exact departHung_owes (countedOnFeeder_of (d := (bayAt s b).defrost) hf (by rw [h]; rfl))
    · have hstate : (bayAt s b).defrost.state ≠ .idle ∧ (bayAt s b).defrost.state ≠ .hung := by
        rcases h with h | h | ⟨h, -⟩ <;> rw [h] <;> exact ⟨nofun, nofun⟩
      rw [heq hstate.1 hstate.2]
      have h' : endsAtOnce v b := by
        rw [endsAtOnce, hdef, hwaits]
        exact h
      obtain ⟨hno, hempty, -⟩ := honce h'
      rw [hbv] at hempty
      exact ⟨hempty rfl, hno⟩
    · rw [heq (by rw [h]; nofun) (by rw [h]; nofun)]
      obtain ⟨hd, ha, hstop⟩ := hactive h
      exact ⟨(hstay (not_endsAtOnce h nofun nofun nofun)).1, congrArg Defrost.state hd, congrArg Defrost.reason hd, ha,
        hstop (hnoOrder.mpr hn)⟩
    · rw [heq (by rw [h]; nofun) (by rw [h]; nofun)]
      exact ⟨(hstay (not_endsAtOnce h nofun nofun fun _ => hw)).1, hsent h (hwaits.not.mpr hw)⟩
    · rw [heq (by rw [h]; nofun) (by rw [h]; nofun)]
      exact ⟨(hstay (not_endsAtOnce h nofun nofun nofun)).1, hoff h (hstack.not.mpr hs)⟩
    · rw [heq (by rw [h]; nofun) (by rw [h]; nofun)]
      obtain ⟨hocc, harb⟩ := hstay (not_endsAtOnce h nofun nofun nofun)
      refine ⟨hocc, (hon h (hstack.mpr hs)).1, fun f => ?_⟩
      have hrecorded : (settle (endBusiness b .depart v)).arb = (recordEnd b .depart v).arb := by
        rw [harb, endBusiness_of_stopping_on (by rw [hdef]; exact h) (hstack.mpr hs)]
      show ((settle (endBusiness b .depart v)).arb.feeders[f.val]).stack = _
      rw [hrecorded]
      show (feederAt (recordEnd b .depart v) f).stack = _
      rw [feederAt_recordEnd, ← hv]
      rfl
  · refine exec_refused (k := .depart) (owner := departOwner [bayByte b]) rfl rfl rfl ?_
    rw [departOwner_bayByte]
    exact if_neg (not_or.mpr ⟨h1, h2⟩)
  · exact exec_refused (k := .depart) (owner := departOwner [x]) rfl rfl rfl (departOwner_of_noBay hx _)

end Sys2Proof.Proofs
end

section
/-! HALT ROUNDS (O35): the event of R145 on every bay in one change. -/

namespace Sys2Proof.Machine

open Sys2Proof.Claims

variable {b c : Bay} {s t u w : State}

/-! ## The event on every bay in turn -/

/-- What precedes an event in its change and is not about the bay. -/
theorem businessEnded_pre_sameFor {r : StopReason} {o : DefrostOutcome} (h : businessEnded r o u t b) (k : SameFor b s u)
    (hrun : u.run = s.run) : businessEnded r o s t b :=
  businessEnded_pre h (by rw [hrun]) (fun f _ he => k.mem_stack f he) (fun _ hx => k.mem_orders hx) (by rw [k.record])
    (by rw [k.record]) (by rw [k.record])

/-- The event with reason r on a list of bays in turn. -/
def endAll (r : StopReason) (l : List Bay) (s : State) : State := l.foldl (fun t x => endBusiness x r t) s

variable {r : StopReason}

/-- A change taken for a list of bays in turn, each about its own bay. -/
theorem sameFor_foldBays {K : Category → Prop} {g : Bay → State → State} (hg : ∀ x s, ActsOn x K s (g x s)) (l : List Bay)
    (hc : c ∉ l) (s : State) : SameFor c s (l.foldl (fun t x => g x t) s) ∧ Undisturbed c s (l.foldl (fun t x => g x t) s)
      ∧ (l.foldl (fun t x => g x t) s).run = s.run := by
  induction l generalizing s with
  | nil => exact ⟨.refl c s, .refl c s, rfl⟩
  | cons x l ih =>
    have hx : c ≠ x := fun h => hc (h ▸ List.mem_cons_self)
    obtain ⟨h1, h2, h3⟩ := ih (fun h => hc (List.mem_cons_of_mem x h)) (g x s)
    exact ⟨((hg x s).sameFor hx).trans h1, ((hg x s).undisturbed hx).trans h2, h3.trans (hg x s).run⟩

/-- One bay's part in such a change: the others' parts before and after it leave it alone. -/
theorem foldBays_split {K : Category → Prop} {g : Bay → State → State} (hg : ∀ x s, ActsOn x K s (g x s)) (l : List Bay)
    (hl : l.Nodup) (hb : b ∈ l) (s : State) : ∃ u, SameFor b s u ∧ u.run = s.run
      ∧ SameFor b (g b u) (l.foldl (fun t x => g x t) s) ∧ Undisturbed b (g b u) (l.foldl (fun t x => g x t) s) := by
  induction l generalizing s with
  | nil => cases hb
  | cons x l ih =>
    obtain ⟨hx, hl⟩ := List.nodup_cons.mp hl
    by_cases hxb : b = x
    · subst hxb
      obtain ⟨h1, h2, -⟩ := sameFor_foldBays hg l hx (g b s)
      exact ⟨s, .refl b s, rfl, h1, h2⟩
    · obtain ⟨u, h1, h2, h3, h4⟩ := ih hl ((List.mem_cons.mp hb).resolve_left hxb) (g x s)
      exact ⟨u, ((hg x s).sameFor hxb).trans h1, h2.trans (hg x s).run, h3, h4⟩

theorem endAll_split (hr : r ≠ .timeout) (l : List Bay) (hl : l.Nodup) (hb : b ∈ l) (s : State) :
    ∃ u, SameFor b s u ∧ u.run = s.run ∧ SameFor b (endBusiness b r u) (endAll r l s)
      ∧ Undisturbed b (endBusiness b r u) (endAll r l s) :=
  foldBays_split (fun x s => endBusiness_actsOn_of_ne hr x (fun _ => False) s) l hl hb s

theorem undisturbed_withFreeOrder (g : State → State) (s : State) (c : Bay) : Undisturbed c (g s) (withFreeOrder g s) := by
  rcases withFreeOrder_cases g s with k | ⟨q, hq, k⟩ <;> rw [k]
  · exact .refl c _
  · exact ⟨.inl rfl, fun _ _ => .rfl, .rfl, fun _ _ _ => .rfl, fun h => h.imp hq.mem_iff.mpr id⟩

theorem withFreeOrder_frame (g : State → State) (s : State) : (withFreeOrder g s).run = (g s).run
    ∧ (withFreeOrder g s).passDue = (g s).passDue ∧ (withFreeOrder g s).arb = (g s).arb
    ∧ (withFreeOrder g s).alert = (g s).alert ∧ (withFreeOrder g s).loop.round = (g s).loop.round
    ∧ (withFreeOrder g s).loop.nextRound = (g s).loop.nextRound := by
  rcases withFreeOrder_cases g s with k | ⟨q, -, k⟩ <;> rw [k] <;> exact ⟨rfl, rfl, rfl, rfl, rfl, rfl⟩

/-- A bay whose business an event has ended waits for no current (R145). -/
theorem businessEnded_notWaiting {o : DefrostOutcome} (h : businessEnded r o s t b) :
    (bayAt t b).defrost.state ≠ .queued ∧ (bayAt t b).defrost.state ≠ .shed := by
  obtain ⟨hidle, honce, hsent, hactive, hoff, hon⟩ := h
  have hend (he : endsAtOnce s b) : (bayAt t b).defrost.state = .idle := by
    obtain ⟨-, hempty, hout⟩ := honce he
    by_cases ho : (bayAt s b).occupancy = .departing
    · rw [hempty ho]
      rfl
    · rw [hout ho]
      rfl
  have hkept {x : DefrostState} (hx : (bayAt t b).defrost.state = x) (h1 : x ≠ .queued) (h2 : x ≠ .shed) :
      (bayAt t b).defrost.state ≠ .queued ∧ (bayAt t b).defrost.state ≠ .shed := by
    rw [hx]
    exact ⟨h1, h2⟩
  cases hs : (bayAt s b).defrost.state with
  | idle => exact hkept ((congrArg Defrost.state (hidle (.inl hs))).trans hs) nofun nofun
  | hung => exact hkept ((congrArg Defrost.state (hidle (.inr hs))).trans hs) nofun nofun
  | queued => exact hkept (hend (.inl hs)) nofun nofun
  | shed => exact hkept (hend (.inr (.inl hs))) nofun nofun
  | active => exact hkept (congrArg Defrost.state (hactive hs).1) nofun nofun
  | starting =>
    by_cases hw : startWaits s b
    · exact hkept (hend (.inr (.inr ⟨hs, hw⟩))) nofun nofun
    · exact hkept ((congrArg Defrost.state (hsent hs hw)).trans hs) nofun nofun
  | stopping =>
    by_cases hst : onAStack s b
    · exact hkept ((congrArg Defrost.state (hon hs hst).1).trans hs) nofun nofun
    · exact hkept ((congrArg Defrost.state (hoff hs hst)).trans hs) nofun nofun

/-! ## The HALT change -/

/-- The state in which the HALT change ends every bay's business: HALTING, the schedule and the round over (R24, R55). -/
def halting (s : State) : State := stopSchedule (setRunState .halting s)

/-- The HALT change before its end. -/
def haltEnded (s : State) : State := withFreeOrder (forBays fun b => endBusiness b .halt) (halting s)

theorem haltRunning_eq (s : State) : haltRunning s = settle (haltEnded s) := rfl

theorem forBays_eq_endAll (r : StopReason) (s : State) : forBays (fun b => endBusiness b r) s = endAll r allBays s := rfl

theorem haltEnded_run (s : State) : (haltEnded s).run = { s.run with state := .halting } := by
  have hfold : (endAll .halt allBays (halting s)).run = (halting s).run := by
    unfold endAll
    exact foldl_inv (P := fun t : State => t.run = (halting s).run)
      (fun t x ht => (endBusiness_actsOn_of_ne (r := .halt) nofun x (fun _ => False) t).run.trans ht) allBays rfl
  rw [haltEnded, (withFreeOrder_frame _ _).1, forBays_eq_endAll, hfold]
  rfl

theorem noPassFor_of_notRunning (h : s.run.state ≠ .running) (b : Bay) : NoPassFor s b := .inr (.inl h)

theorem haltEnded_notRunning (s : State) : (haltEnded s).run.state ≠ .running := by
  rw [haltEnded_run]
  nofun

/-- The HALT change takes every bay by the table of R145. -/
theorem businessEnded_haltRunning (s : State) (b : Bay) : businessEnded .halt .halted s (haltRunning s) b := by
  have hr : StopReason.halt ≠ .timeout := nofun
  obtain ⟨u, h1, h2, -, h4⟩ := endAll_split hr allBays (List.nodup_finRange 40) (mem_allBays b) (halting s)
  have hfree := undisturbed_withFreeOrder (forBays fun b => endBusiness b .halt) (halting s) b
  have hafter := (h4.trans hfree).trans (undisturbed_settle (noPassFor_of_notRunning (haltEnded_notRunning s) b))
  have hended := businessEnded_pre_sameFor (businessEnded_post (businessEnded_endBusiness b .halt u) hafter) h1 h2
  exact businessEnded_pre hended rfl (fun _ _ _ => .rfl) (fun _ _ => .rfl) rfl rfl rfl

/-- The record of a bay that the HALT change does not empty, before the change's end. -/
theorem record_haltEnded (h : ¬ ((bayAt s b).occupancy = .departing ∧ endsAtOnce s b)) :
    ∃ d, bayAt (haltEnded s) b = { bayAt s b with defrost := d } := by
  have hr : StopReason.halt ≠ .timeout := nofun
  obtain ⟨u, h1, -, h3, -⟩ := endAll_split hr allBays (List.nodup_finRange 40) (mem_allBays b) (halting s)
  have hb : bayAt u b = bayAt s b := h1.record
  have hn : ¬ ((bayAt u b).occupancy = .departing ∧ endsAtOnce u b) := by
    rw [endsAtOnce, hb, h1.startWaits]
    exact h
  obtain ⟨d, hd⟩ := endBusiness_record hn .halt
  have hrecord : bayAt (haltEnded s) b = bayAt (endAll .halt allBays (halting s)) b :=
    bayAt_congr (withFreeOrder_bays _ _) b
  exact ⟨d, by rw [hrecord, h3.record, hd, hb]⟩

theorem haltEnded_loop (s : State) : (haltEnded s).loop.round = none ∧ (haltEnded s).loop.nextRound = none := by
  have hfold : (endAll .halt allBays (halting s)).loop.round = none ∧ (endAll .halt allBays (halting s)).loop.nextRound = none := by
    unfold endAll
    exact foldl_inv (P := fun t : State => t.loop.round = none ∧ t.loop.nextRound = none)
      (fun t x ht => by rw [(endBusiness_actsOn_of_ne (r := .halt) nofun x (fun _ => False) t).loop]; exact ht) allBays
      ⟨rfl, rfl⟩
  obtain ⟨-, -, -, -, hround, hnext⟩ := withFreeOrder_frame (forBays fun b => endBusiness b .halt) (halting s)
  rw [haltEnded, hround, hnext, forBays_eq_endAll]
  exact hfold

/-- Outside RUNNING the end of a change keeps a schedule that has stopped (R55). -/
theorem settle_stopped (hr : s.run.state ≠ .running) (h1 : s.loop.round = none) (h2 : s.loop.nextRound = none) :
    (settle s).loop.round = none ∧ (settle s).loop.nextRound = none := by
  have hpass : (runPass s).loop.round = none ∧ (runPass s).loop.nextRound = none := by
    rw [(runPass_of_none (.inr hr)).2.2]
    exact ⟨h1, h2⟩
  have hround : (endRound (runPass s)).loop.round = none ∧ (endRound (runPass s)).loop.nextRound = none := by
    rcases endRound_cases (runPass s) with h | ⟨_, -, -, -, h⟩ <;> rw [h]
    · exact hpass
    · exact ⟨rfl, hpass.2⟩
  rw [settle, haltTest_loop]
  rcases serveLoop_cases (endRound (runPass s)) with h | ⟨o, rest, -, -, -, h⟩ | ⟨x, -, hrun, -⟩
  · rw [h]; exact hround
  · rw [h]; exact hround
  · rw [endRound_run, runPass_run] at hrun
    exact absurd hrun hr

theorem haltRunning_run (s : State) : (haltRunning s).run = { s.run with state := (haltRunning s).run.state }
    ∧ ((haltRunning s).run.state = .halting ∨ (haltRunning s).run.state = .halted)
    ∧ ((haltRunning s).run.state = .halted ↔ haltReady (haltRunning s)) := by
  have hend := haltEnded_run s
  rw [haltRunning_eq]
  generalize haltEnded s = w at hend
  have hrun := settle_run w
  obtain ⟨hhalted, hstays⟩ := settle_run_halting (s := w) (by rw [hend])
  rw [hend] at hrun hstays
  refine ⟨hrun, ?_, hhalted⟩
  by_cases k : (settle w).run.state = .halted
  · exact .inr k
  · exact .inl (by rw [hstays k])

theorem haltRunning_loop (s : State) : (haltRunning s).loop.round = none ∧ (haltRunning s).loop.nextRound = none := by
  obtain ⟨hround, hnext⟩ := haltEnded_loop s
  have hrun := haltEnded_notRunning s
  rw [haltRunning_eq]
  generalize haltEnded s = w at hround hnext hrun
  exact settle_stopped hrun hround hnext

/-- A HALT change that enters HALTED ends what each door watch knows (R107). -/
theorem haltRunning_door (hh : (haltRunning s).run.state = .halted)
    (hn : ¬ ((bayAt s b).occupancy = .departing ∧ endsAtOnce s b)) :
    (bayAt (haltRunning s) b).door = doorLost (bayAt s b).door := by
  obtain ⟨d, hd⟩ := record_haltEnded hn
  have hend := haltEnded_run s
  rw [haltRunning_eq] at hh ⊢
  generalize haltEnded s = w at hd hend hh
  have hpass := (runPass_of_none (s := w) (.inr (by rw [hend]; nofun))).1
  rcases settle_cases w with ⟨k, -⟩ | ⟨-, -, k⟩
  · rw [k, hend] at hh
    cases hh
  · rw [k b, bayAt_congr hpass, hd]
    rfl

theorem exec_haltRounds (h : s.run.state = .running) : exec (.haltRounds .office []) s
    = .next (writeReply .office (plain .done) (haltRunning (taking .office s))) := by
  have hown : haltRoundsOwner (taking .office s) = (plain .done, haltRunning (taking .office s)) := by
    unfold haltRoundsOwner
    rw [show (taking .office s).run.state = .running from h]
  rw [exec_taken (k := .haltRounds) (args := []) (owner := haltRoundsOwner) rfl rfl rfl, hown]

theorem haltRoundsOwner_refused (h : s.run.state ≠ .running) : haltRoundsOwner s = refuse .refusedState s := by
  unfold haltRoundsOwner
  split
  · next k => exact absurd k h
  · rfl

end Sys2Proof.Machine

namespace Sys2Proof.Proofs

open Sys2Proof.Machine Sys2Proof.Claims

/-- Settles O35: the event of R145 on every bay, with the run state HALTING, so that no pass follows. -/
theorem haltRoundsEndsAllBusiness : Obligations.HaltRoundsEndsAllBusiness := by
  refine ⟨fun s _ hr => ?_, fun s hr => ?_, fun s => ⟨fun hr hh => ?_, fun h => ?_⟩⟩
  · have hended (b : Bay) : businessEnded .halt .halted s (haltRunning (taking .office s)) b :=
      businessEnded_pre (businessEnded_haltRunning (taking .office s) b) rfl (fun _ _ _ => .rfl) (fun _ _ => .rfl) rfl rfl rfl
    obtain ⟨hrun, hstate, hhalted⟩ := haltRunning_run (taking .office s)
    obtain ⟨hround, hnext⟩ := haltRunning_loop (taking .office s)
    have hdoor := fun hh (b : Bay) hn => haltRunning_door (s := taking .office s) (b := b) hh hn
    have hexec := exec_haltRounds hr
    generalize haltRunning (taking .office s) = w at hended hrun hstate hhalted hround hnext hdoor hexec
    exact ⟨_, hexec, reply_writeReply_done _ _ _, hnext, hround, by rw [writeReply_run, hrun]; rfl,
      by rw [writeReply_run, hrun]; rfl, by rw [writeReply_run, hrun]; rfl, fun b => businessEnded_notWaiting (hended b),
      hstate, hhalted, hdoor, fun b => businessEnded_writeReply (hended b) _ _⟩
  · exact exec_refused (k := .haltRounds) (args := []) (owner := haltRoundsOwner) rfl rfl rfl (haltRoundsOwner_refused hr)
  · have hentry : haltTest s = mapBays loseDoorOf { s with run := { s.run with state := .halted } } :=
      if_pos ⟨hr, (haltDone_iff s).mpr hh⟩
    refine ⟨haltTest s, rfl, fun b => ?_, ?_⟩ <;> rw [hentry]
    · rw [bayAt_mapBays]
      rfl
    · rfl
  · have hnone : haltTest s = s := by
      refine if_neg fun ⟨k1, k2⟩ => ?_
      rcases h with h | h
      · exact h k1
      · exact h ((haltDone_iff s).mp k2)
    show Host.Outcome.next (haltTest s) = _
    rw [hnone]

end Sys2Proof.Proofs
end

section
/-! The ends of polls: failed ones and voided exchanges (O38). -/

namespace Sys2Proof.Machine

open Sys2Proof.Claims

variable {b c : Bay} {s t u w : State}

/-! ## Commands that end an exchange -/

theorem awaitingReply_of {x : Exchange} (h : s.loop.exchange = some x) (hp : x.phase = .awaiting) :
    awaitingReply s = some x := by
  simp only [awaitingReply, h, hp, if_true]

/-- A command that ends an exchange awaiting its reply ends it with the judged result (R38, R39). -/
theorem exec_endsWith {x : Exchange} {j : Judged} {i : Instr} (h : s.loop.exchange = some x) (hp : x.phase = .awaiting)
    (hi : endsWith x j i) : exec i s = .next (endExchange x j s) := by
  have hx := awaitingReply_of h hp
  rcases hi with ⟨chars, kind, frame, rfl, ha, rfl⟩ | ⟨kind, rfl, h1, h2, rfl⟩ | ⟨rfl, rfl⟩
  · show execReplyFrameComplete chars s = _
    simp only [execReplyFrameComplete, hx, ha]
  · have hk : replyKindOf kind = none := by
      unfold replyKindOf
      rw [if_neg h1, if_neg h2]
    show execWrongKindByte kind s = _
    simp only [execWrongKindByte, hx, hk]
  · show execReplyWindowClose s = _
    simp only [execReplyWindowClose, hx]

theorem judge_failed {x : Exchange} {kind : ReplyKind} {frame : List RxChar} {o : ExchangeOutcome}
    (h : judge x kind frame = .failed o) : o ≠ .answered := by
  rintro rfl
  unfold judge at h
  dsimp only at h
  repeat' split at h
  all_goals cases h

/-- The gap after an exchange, in milliseconds (R37). -/
def gapOf : Judged → Nat
  | .failed _ => 20
  | _ => 2

/-- A result that is no answer has an outcome other than ANSWERED, and so the longer gap (R37). -/
theorem gap_of_endsWith {x : Exchange} {j : Judged} {i : Instr} (hi : endsWith x j i) :
    gapAfter (judgedOutcome j) = gapOf j := by
  cases j with
  | telemetry snap => rfl
  | ack r => rfl
  | failed o =>
    have ho : o ≠ .answered := by
      rcases hi with ⟨chars, kind, frame, -, -, hj⟩ | ⟨kind, -, -, -, hj⟩ | ⟨-, hj⟩
      · exact judge_failed hj
      · cases hj; nofun
      · cases hj; nofun
    cases o with
    | answered => exact absurd rfl ho
    | _ => rfl

/-- The gap of an ended exchange starts (R37). -/
def gapStarted (x : Exchange) (j : Judged) (s : State) : State :=
  { s with loop := { s.loop with exchange := some { x with phase := .gap (gapAfter (judgedOutcome j)) } } }

theorem endExchange_eq (x : Exchange) (j : Judged) (s : State) : endExchange x j s
    = settle (if x.voided then gapStarted x j s else exchangeResult x j (gapStarted x j s)) := rfl

/-! ## The loop at the end of a change while an exchange holds it -/

theorem settle_exchange_of_busy (h : s.loop.exchange.isSome = true) : (settle s).loop.exchange = s.loop.exchange := by
  have hpass : (runPass s).loop.exchange = s.loop.exchange := by rw [(runPass_frame s).loop]
  have hround : (endRound (runPass s)).loop.exchange = s.loop.exchange := by rw [endRound_exchange, hpass]
  rw [settle, haltTest_loop, serveLoop_of_busy (by rw [hround]; exact h), hround]

theorem settle_orders_of_busy (h : s.loop.exchange.isSome = true) : (settle s).loop.orders = (runPass s).loop.orders := by
  have hpass : (runPass s).loop.exchange = s.loop.exchange := by rw [(runPass_frame s).loop]
  have hround : (endRound (runPass s)).loop.exchange = s.loop.exchange := by rw [endRound_exchange, hpass]
  rw [settle, haltTest_loop, serveLoop_of_busy (by rw [hround]; exact h), endRound_orders]

/-- An ended exchange is no longer in flight, so nothing that it brings voids it; its gap holds the loop to the end of the
change (R3, R37). -/
theorem endExchange_exchange (x : Exchange) (j : Judged) (s : State) :
    (endExchange x j s).loop.exchange = some { x with phase := .gap (gapAfter (judgedOutcome j)) } := by
  have hresult : (if x.voided then gapStarted x j s else exchangeResult x j (gapStarted x j s)).loop.exchange
      = some { x with phase := .gap (gapAfter (judgedOutcome j)) } := by
    split
    · rfl
    · rcases (exchangeResult_actsOn x j (gapStarted x j s)).exchange with h | ⟨e, he, -, hf, -⟩
      · exact h
      · cases he
        cases hf
  rw [endExchange_eq, settle_exchange_of_busy (by rw [hresult]; rfl), hresult]

/-! ## Voided exchanges -/

/-- A change that owes no pass and cannot enter HALTED leaves records and arbiter. -/
theorem settle_of_rest (h : atRest s) (hr : s.run.state ≠ .halting) :
    (∀ c, bayAt (settle s) c = bayAt s c) ∧ (settle s).arb = s.arb ∧ (settle s).run = s.run := by
  obtain ⟨hb, -, -⟩ := runPass_of_none (s := s) (.inl h)
  refine ⟨fun c => ?_, settle_arb_of_atRest h, settle_run_of_ne hr⟩
  rcases settle_cases s with ⟨-, k⟩ | ⟨k, -, -⟩
  · rw [k c, bayAt_congr hb]
  · exact absurd k hr

/-! ## Failed polls -/

/-- A poll that was not answered, before the end of its change. -/
theorem pollMissed_eq (b : Bay) (o : ExchangeOutcome) (s : State) : pollMissed b o s
    = if (bayAt s b).link ≠ .lost ∧ s.run.settings.lossLimit ≤ (bayAt s b).missCount + 1
      then becomeLost b (modBay b (missedRecord s.run.settings.lossLimit o) s)
      else modBay b (missedRecord s.run.settings.lossLimit o) s := by
  have hlost : (missedRecord s.run.settings.lossLimit o (bayAt s b)).link = .lost
      ↔ (bayAt s b).link = .lost ∨ s.run.settings.lossLimit ≤ (bayAt s b).missCount + 1 := by
    unfold missedRecord
    dsimp only
    split
    · next h => exact ⟨fun _ => h, fun _ => rfl⟩
    · next h => exact ⟨fun k => .inl k, fun k => absurd k h⟩
  unfold pollMissed
  simp only [bayAt_modBay_same, hlost]
  refine if_congr ?_ rfl rfl
  tauto

theorem missedRecord_within {limit : Nat} {r : BayRecord} (h1 : r.link ≠ .lost) (h2 : r.missCount + 1 < limit)
    (o : ExchangeOutcome) : missedRecord limit o r
      = { r with lastExchange := o, roundsSince := min (r.roundsSince + 1) 255, missCount := r.missCount + 1 } := by
  unfold missedRecord
  dsimp only
  exact if_neg fun k => k.elim h1 fun k => by omega

theorem missedRecord_lost {limit : Nat} {r : BayRecord} (h : r.link = .lost ∨ limit ≤ r.missCount + 1)
    (o : ExchangeOutcome) : missedRecord limit o r
      = { r with lastExchange := o, roundsSince := min (r.roundsSince + 1) 255, missCount := limit, link := .lost } := by
  unfold missedRecord
  dsimp only
  rw [if_pos h]

/-- A bay that becomes LOST, before the event of R145: LINK raised, its door watch's knowledge lost (R35, R46, R107). -/
def lostTold (b : Bay) (s : State) : State := modBay b loseDoorOf (raiseAlert .link (bayElement b) s)

theorem becomeLost_eq (b : Bay) (s : State) : becomeLost b s = endBusiness b .link (lostTold b s) := rfl

theorem bayAt_lostTold (b : Bay) (s : State) : bayAt (lostTold b s) b = loseDoorOf (bayAt s b) := bayAt_modBay_same b _ _

/-- A bay that becomes LOST and is not emptied keeps all but its door watch and its defrost record. -/
theorem record_becomeLost (h : ¬ ((bayAt s b).occupancy = .departing ∧ endsAtOnce s b)) :
    ∃ d, bayAt (becomeLost b s) b = { loseDoorOf (bayAt s b) with defrost := d } := by
  have hb := bayAt_lostTold b s
  obtain ⟨d, hd⟩ := endBusiness_record (s := lostTold b s) (b := b) (by rw [endsAtOnce, hb]; exact h) .link
  exact ⟨d, by rw [becomeLost_eq, hd, hb]⟩

/-- LINK is raised for a bay that becomes LOST (R46). -/
theorem alert_becomeLost (b : Bay) (s : State) :
    (becomeLost b s).alert = raiseIn s.run.settings.nesting .link (bayElement b) s.alert := by
  rw [becomeLost_eq, (endBusiness_actsOn_of_ne (r := .link) nofun b (fun _ => False) (lostTold b s)).alert_eq]
  rfl

/-- The table of R145 with reason LINK for a bay that becomes LOST, at the end of a change. -/
theorem businessEnded_becomeLost (h : atRest s) :
    businessEnded .link .abortedLink s (settle (becomeLost b s)) b := by
  have hb := bayAt_lostTold b s
  have hended := businessEnded_settle (s := lostTold b s) (b := b) (.inr h) .link
  refine businessEnded_pre hended rfl (fun _ _ _ => .rfl) (fun _ _ => .rfl) ?_ ?_ ?_ <;> rw [hb] <;> rfl

/-- Of a bay's record the end of a change writes the defrost record and the door watch alone. -/
theorem settle_keepsRecord (s : State) (b : Bay) :
    bayAt (settle s) b = { bayAt s b with defrost := (bayAt (settle s) b).defrost, door := (bayAt (settle s) b).door }
    ∧ ((bayAt (settle s) b).door = (bayAt s b).door ∨ (bayAt (settle s) b).door = doorLost (bayAt s b).door) := by
  obtain ⟨d, k | k⟩ := record_settle s b <;> rw [k]
  · exact ⟨rfl, .inl rfl⟩
  · exact ⟨rfl, .inr rfl⟩

end Sys2Proof.Machine

namespace Sys2Proof.Proofs

open Sys2Proof.Machine Sys2Proof.Claims

/-- A failed poll, as the first half of O38 speaks of it: `s` with the gap started is the state it is taken in. -/
theorem settle_pollMissed (s : State) (b : Bay) (o : ExchangeOutcome) :
    let lostNow := (bayAt s b).link ≠ .lost ∧ s.run.settings.lossLimit ≤ (bayAt s b).missCount + 1
    let gone := lostNow ∧ (bayAt s b).occupancy = .departing ∧ endsAtOnce s b
    let t := settle (pollMissed b o s)
    (¬ gone → (bayAt t b).snapshot = (bayAt s b).snapshot ∧ (bayAt t b).lastExchange = o
        ∧ (bayAt t b).roundsSince = min ((bayAt s b).roundsSince + 1) 255
        ∧ (bayAt t b).occupancy = (bayAt s b).occupancy)
      ∧ ((bayAt s b).link ≠ .lost → (bayAt s b).missCount + 1 < s.run.settings.lossLimit →
          (bayAt t b).missCount = (bayAt s b).missCount + 1 ∧ (bayAt t b).link = (bayAt s b).link
          ∧ t.alert = s.alert)
      ∧ (lostNow → (b.succ : Element) ∈ (catAt t.alert .link).pending ∧ (catAt t.alert .link).latch = true)
      ∧ (lostNow → ¬ gone → (bayAt t b).missCount = s.run.settings.lossLimit ∧ (bayAt t b).link = .lost
          ∧ (bayAt t b).door = doorLost (bayAt s b).door)
      ∧ (lostNow → atRest s → businessEnded .link .abortedLink s t b)
      ∧ ((bayAt s b).link = .lost → (bayAt t b).missCount = s.run.settings.lossLimit ∧ (bayAt t b).link = .lost
          ∧ t.alert = s.alert) := by
  intro lostNow gone t
  have hnot (h : ¬ lostNow) : pollMissed b o s = modBay b (missedRecord s.run.settings.lossLimit o) s := by
    rw [pollMissed_eq, if_neg h]
  have hlost (h : lostNow) : pollMissed b o s = becomeLost b (modBay b (missedRecord s.run.settings.lossLimit o) s) := by
    rw [pollMissed_eq, if_pos h]
  have hrecord (h : lostNow) (hn : ¬ gone) : ∃ d, bayAt (pollMissed b o s) b = { bayAt s b with
      lastExchange := o, roundsSince := min ((bayAt s b).roundsSince + 1) 255, missCount := s.run.settings.lossLimit,
      link := .lost, door := doorLost (bayAt s b).door, defrost := d } := by
    have hb := missedRecord_lost (.inr h.2) o
    have hmod : bayAt (modBay b (missedRecord s.run.settings.lossLimit o) s) b = _ := (bayAt_modBay_same b _ s).trans hb
    obtain ⟨d, hd⟩ := record_becomeLost (s := modBay b (missedRecord s.run.settings.lossLimit o) s) (b := b) (by
      rw [endsAtOnce, hmod]
      exact fun k => hn ⟨h, k⟩)
    exact ⟨d, by rw [hlost h, hd, hmod]; rfl⟩
  have hmissed (h : ¬ lostNow) : bayAt (pollMissed b o s) b = missedRecord s.run.settings.lossLimit o (bayAt s b) := by
    rw [hnot h, bayAt_modBay_same]
  have hsame (h : ¬ lostNow) : (settle (pollMissed b o s)).alert = s.alert := by
    rw [hnot h, settle_alert]
    rfl
  obtain ⟨hkeep, hdoor⟩ := settle_keepsRecord (pollMissed b o s) b
  refine ⟨fun hn => ?_, fun h1 h2 => ?_, fun h => ?_, fun h hn => ?_, fun h hrest => ?_, fun h => ?_⟩
  · rw [hkeep]
    by_cases h : lostNow
    · obtain ⟨d, hd⟩ := hrecord h hn
      rw [hd]
      exact ⟨rfl, rfl, rfl, rfl⟩
    · rw [hmissed h]
      unfold missedRecord
      dsimp only
      split <;> exact ⟨rfl, rfl, rfl, rfl⟩
  · have h : ¬ lostNow := fun k => absurd k.2 (by omega)
    refine ⟨?_, ?_, hsame h⟩ <;> rw [hkeep, hmissed h, missedRecord_within h1 h2]
  · have halert : (settle (pollMissed b o s)).alert = raiseIn s.run.settings.nesting .link b.succ s.alert := by
      rw [hlost h, settle_alert, alert_becomeLost]
      rfl
    rw [halert]
    obtain ⟨hlatch, hmem, -⟩ := raised_raiseIn s.run.settings.nesting .link b.succ s.alert
    exact ⟨(hmem b.succ).mpr (.inr rfl), hlatch⟩
  · obtain ⟨d, hd⟩ := hrecord h hn
    rw [hd] at hdoor
    rw [hkeep, hd]
    exact ⟨rfl, rfl, hdoor.elim id id⟩
  · have hb := bayAt_modBay_same b (missedRecord s.run.settings.lossLimit o) s
    rw [missedRecord_lost (.inr h.2)] at hb
    have hended := businessEnded_becomeLost (s := modBay b (missedRecord s.run.settings.lossLimit o) s) (b := b) hrest
    rw [← hlost h] at hended
    exact businessEnded_pre hended rfl (fun _ _ _ => .rfl) (fun _ _ => .rfl) (by rw [hb]) (by rw [hb]) (by rw [hb]; rfl)
  · have hn : ¬ lostNow := fun k => k.1 h
    refine ⟨?_, ?_, hsame hn⟩ <;> rw [hkeep, hmissed hn, missedRecord_lost (.inl h)]

/-- Settles O38: the exchange ends with its gap started; a failed poll is `settle_pollMissed`, a voided exchange only ends the
change. -/
theorem failedPollsAndVoidedExchanges : Obligations.FailedPollsAndVoidedExchanges := by
  refine ⟨fun s b i o hw hi => ?_, fun s b k i j hw hi hrest hr => ?_⟩
  · intro lostNow gone
    have hgap := endExchange_exchange ⟨b, .poll, .awaiting, false⟩ (.failed o) s
    rw [gap_of_endsWith hi] at hgap
    obtain ⟨hkept, hwithin, hraised, hlost, hended, hstay⟩ :=
      settle_pollMissed (gapStarted ⟨b, .poll, .awaiting, false⟩ (.failed o) s) b o
    refine ⟨_, exec_endsWith hw rfl hi, hgap, hkept, hwithin, hraised, hlost, fun h hrest => ?_, hstay⟩
    exact businessEnded_pre (hended h hrest) rfl (fun _ _ _ => .rfl) (fun _ _ => .rfl) rfl rfl rfl
  · have hgap := endExchange_exchange ⟨b, k, .awaiting, true⟩ j s
    rw [gap_of_endsWith hi] at hgap
    have heq : endExchange ⟨b, k, .awaiting, true⟩ j s = settle (gapStarted ⟨b, k, .awaiting, true⟩ j s) := by
      rw [endExchange_eq, if_pos rfl]
    obtain ⟨hbays, harb, hrun⟩ := settle_of_rest (s := gapStarted ⟨b, k, .awaiting, true⟩ j s) hrest hr
    obtain ⟨-, -, horders⟩ := runPass_of_none (s := gapStarted ⟨b, k, .awaiting, true⟩ j s) (.inl hrest)
    refine ⟨_, exec_endsWith hw rfl hi, ?_⟩
    rw [heq] at hgap ⊢
    refine ⟨hbays, harb, settle_alert _, hrun, ?_, ?_⟩
    · rw [settle_orders_of_busy rfl, horders]
      rfl
    · cases j <;> exact hgap

end Sys2Proof.Proofs
end

section
/-! The frame of the commands about one bay and of its exchanges (O39). -/

namespace Sys2Proof.Machine

open Sys2Proof.Claims

variable {b c : Bay} {s t u w : State} {K : Category → Prop}

/-! ## What the end of a change can do to a bay -/

/-- A defrost record made STARTING by the pass: it keeps its origin and what an outcome wrote (R121, R124, R131). -/
structure Granted (d e : Defrost) : Prop where
  state : e.state = .starting
  reason : e.reason = none
  outcome : e.outcome = d.outcome
  count : e.count = d.count
  holdoff : e.holdoff = d.holdoff
  origin : e.origin = d.origin

theorem Granted.trans {d e f : Defrost} (h : Granted d e) (k : Granted e f) : Granted d f :=
  ⟨k.state, k.reason, k.outcome.trans h.outcome, k.count.trans h.count, k.holdoff.trans h.holdoff, k.origin.trans h.origin⟩

/-- Every bay keeps its record or has been made STARTING. -/
def GrantsOnly (s t : State) : Prop := ∀ c, bayAt t c = bayAt s c ∨ Granted (bayAt s c).defrost (bayAt t c).defrost

theorem GrantsOnly.refl (s : State) : GrantsOnly s s := fun _ => .inl rfl

theorem GrantsOnly.trans (h : GrantsOnly s t) (k : GrantsOnly t u) : GrantsOnly s u := fun c => by
  rcases k c with hk | hk
  · rw [hk]
    exact h c
  · rcases h c with hc | hc
    · exact .inr (hc ▸ hk)
    · exact .inr (hc.trans hk)

/-- A bay made STARTING, all other records kept. -/
theorem grantsOnly_of (h : KeepsOthers b s t) (hb : Granted (bayAt s b).defrost (bayAt t b).defrost) : GrantsOnly s t :=
  fun c => by
    by_cases hc : c = b
    · exact .inr (hc ▸ hb)
    · exact .inl (h c hc)

theorem bayAt_grant (b : Bay) (x : Charge) (s : State) : bayAt (grant b x s) b = { bayAt s b with
    defrost := { (bayAt s b).defrost with
      state := .starting, reason := none, charge := x, draw := (bayAt s b).draw, shedPending := false, elapsed := 0 } } :=
  bayAt_modDefrost_same b (fun d => { d with
    state := .starting, reason := none, charge := x, draw := (bayAt s b).draw, shedPending := false, elapsed := 0 }) s

theorem bayAt_resumeTop (f : FeederIx) (b : Bay) (rest : List ShedEntry) (s : State) : bayAt (resumeTop f b rest s) b
    = { bayAt s b with defrost := { (bayAt s b).defrost with state := .starting, reason := none, shedPending := false } } :=
  bayAt_modDefrost_same b (fun d => { d with state := .starting, reason := none, shedPending := false })
    (setFeeder f { feederAt s f with stack := rest } s)

theorem grantsOnly_grant (b : Bay) (x : Charge) (s : State) : GrantsOnly s (grant b x s) :=
  grantsOnly_of (grant_actsOn b x (fun _ => False) s).records (by rw [bayAt_grant]; exact ⟨rfl, rfl, rfl, rfl, rfl, rfl⟩)

theorem grantsOnly_resumeFeeder (f : FeederIx) (n : Nat) (s : State) : GrantsOnly s (resumeFeeder f n s) := by
  induction n generalizing s with
  | zero => exact .refl s
  | succ n ih =>
    rcases resumeFeeder_succ f n s with h | ⟨top, rest, htop, -, -, h⟩ <;> rw [h]
    · exact .refl s
    · exact (grantsOnly_of (resumeTop_actsOn htop (fun _ => False)).records (by
        rw [bayAt_resumeTop]
        exact ⟨rfl, rfl, rfl, rfl, rfl, rfl⟩)).trans (ih _)

theorem grantsOnly_walkEntry (w : QueueWalk) (q : QueueEntry) : GrantsOnly w.state (walkEntry w q).state := by
  rcases walkEntry_cases w q with h | ⟨f, -, -, -, -, h⟩ | ⟨-, -, h⟩ | ⟨f, -, -, -, -, h⟩ <;> rw [h]
  · exact .refl _
  · exact .refl _
  · exact grantsOnly_grant q.bay _ _
  · exact grantsOnly_grant q.bay _ _

theorem grantsOnly_walkQueue (l : List QueueEntry) (w : QueueWalk) : GrantsOnly w.state (l.foldl walkEntry w).state := by
  induction l generalizing w with
  | nil => exact .refl _
  | cons q l ih => exact (grantsOnly_walkEntry w q).trans (ih _)

/-- The grant pass makes bays STARTING and leaves every other record (R121 to R124). -/
theorem grantsOnly_grantPass (s : State) : GrantsOnly s (grantPass s) := by
  have hresume : GrantsOnly s (resumeAll s) :=
    foldl_rel GrantsOnly.refl (fun _ _ _ => GrantsOnly.trans) (fun s f => grantsOnly_resumeFeeder f _ s) allFeeders s
  have hqueue (u : State) : GrantsOnly u (grantQueue u) := fun c => by
    rw [bayAt_grantQueue]
    exact grantsOnly_walkQueue u.arb.queue ⟨u, [], []⟩ c
  exact hresume.trans (hqueue _)

/-- The pass owed is made in RUNNING only. -/
theorem runPass_grants (s : State) (c : Bay) : bayAt (runPass s) c = bayAt s c
    ∨ (s.run.state = .running ∧ Granted (bayAt s c).defrost (bayAt (runPass s) c).defrost) := by
  rcases runPass_cases s with ⟨-, h⟩ | ⟨-, hr, h⟩ | ⟨-, -, h⟩ <;> rw [h]
  · exact .inl rfl
  · exact (grantsOnly_grantPass { s with passDue := false } c).imp id fun k => ⟨hr, k⟩
  · exact .inl rfl

/-! ## Changes about one bay -/

/-- What a change about bay b leaves of run controller, budgets, pending sets and the other bays' records. -/
structure OnlyBay (b : Bay) (s t : State) : Prop where
  run : t.run = { s.run with state := t.run.state }
  runState : t.run.state = s.run.state ∨ (s.run.state = .halting ∧ t.run.state = .halted)
  budget : ∀ f, (feederAt t f).budget = (feederAt s f).budget
  raised : ∀ c e, e ∈ (catAt t.alert c).pending → e ∈ (catAt s.alert c).pending ∨ e = b.succ
  record : ∀ c, c ≠ b → bayAt t c = { bayAt s c with defrost := (bayAt t c).defrost, door := (bayAt t c).door }
  door : ∀ c, c ≠ b → t.run.state = s.run.state → (bayAt t c).door = (bayAt s c).door
  defrost : ∀ c, c ≠ b → (bayAt t c).defrost ≠ (bayAt s c).defrost →
    s.run.state = .running ∧ (bayAt t c).defrost.state = .starting

/-- Before the end of a change: an operation about the bay that leaves the budgets. -/
structure BayChange (b : Bay) (s t : State) : Prop where
  acts : ∃ K, ActsOn b K s t
  budget : ∀ f, (feederAt t f).budget = (feederAt s f).budget

theorem BayChange.of (h : ActsOn b K s t) (k : Keeps s t) : BayChange b s t := ⟨⟨K, h⟩, k.budget⟩

theorem BayChange.onlyBay (h : BayChange b s t) : OnlyBay b s t := by
  obtain ⟨⟨K, h⟩, hbudget⟩ := h
  refine ⟨by rw [h.run], .inl (by rw [h.run]), hbudget, fun c e he => h.alert.mem_pending he, fun c hc => ?_, fun c hc _ => ?_,
    fun c hc hne => ?_⟩
  · rw [h.records c hc]
  · rw [h.records c hc]
  · exact absurd (by rw [h.records c hc]) hne

/-- What follows the operation in its change: nothing, the loop arbiter's choice, or the whole end of the change. -/
inductive AboutBay (b : Bay) (s : State) : State → Prop
  | direct {u : State} (h : BayChange b s u) : AboutBay b s u
  | served {u : State} (h : BayChange b s u) : AboutBay b s (serveLoop u)
  | settled {u : State} (h : BayChange b s u) : AboutBay b s (settle u)

theorem AboutBay.same (b : Bay) (s : State) : AboutBay b s s := .direct (.of (.refl b (fun _ => False) s) (.refl s))

theorem BayChange.served (h : BayChange b s u) : OnlyBay b s (serveLoop u) := by
  have k := h.onlyBay
  have hbay (c : Bay) : bayAt (serveLoop u) c = bayAt u c := bayAt_congr (serveLoop_bays u) c
  have hrun : (serveLoop u).run = u.run := serveLoop_run u
  refine ⟨?_, ?_, fun f => ?_, ?_, fun c hc => ?_, fun c hc hr => ?_, fun c hc hne => ?_⟩
  · rw [hrun]; exact k.run
  · rw [hrun]; exact k.runState
  · rw [feederAt, serveLoop_arb]; exact k.budget f
  · rw [serveLoop_alert]; exact k.raised
  · rw [hbay]; exact k.record c hc
  · rw [hbay]; exact k.door c hc (by rw [← hrun]; exact hr)
  · rw [hbay] at hne ⊢; exact k.defrost c hc hne

theorem BayChange.settled (h : BayChange b s u) : OnlyBay b s (settle u) := by
  obtain ⟨⟨K, h⟩, hbudget⟩ := h
  have hkeep (c : Bay) : bayAt (settle u) c
      = { bayAt u c with defrost := (bayAt (settle u) c).defrost, door := (bayAt (settle u) c).door } :=
    (settle_keepsRecord u c).1
  have hdefrost (c : Bay) : (bayAt (settle u) c).defrost = (bayAt (runPass u) c).defrost := by
    rcases settle_cases u with ⟨-, k⟩ | ⟨-, -, k⟩ <;> rw [k c]
    rfl
  have hrun := h.run
  refine ⟨?_, ?_, fun f => ?_, fun c e he => ?_, fun c hc => ?_, fun c hc hr => ?_, fun c hc hne => ?_⟩
  · rw [← hrun]; exact settle_run u
  · rw [← hrun]
    rcases settle_cases u with ⟨k, -⟩ | ⟨k, k', -⟩
    · exact .inl (by rw [k])
    · exact .inr ⟨k, by rw [k']⟩
  · rw [(settle_keeps u).budget f, hbudget f]
  · rw [settle_alert] at he
    exact h.alert.mem_pending he
  · rw [← h.records c hc]; exact hkeep c
  · rcases settle_cases u with ⟨-, k⟩ | ⟨k, k', -⟩
    · rw [k c, ← h.records c hc, (runPass_defrostsOnly u).record c]
    · rw [k', ← hrun, k] at hr
      cases hr
  · rw [hdefrost, ← h.records c hc] at hne
    rw [hdefrost, ← hrun]
    exact ((runPass_grants u c).resolve_left fun k => hne (by rw [k])).imp id Granted.state

theorem AboutBay.onlyBay (h : AboutBay b s t) : OnlyBay b s t := by
  cases h with
  | direct h => exact h.onlyBay
  | served h => exact h.served
  | settled h => exact h.settled

/-! ## The commands about one bay -/

theorem withBay_about {x : Byte} (hx : x = bayByte b) {g : Bay → State → Reply × State} (h : AboutBay b s (g b s).2) :
    AboutBay b s (withBay x g s).2 := by
  rw [hx, withBay_bayByte]
  exact h

theorem modBay_change (b : Bay) (g : BayRecord → BayRecord) (s : State) : BayChange b s (modBay b g s) :=
  .of (modBay_actsOn b (fun _ => False) g s) (modBay_keeps b g s)

/-- A moment that opens and is taken in one change concerns its bay alone. -/
theorem takeMoments_actsOn (m : Moment) (s : State) : ActsOn m.bay (fun c => c = .door) s (takeMoments [m] s) := by
  have h := (momentEffect_actsOn m { s with moments := m :: s.moments }).withMoments s.moments
  rw [takeMoments_singleton]
  exact ⟨h.run, h.alert, h.loop, h.exchange, h.orders, h.records, h.queue, h.active, h.sheds, h.passDue⟩

/-- A mark set or cleared. -/
theorem applyMark_about (op : MarkOp) (st : Station) (b : Bay) (m : Mark) (s : State) :
    AboutBay b s (applyMark op st b m s).2 := by
  have hset : AboutBay b s (setMark st b m s) := by
    unfold setMark
    dsimp only
    split
    · exact .direct (modBay_change b _ s)
    · cases m with
      | hold =>
        exact .settled (.of ((modBay_actsOn b _ _ s).trans (endBusiness_actsOn b .hold _))
          ((modBay_keeps b _ s).trans (endBusiness_keeps b .hold _)))
      | fuelOrdered => exact .direct (modBay_change b _ s)
      | noDiesel => exact .direct (modBay_change b _ s)
  have hclear : AboutBay b s (clearMark b m s) := by
    unfold clearMark
    dsimp only
    split
    · cases m with
      | noDiesel =>
        exact .settled (.of ((modBay_actsOn b (fun _ => False) _ s).trans (owePass_actsOn b _ _))
          ((modBay_keeps b _ s).trans (owePass_keeps _)))
      | hold => exact .direct (modBay_change b _ s)
      | fuelOrdered => exact .direct (modBay_change b _ s)
    · exact .direct (modBay_change b _ s)
  unfold applyMark
  dsimp only
  split
  · exact hset
  · exact hset
  · split
    · exact .same b s
    · exact hclear
  · split
    · exact .same b s
    · exact hclear

/-- The kinds of the requests that name one bay in their first byte. -/
def namesBay : RequestKind → Bool
  | .readBay | .arrive | .depart | .setDeparture | .setBayData | .closeBay | .openBay | .mark | .defrostNow | .withdraw
  | .forceRelease | .doorPermit | .clearFlagsBay => true
  | _ => false

theorem bayByte_ne_zero (b : Bay) : (bayByte b).toNat ≠ 0 := by
  simp only [bayByte, BitVec.toNat_ofNat]
  omega

/-- The owning block's answer to a request that names one bay is a change about that bay. -/
theorem answerTo_about {k : RequestKind} (hk : namesBay k = true) (op : MarkOp) (st : Station) {args : List Byte}
    (ha : args.head? = some (bayByte b)) (s : State) : AboutBay b s (answerTo op st args k s).2 := by
  have hsame := AboutBay.same b s
  have hrecord (g : BayRecord → BayRecord) (r : Reply) : AboutBay b s (r, modBay b g s).2 := .direct (modBay_change b g s)
  have hfirst {x : Byte} {rest : List Byte} (h : (x :: rest).head? = some (bayByte b)) : x = bayByte b := by
    cases h
    rfl
  cases k with
  | readBay =>
    show AboutBay b s (readBayOwner args s).2
    unfold readBayOwner
    split
    · refine withBay_about (hfirst ha) ?_
      split <;> exact hsame
    · exact hsame
  | arrive =>
    show AboutBay b s (arriveOwner args s).2
    unfold arriveOwner
    split
    · refine withBay_about (hfirst ha) ?_
      split
      · exact hsame
      · split
        · exact hsame
        · split
          · exact hsame
          · exact .served (modBay_change b _ s)
    · exact hsame
  | depart =>
    show AboutBay b s (departOwner args s).2
    have hdepart : AboutBay b s (settle (departBay b s)) :=
      .settled (.of (departBay_actsOn b (fun _ => False) s) (departBay_keeps b s))
    unfold departOwner
    split
    · refine withBay_about (hfirst ha) ?_
      split
      · exact hdepart
      · exact hdepart
      · exact hsame
    · exact hsame
  | setDeparture =>
    show AboutBay b s (setDepartureOwner args s).2
    unfold setDepartureOwner
    split
    · refine withBay_about (hfirst ha) ?_
      split
      · split
        · exact hrecord _ _
        · exact hrecord _ _
      · exact hsame
    · exact hsame
  | setBayData =>
    show AboutBay b s (setBayDataOwner args s).2
    unfold setBayDataOwner
    split
    · refine withBay_about (hfirst ha) ?_
      split
      · exact hsame
      · unfold storeBayData
        dsimp only
        split
        · exact .settled (.of ((modBay_actsOn b (fun _ => False) _ s).trans (owePass_actsOn b _ _))
            ((modBay_keeps b _ s).trans (owePass_keeps _)))
        · exact .direct (modBay_change b _ s)
    · exact hsame
  | closeBay =>
    show AboutBay b s (closeBayOwner args s).2
    unfold closeBayOwner
    split
    · refine withBay_about (hfirst ha) ?_
      split
      · exact hrecord _ _
      · exact hsame
    · exact hsame
  | openBay =>
    show AboutBay b s (openBayOwner args s).2
    unfold openBayOwner
    split
    · refine withBay_about (hfirst ha) ?_
      split
      · exact .direct (.of (emptyRecord_actsOn b (fun _ => False) s) (emptyRecord_keeps b s))
      · exact hsame
    · exact hsame
  | mark =>
    show AboutBay b s (markOwner op st args s).2
    unfold markOwner
    split
    · refine withBay_about (hfirst ha) ?_
      split
      · split
        · exact hsame
        · split
          · exact hsame
          · exact applyMark_about op st b _ s
      · exact hsame
    · exact hsame
  | defrostNow =>
    show AboutBay b s (defrostNowOwner args s).2
    unfold defrostNowOwner
    split
    · refine withBay_about (hfirst ha) ?_
      split
      · exact .settled (.of (joinQueue_actsOn b (fun _ => False) _ s) (joinQueue_keeps b _ s))
      · exact hsame
    · exact hsame
  | withdraw =>
    show AboutBay b s (withdrawOwner args s).2
    unfold withdrawOwner
    split
    · refine withBay_about (hfirst ha) ?_
      split
      · exact .settled (.of (endBusiness_actsOn b _ s) (endBusiness_keeps b _ s))
      · exact hsame
    · exact hsame
  | forceRelease =>
    show AboutBay b s (forceReleaseOwner args s).2
    unfold forceReleaseOwner
    split
    · refine withBay_about (hfirst ha) ?_
      split
      · exact .settled (.of (endEpisode_actsOn b _ s) (endEpisode_keeps b _ s))
      · exact hsame
    · exact hsame
  | doorPermit =>
    show AboutBay b s (doorPermitOwner args s).2
    unfold doorPermitOwner
    split
    · refine withBay_about (hfirst ha) ?_
      split
      · exact hsame
      · unfold storePermit
        dsimp only
        split
        · exact .direct (.of ((modBay_actsOn b _ _ s).trans (takeMoments_actsOn (.permitEnd b) _))
            ((modBay_keeps b _ s).trans (takeMoments_keeps _ _)))
        · exact .direct (modBay_change b _ s)
    · exact hsame
  | clearFlagsBay =>
    show AboutBay b s (clearFlagsBayOwner args s).2
    unfold clearFlagsBayOwner
    split
    · have hx := hfirst ha
      rw [if_neg (by rw [hx]; exact bayByte_ne_zero b)]
      exact withBay_about hx (hrecord _ _)
    · exact hsame
  | readFeeder | readQueue | readActive | readYard | readSetting | feederBudgetSingle | feederBudgetAll | clearFlagsFeeder
  | takeAlert | releaseAlert | alertMask | beginRounds | haltRounds | setSetting => cases hk

/-- The taking of a request and the reply to it do not meet run controller, budgets, pending sets and records. -/
theorem OnlyBay.answered {st : Station} (h : OnlyBay b (receiveRequest st s) t) (r : Reply) :
    OnlyBay b s (writeReply st r t) := by
  obtain ⟨hrun, hstate, hbudget, hraised, hrecord, hdoor, hdefrost⟩ := h
  have hbay (c : Bay) : bayAt (writeReply st r t) c = bayAt t c := bayAt_congr (writeReply_bays st r t) c
  have hrun' : (writeReply st r t).run = t.run := rfl
  refine ⟨hrun, hstate, hbudget, fun c e he => ?_, fun c hc => ?_, fun c hc hr => ?_, fun c hc hne => ?_⟩
  · have hcat : (catAt (receiveRequest st s).alert c).pending = (catAt s.alert c).pending := rfl
    rw [← hcat]
    exact hraised c e he
  · rw [hbay]; exact hrecord c hc
  · rw [hbay]; exact hdoor c hc hr
  · rw [hbay] at hne ⊢; exact hdefrost c hc hne

/-- A request that names one bay, whatever the port and the owning block answer. -/
theorem onlyBay_request {i : Instr} {st : Station} {k : RequestKind} {args : List Byte}
    (hi : requestOf i = some (st, k, args)) (hk : namesBay k = true) (ha : args.head? = some (bayByte b))
    (he : exec i s = .next t) : OnlyBay b s t := by
  have hrefused (r : Reply) : OnlyBay b s (writeReply st r (receiveRequest st s)) :=
    (AboutBay.same b (receiveRequest st s)).onlyBay.answered r
  rcases exec_of_requestOf hi s with h | ⟨-, -, h⟩
  · rw [h] at he
    cases he
    rcases takeRequest_cases st k args (answerTo (markOpOf i) st args k) s
      with ⟨-, h⟩ | ⟨-, -, h⟩ | ⟨-, -, -, h⟩ | ⟨-, -, h⟩ <;> rw [h]
    · exact hrefused _
    · exact hrefused _
    · exact hrefused _
    · exact (answerTo_about hk (markOpOf i) st ha _).onlyBay.answered _
  · rw [h] at he
    cases he
    exact (AboutBay.same b s).onlyBay

/-- A moment of a bay, taken or closed. -/
theorem takeMoment_change (m : Moment) (s : State) : BayChange m.bay s (takeMoment m s) := by
  refine ⟨⟨_, takeMoment_actsOn m s⟩, fun f => ?_⟩
  rcases takeMoment_cases m s with ⟨-, h⟩ | ⟨-, h⟩ <;> rw [h]
  exact (momentEffect_keeps m s).budget f

/-- The end of an exchange concerns its bay alone. -/
theorem onlyBay_endExchange (x : Exchange) (j : Judged) (s : State) : OnlyBay x.bay s (endExchange x j s) := by
  have h : AboutBay x.bay (gapStarted x j s) (endExchange x j s) := by
    rw [endExchange_eq]
    split
    · exact .settled (.of (.refl x.bay (fun _ => False) _) (.refl _))
    · exact .settled (.of (exchangeResult_actsOn x j _) (exchangeResult_keeps x j _))
  obtain ⟨hrun, hstate, hbudget, hraised, hrecord, hdoor, hdefrost⟩ := h.onlyBay
  exact ⟨hrun, hstate, hbudget, hraised, hrecord, hdoor, hdefrost⟩

/-- Every command about one bay. -/
theorem onlyBay_ofBay {i : Instr} (hi : ofBay b i) (he : exec i s = .next t) : OnlyBay b s t := by
  cases i
  case doorLimitReached x => cases hi; cases he; exact (takeMoment_change (.doorLimit b) s).onlyBay
  case permitEnd x => cases hi; cases he; exact (takeMoment_change (.permitEnd b) s).onlyBay
  case holdoffEnd x => cases hi; cases he; exact (takeMoment_change (.holdoffEnd b) s).onlyBay
  case timeout x =>
    cases hi
    cases he
    split
    · exact (takeMoment_change (.timeout b) s).served
    · exact (takeMoment_change (.timeout b) s).onlyBay
  case readBay | arrive | depart | setDeparture | setBayData | closeBay | openBay | markSet | markTestSet | markClear
    | markTestClear | defrostNow | withdraw | forceRelease | doorPermit | clearFlagsBay =>
    exact onlyBay_request rfl rfl hi he
  all_goals exact hi.elim

end Sys2Proof.Machine

namespace Sys2Proof.Proofs

open Sys2Proof.Machine Sys2Proof.Claims

/-- Settles O39: every command about one bay, its exchanges among them, leaves the rest as `OnlyBay` tells. -/
theorem oneBayCommandsKeepTheRest : Obligations.OneBayCommandsKeepTheRest := by
  intro s t b i hi he
  have h : OnlyBay b s t := by
    rcases hi with hi | ⟨k, v, j, hw, hi⟩
    · exact onlyBay_ofBay hi he
    · rw [exec_endsWith hw rfl hi] at he
      cases he
      exact onlyBay_endExchange ⟨b, k, .awaiting, v⟩ j s
  exact ⟨h.run, h.runState, h.budget, h.raised, fun c hc => ⟨h.record c hc, h.door c hc, h.defrost c hc⟩⟩

end Sys2Proof.Proofs
end

section
/-! What an answered poll and the check it brings make of the polled bay's record, and what they raise (R45, R58 to R70). -/

namespace Sys2Proof.Machine

open Sys2Proof.Claims

variable {b c : Bay} {s t u w : State}

/-! ## The end of a change in which HALTED is not entered -/

/-- Outside HALTING the end of a change writes a bay's defrost record alone. -/
theorem settle_record_of_ne (h : s.run.state ≠ .halting) (b : Bay) :
    bayAt (settle s) b = { bayAt s b with defrost := (bayAt (settle s) b).defrost } := by
  rcases settle_cases s with ⟨-, k⟩ | ⟨k, -, -⟩
  · rw [k b, (runPass_defrostsOnly s).record b]
  · exact absurd k h

/-- At the end of a change a bay keeps its defrost record, or the pass has made it STARTING. -/
theorem settle_defrost (s : State) (b : Bay) : (bayAt (settle s) b).defrost = (bayAt s b).defrost
    ∨ (s.run.state = .running ∧ Granted (bayAt s b).defrost (bayAt (settle s) b).defrost) := by
  have h : (bayAt (settle s) b).defrost = (bayAt (runPass s) b).defrost := by
    rcases settle_cases s with ⟨-, k⟩ | ⟨-, -, k⟩ <;> rw [k b]
    rfl
  rw [h]
  exact (runPass_grants s b).imp (fun k => by rw [k]) id

/-! ## An answered poll before its check -/

/-- The record an answered poll leaves of a bay that is not emptied, its defrost record apart: written by R45, the frost reset
of an episode's end included (R83). -/
def polledRecord (snap : Snapshot) (r : BayRecord) : BayRecord :=
  { answeredRecord snap r with frost := frostAtCheck r snap.mode }

theorem frostAfter_of_ne {o : DefrostOutcome} (h1 : o ≠ .complete) (h2 : o ≠ .notNeeded) (f : Frost) : frostAfter o f = f :=
  if_neg fun h => h.elim h1 h2

theorem outcomeOf_ne (r : StopReason) : outcomeOf r ≠ .complete ∧ outcomeOf r ≠ .notNeeded := by cases r <;> decide

/-- The end of an episode of a bay that is not DEPARTING. -/
theorem record_endEpisode (h : (bayAt s b).occupancy ≠ .departing) (o : DefrostOutcome) :
    bayAt (endEpisode b o s) b = recordAfter s.run.settings.holdoff o (bayAt s b) := by
  rw [bayAt_endEpisode, if_neg h]

theorem modeStep_of_goesOn {m : Mode} (h : episodeGoesOn (bayAt s b) m) : modeStep b m s = s := by
  rcases modeStep_cases b m s with k | ⟨ha, hm, -⟩ | ⟨ha, hm, -, -⟩ | ⟨r, ha, hm, -, -⟩
  · exact k
  · rw [h (.inl ha)] at hm
    cases hm
  · exact absurd (h (.inl ha)) hm
  · exact absurd (h (.inr ha)) hm

theorem modeStep_of_fault (h : (bayAt s b).defrost.state = .active) : modeStep b .fault s = endEpisode b .failed s := by
  simp only [modeStep, h]

theorem modeStep_of_complete {m : Mode} (h : (bayAt s b).defrost.state = .active) (h1 : m ≠ .defrost) (h2 : m ≠ .fault) :
    modeStep b m s = endEpisode b .complete s := by
  cases m with
  | defrost => exact absurd rfl h1
  | fault => exact absurd rfl h2
  | off | cool | heat => simp only [modeStep, h]

theorem modeStep_of_hung {m : Mode} {r : StopReason} (h : (bayAt s b).defrost.state = .hung) (hm : m ≠ .defrost)
    (hr : (bayAt s b).defrost.reason = some r) : modeStep b m s = endEpisode b (outcomeOf r) s := by
  cases m with
  | defrost => exact absurd rfl hm
  | fault | off | cool | heat => simp only [modeStep, h, hr]

theorem modeStep_of_hung_none {m : Mode} (h : (bayAt s b).defrost.state = .hung)
    (hr : (bayAt s b).defrost.reason = none) : modeStep b m s = s := by
  rcases modeStep_cases b m s with k | ⟨ha, -, -⟩ | ⟨ha, -, -, -⟩ | ⟨r, -, -, hr', -⟩
  · exact k
  · rw [h] at ha; cases ha
  · rw [h] at ha; cases ha
  · rw [hr] at hr'; cases hr'

/-- The mode's step in the cases of R136 and R139: nothing, or the end of the episode with its outcome. -/
theorem modeStep_exact (b : Bay) (m : Mode) (s : State) :
    (¬ endsByMode (bayAt s b) m ∧ modeStep b m s = s)
      ∨ ∃ o, endsByMode (bayAt s b) m ∧ modeStep b m s = endEpisode b o s
          ∧ frostAtCheck (bayAt s b) m = frostAfter o (bayAt s b).frost
          ∧ (raisesFrost o = true ↔ endRaisesFrost (bayAt s b) m) := by
  by_cases hactive : (bayAt s b).defrost.state = .active
  · by_cases hd : m = .defrost
    · exact .inl ⟨fun h => h.1 hd, modeStep_of_goesOn fun _ => hd⟩
    · by_cases hf : m = .fault
      · subst hf
        refine .inr ⟨.failed, ⟨hd, .inl hactive⟩, modeStep_of_fault hactive, ?_, fun _ => .inl ⟨hactive, rfl⟩, fun _ => rfl⟩
        rw [frostAfter_of_ne (o := .failed) nofun nofun]
        exact if_neg fun h => h.2.2 rfl
      · refine .inr ⟨.complete, ⟨hd, .inl hactive⟩, modeStep_of_complete hactive hd hf, if_pos ⟨hactive, hd, hf⟩, nofun, ?_⟩
        rintro (⟨-, h⟩ | ⟨h, -⟩)
        · exact absurd h hf
        · rw [hactive] at h
          cases h
  · have hkeeps : frostAtCheck (bayAt s b) m = (bayAt s b).frost := if_neg fun h => hactive h.1
    by_cases hhung : (bayAt s b).defrost.state = .hung ∧ m ≠ .defrost
    · obtain ⟨hh, hd⟩ := hhung
      rcases hr : (bayAt s b).defrost.reason with _ | r
      · refine .inl ⟨fun h => ?_, modeStep_of_hung_none hh hr⟩
        rcases h with ⟨-, h | ⟨-, h⟩⟩
        · exact hactive h
        · exact h hr
      · refine .inr ⟨outcomeOf r, ⟨hd, .inr ⟨hh, by rw [hr]; nofun⟩⟩, modeStep_of_hung hh hd hr, ?_, ?_⟩
        · rw [hkeeps, frostAfter_of_ne (outcomeOf_ne r).1 (outcomeOf_ne r).2]
        · rw [raisesFrost_outcomeOf, decide_eq_true_iff]
          refine ⟨fun h => .inr ⟨hh, hd, by rw [hr, h]⟩, ?_⟩
          rintro (⟨h, -⟩ | ⟨-, -, h⟩)
          · exact absurd h hactive
          · rw [hr] at h
            exact Option.some.inj h
    · have hon : ¬ endsByMode (bayAt s b) m := fun h => h.2.elim hactive fun k => hhung ⟨k.1, h.1⟩
      exact .inl ⟨hon, modeStep_of_goesOn fun h => by_contra fun hm => h.elim hactive fun k => hhung ⟨k, hm⟩⟩

theorem modeStep_of_not {m : Mode} (h : ¬ endsByMode (bayAt s b) m) : modeStep b m s = s := by
  rcases modeStep_exact b m s with ⟨-, k⟩ | ⟨o, k, -⟩
  · exact k
  · exact absurd k h

theorem not_endsByMode {r : BayRecord} {m : Mode} (h : episodeGoesOn r m) : ¬ endsByMode r m :=
  fun k => k.1 (h (k.2.imp id And.left))

theorem frostAtCheck_of_not {r : BayRecord} {m : Mode} (h : ¬ endsByMode r m) : frostAtCheck r m = r.frost :=
  if_neg fun k => h ⟨k.2.1, .inl k.1⟩

/-- The mode's step on a bay that is not DEPARTING writes its defrost record and the frost reset of COMPLETE (R83, R136). -/
theorem record_modeStep (h : (bayAt s b).occupancy ≠ .departing) (m : Mode) :
    ∃ d, bayAt (modeStep b m s) b = { bayAt s b with frost := frostAtCheck (bayAt s b) m, defrost := d } := by
  rcases modeStep_exact b m s with ⟨hn, k⟩ | ⟨o, -, k, hfrost, -⟩ <;> rw [k]
  · exact ⟨(bayAt s b).defrost, by rw [frostAtCheck_of_not hn]⟩
  · exact ⟨_, by rw [record_endEpisode h, hfrost]; rfl⟩

/-! ### Operations that write a bay's defrost record alone -/

/-- Of the bay's record only the defrost record may have changed. -/
def DefrostWritten (b : Bay) (s t : State) : Prop := ∃ d, bayAt t b = { bayAt s b with defrost := d }

theorem DefrostWritten.of_eq (h : bayAt t b = bayAt s b) : DefrostWritten b s t := ⟨(bayAt s b).defrost, h⟩

theorem DefrostWritten.of_bays (h : t.bays = s.bays) : DefrostWritten b s t := .of_eq (bayAt_congr h b)

theorem DefrostWritten.trans (h : DefrostWritten b s t) (k : DefrostWritten b t u) : DefrostWritten b s u := by
  obtain ⟨d, hd⟩ := h
  obtain ⟨e, he⟩ := k
  exact ⟨e, by rw [he, hd]⟩

theorem DefrostWritten.occupancy (h : DefrostWritten b s t) : (bayAt t b).occupancy = (bayAt s b).occupancy := by
  obtain ⟨d, hd⟩ := h
  rw [hd]

theorem modDefrost_written (b : Bay) (g : Defrost → Defrost) (s : State) : DefrostWritten b s (modDefrost b g s) :=
  ⟨_, bayAt_modDefrost_same b g s⟩

theorem stopEpisode_written (b : Bay) (r : StopReason) (s : State) : DefrostWritten b s (stopEpisode b r s) :=
  (modDefrost_written b _ (leaveActive b s)).trans (.of_bays (placeStop_bays b _))

theorem endEpisode_written {o : DefrostOutcome} (h : (bayAt s b).occupancy ≠ .departing) (h1 : o ≠ .complete)
    (h2 : o ≠ .notNeeded) : DefrostWritten b s (endEpisode b o s) :=
  ⟨_, by rw [record_endEpisode h, recordAfter, frostAfter_of_ne h1 h2]⟩

theorem shedRunning_written (f : FeederIx) (b : Bay) (s : State) : DefrostWritten b s (shedRunning f b s) := by
  unfold shedRunning
  split
  · exact (DefrostWritten.of_bays (pushShed_bays f b s)).trans (stopEpisode_written b _ _)
  · exact (DefrostWritten.of_bays (refusePush_bays f b s)).trans (stopEpisode_written b _ _)

theorem shedUnsent_written (f : FeederIx) (h : (bayAt s b).occupancy ≠ .departing) :
    DefrostWritten b s (shedUnsent f b s) := by
  have hstop : DefrostWritten b s (placeStop b s) := .of_bays (placeStop_bays b s)
  unfold shedUnsent
  split
  · have hpush : DefrostWritten b s (pushShed f b (leaveActive b (placeStop b s))) :=
      hstop.trans (.of_bays ((pushShed_bays f b _).trans (leaveActive_bays b _)))
    exact (hpush.trans (modDefrost_written b (fun d => { d with state := .shed, reason := none, shedPending := false }) _)).trans
      (.of_bays (owePass_bays _))
  · have hpush : DefrostWritten b s (refusePush f b (placeStop b s)) := hstop.trans (.of_bays (refusePush_bays f b _))
    exact hpush.trans (endEpisode_written (by rw [hpush.occupancy]; exact h) nofun nofun)

/-- A STARTING bay whose START is unsent (R145). -/
abbrev startCanGo (s : State) (b : Bay) : Prop := (bayAt s b).defrost.state = .starting ∧ startWaits s b

theorem shed_written (f : FeederIx) (h : (bayAt s b).occupancy ≠ .departing ∨ ¬ startCanGo s b) :
    DefrostWritten b s (shed f b s) := by
  rcases shed_cases f b s with ⟨hw, hd, k⟩ | ⟨-, k⟩ | ⟨-, k⟩ | k <;> rw [k]
  · exact shedUnsent_written f (h.resolve_right fun hn => hn ⟨hd, (startUnsent_iff s b).mp hw⟩)
  · exact modDefrost_written b _ s
  · exact shedRunning_written f b s
  · exact .of_eq rfl

theorem sourceStep_written (src : Source) (h : (bayAt s b).occupancy ≠ .departing ∨ ¬ startCanGo s b) :
    DefrostWritten b s (sourceStep b src s) := by
  rcases sourceStep_cases b src s with k | ⟨-, -, k⟩ | ⟨f, -, -, -, k⟩ <;> rw [k]
  · exact .of_eq rfl
  · exact (modDefrost_written b (fun d => { d with charge := .self, shedPending := false }) s).trans
      (.of_bays (owePassIf_bays _ _))
  · have hcharge := modDefrost_written b (fun d => { d with charge := .feeder f }) s
    rcases chargeToFeeder_cases b f s with k | k <;> rw [k]
    · exact hcharge
    · refine hcharge.trans (shed_written f ?_)
      rw [hcharge.occupancy, startCanGo, bayAt_modDefrost_same]
      exact h

theorem endBusiness_written (h : (bayAt s b).occupancy ≠ .departing) (r : StopReason) :
    DefrostWritten b s (endBusiness b r s) :=
  endBusiness_record (fun k => h k.1) r

/-- What an answered poll has made of the record of a bay that is not DEPARTING, before its check. -/
theorem record_pollSteps (h : (bayAt s b).occupancy ≠ .departing) (snap : Snapshot) :
    ∃ d, bayAt (pollSteps b snap s) b = { polledRecord snap (bayAt s b) with defrost := d } := by
  have hanswered : bayAt (owePassIf (queuedSourceChanges (bayAt s b) snap) (modBay b (answeredRecord snap) s)) b
      = answeredRecord snap (bayAt s b) := by
    rw [bayAt_congr (owePassIf_bays _ _), bayAt_modBay_same]
  have hocc : (answeredRecord snap (bayAt s b)).occupancy ≠ .departing := by
    unfold answeredRecord
    dsimp only
    split
    · nofun
    · exact h
  obtain ⟨d, hd⟩ := record_modeStep (by rw [hanswered]; exact hocc) snap.mode
  obtain ⟨e, he⟩ := sourceStep_written snap.source (b := b)
    (s := modeStep b snap.mode (owePassIf (queuedSourceChanges (bayAt s b) snap) (modBay b (answeredRecord snap) s)))
    (.inl (by rw [hd, hanswered]; exact hocc))
  refine ⟨e, ?_⟩
  rw [pollSteps, he, hd, hanswered]
  rfl

/-! ## The check -/

/-- The record a check leaves, its defrost record apart: the stages of R58 to R70 on the working inputs. -/
def checkedRecord (g : Settings) (snap : Snapshot) (r : BayRecord) : BayRecord :=
  let w := workingInputs snap
  let door := doorStage snap.door r.door
  let frost := frostStage (frostInputOf g snap.mode w.tc w.tr (decide (door.door.confirmed = .opened))) r.frost
  let fuel := fuelStage (fuelInputOf g w.level r.capacity snap.source r.departure) r.fuel
  let causes := condsUnion (condsUnion (condsUnion (condRange w.range) (condInvalid door.invalid)) frost.causes) fuel.causes
  { r with
    causes := causes, sticky := condsUnion r.sticky causes, door := door.door, frost := frost.frost, fuel := fuel.fuel,
    fuelOrdered := r.fuelOrdered && !fuel.refuelled }

/-- The record after the door stage, before the notice of an opened door is taken (R100, R101). -/
def watchedRecord (report : DoorReport) (r : BayRecord) : BayRecord :=
  addCauses (condInvalid (doorStage report r.door).invalid) { r with door := (doorStage report r.door).door }

theorem record_checkInputs (b : Bay) (w : Working) (s : State) :
    bayAt (checkInputs b w s) b = { bayAt s b with causes := condRange w.range } := bayAt_modBay_same b _ s

/-- The bay's state after the door stage, before the notice of an opened door is taken. -/
def doorWatched (b : Bay) (report : DoorReport) (s : State) : State := modBay b (watchedRecord report) s

theorem checkDoor_eq (b : Bay) (report : DoorReport) (s : State) : checkDoor b report s
    = if (doorStage report (bayAt s b).door).notice = .opened then endBusiness b .door (doorWatched b report s)
      else doorWatched b report s := by
  have hbay : modBay b (fun r => addCauses (condInvalid (doorStage report (bayAt s b).door).invalid)
      { r with door := (doorStage report (bayAt s b).door).door }) s = doorWatched b report s := rfl
  rcases checkDoor_cases b report s with ⟨h, k⟩ | ⟨h, k⟩
  · rw [k, if_pos h, hbay]
  · rw [k, if_neg h, hbay]

theorem record_checkDoor (h : (bayAt s b).occupancy ≠ .departing) (report : DoorReport) :
    ∃ d, bayAt (checkDoor b report s) b = { watchedRecord report (bayAt s b) with defrost := d } := by
  have hb : bayAt (doorWatched b report s) b = watchedRecord report (bayAt s b) := bayAt_modBay_same b _ s
  rw [checkDoor_eq]
  split
  · obtain ⟨d, hd⟩ := endBusiness_written (s := doorWatched b report s) (b := b) (by rw [hb]; exact h) .door
    exact ⟨d, by rw [hd, hb]⟩
  · exact ⟨(bayAt s b).defrost, by rw [hb]; rfl⟩

/-- An alert raised for a bay where a condition holds. -/
def raiseFor (p : Bool) (x : Category) (b : Bay) (s : State) : State := if p then raiseAlert x b.succ s else s

theorem raiseFor_bays (p : Bool) (x : Category) (b : Bay) (s : State) : (raiseFor p x b s).bays = s.bays := by
  cases p <;> rfl

/-- The bay's element joins the category's pending set exactly where the condition holds. -/
theorem mem_raiseFor (p : Bool) (x : Category) (b : Bay) (s : State) (e : Element) :
    e ∈ (catAt (raiseFor p x b s).alert x).pending ↔ e ∈ (catAt s.alert x).pending ∨ (e = b.succ ∧ p = true) := by
  cases p with
  | false => exact ⟨.inl, fun h => h.elim id fun k => nomatch k.2⟩
  | true =>
    obtain ⟨-, hmem, -⟩ := raised_raiseIn s.run.settings.nesting x b.succ s.alert
    exact (hmem e).trans (or_congr .rfl ⟨fun h => ⟨h, rfl⟩, And.left⟩)

/-- The frost record and the conditions of the frost stage. -/
def frostResult (g : Settings) (m : Mode) (w : Working) (r : BayRecord) : FrostResult :=
  frostStage (frostInputOf g m w.tc w.tr (decide (r.door.confirmed = .opened))) r.frost

/-- The record after the frost stage. -/
def frostedRecord (g : Settings) (m : Mode) (w : Working) (r : BayRecord) : BayRecord :=
  addCauses (frostResult g m w r).causes { r with frost := (frostResult g m w r).frost }

theorem checkFrost_eq (b : Bay) (m : Mode) (w : Working) (s : State) : checkFrost b m w s
    = raiseFor (frostRaised (bayAt s b).frost (frostResult s.run.settings m w (bayAt s b)).frost) .frost b
        (modBay b (frostedRecord s.run.settings m w) s) := rfl

theorem record_checkFrost (b : Bay) (m : Mode) (w : Working) (s : State) :
    bayAt (checkFrost b m w s) b = frostedRecord s.run.settings m w (bayAt s b) := by
  rw [checkFrost_eq, bayAt_congr (raiseFor_bays _ _ _ _), bayAt_modBay_same]

/-- The fuel record, the conditions and the refuel notice of the fuel stage. -/
def fuelResult (g : Settings) (src : Source) (w : Working) (r : BayRecord) : FuelResult :=
  fuelStage (fuelInputOf g w.level r.capacity src r.departure) r.fuel

/-- The record after the fuel stage. -/
def fuelledRecord (g : Settings) (src : Source) (w : Working) (r : BayRecord) : BayRecord :=
  addCauses (fuelResult g src w r).causes
    { r with fuel := (fuelResult g src w r).fuel, fuelOrdered := r.fuelOrdered && !(fuelResult g src w r).refuelled }

theorem checkFuel_eq (b : Bay) (src : Source) (w : Working) (s : State) : checkFuel b src w s
    = raiseFor (fuelTurned (bayAt s b).fuel (fuelResult s.run.settings src w (bayAt s b)).fuel
          && !(fuelledRecord s.run.settings src w (bayAt s b)).fuelOrdered) .fuel b
        (modBay b (fuelledRecord s.run.settings src w) s) := by
  have hordered : (bayAt (modBay b (fuelledRecord s.run.settings src w) s) b).fuelOrdered
      = (fuelledRecord s.run.settings src w (bayAt s b)).fuelOrdered := by rw [bayAt_modBay_same]
  rw [← hordered]
  rfl

theorem record_checkFuel (b : Bay) (src : Source) (w : Working) (s : State) :
    bayAt (checkFuel b src w s) b = fuelledRecord s.run.settings src w (bayAt s b) := by
  rw [checkFuel_eq, bayAt_congr (raiseFor_bays _ _ _ _), bayAt_modBay_same]

/-- The record whose sticky flag set has gained the causes (R69). -/
def stickyRecord (r : BayRecord) : BayRecord := { r with sticky := condsUnion r.sticky r.causes }

theorem checkClosed_eq (b : Bay) (s : State) : checkClosed b s
    = raiseFor (condsMeet (bayAt s b).causes s.run.settings.enables) .check b (modBay b stickyRecord s) := by
  have hcauses : (bayAt (modBay b stickyRecord s) b).causes = (bayAt s b).causes := by rw [bayAt_modBay_same]; rfl
  rw [← hcauses]
  rfl

theorem record_checkClosed (b : Bay) (s : State) : bayAt (checkClosed b s) b = stickyRecord (bayAt s b) := by
  rw [checkClosed_eq, bayAt_congr (raiseFor_bays _ _ _ _), bayAt_modBay_same]

/-- A check up to its demand test. -/
def checkStages (b : Bay) (snap : Snapshot) (s : State) : State :=
  checkClosed b (checkFuel b snap.source (workingInputs snap) (checkFrost b snap.mode (workingInputs snap)
    (checkDoor b snap.door (checkInputs b (workingInputs snap) s))))

theorem check_eq (b : Bay) (snap : Snapshot) (s : State) : check b snap s
    = if demandTest (checkStages b snap s) b then joinQueue b .estimate (checkStages b snap s) else checkStages b snap s := rfl

theorem checkDoor_run (b : Bay) (report : DoorReport) (s : State) : (checkDoor b report s).run = s.run :=
  (checkDoor_actsOn b (fun _ => False) report s).run

theorem checkFrost_run (b : Bay) (m : Mode) (w : Working) (s : State) : (checkFrost b m w s).run = s.run :=
  (checkFrost_actsOn b m w s).run

/-- Of the record of a bay that is not DEPARTING, a check up to its demand test makes `checkedRecord`, its defrost record
apart. -/
theorem record_checkStages (h : (bayAt s b).occupancy ≠ .departing) (snap : Snapshot) :
    ∃ d, bayAt (checkStages b snap s) b = { checkedRecord s.run.settings snap (bayAt s b) with defrost := d } := by
  have hinputs := record_checkInputs b (workingInputs snap) s
  obtain ⟨d, hd⟩ := record_checkDoor (s := checkInputs b (workingInputs snap) s) (b := b) (by rw [hinputs]; exact h) snap.door
  refine ⟨d, ?_⟩
  rw [checkStages, record_checkClosed, record_checkFuel, record_checkFrost, checkFrost_run, checkDoor_run, hd, hinputs]
  rfl

theorem bayAt_joinQueue (b : Bay) (o : Origin) (s : State) : bayAt (joinQueue b o s) b
    = { bayAt s b with defrost := { (bayAt s b).defrost with state := .queued, origin := some o } } :=
  bayAt_modDefrost_same b (fun d => { d with state := .queued, origin := some o })
    { s with arb := { s.arb with queue := s.arb.queue ++ [⟨b, o, s.run.yardMinute, 0⟩] } }

theorem joinQueue_written (b : Bay) (o : Origin) (s : State) : DefrostWritten b s (joinQueue b o s) :=
  ⟨_, bayAt_joinQueue b o s⟩

theorem record_check (h : (bayAt s b).occupancy ≠ .departing) (snap : Snapshot) :
    ∃ d, bayAt (check b snap s) b = { checkedRecord s.run.settings snap (bayAt s b) with defrost := d } := by
  obtain ⟨d, hd⟩ := record_checkStages h snap
  rw [check_eq]
  split
  · obtain ⟨e, he⟩ := joinQueue_written b .estimate (checkStages b snap s)
    exact ⟨e, by rw [he, hd]⟩
  · exact ⟨d, hd⟩

end Sys2Proof.Machine
end

section
/-! The stages of a check (O43 to O46). -/

namespace Sys2Proof.Machine

open Sys2Proof.Claims

variable {b c : Bay} {s t u w : State} {snap : Snapshot} {i : Instr}

/-! ## The conditions of the stages -/

theorem filterPart_invalid (i : FrostInput) (f : Frost) :
    (filterPart i f).2.2 = decide (i.mode = .cool ∧ (i.tc = none ∨ i.tr = none)) := by
  unfold filterPart
  cases i.mode with
  | cool =>
    cases i.tc with
    | none => cases f.s <;> cases f.b <;> simp
    | some c =>
      cases i.tr with
      | none => cases f.s <;> cases f.b <;> simp
      | some r => cases f.b <;> by_cases hc : coldCoil c = true <;> simp [hc]
  | _ => simp

/-- RANGE and NORATE are not the frost stage's; INVALID is for a reading that is NAR in COOL (R68, R73). -/
theorem frostStage_causes (i : FrostInput) (f : Frost) : (frostStage i f).causes.range = false
    ∧ (frostStage i f).causes.norate = false
    ∧ (frostStage i f).causes.invalid = decide (i.mode = .cool ∧ (i.tc = none ∨ i.tr = none)) := by
  rw [← filterPart_invalid i f]
  unfold frostStage
  split
  next h =>
    rw [h]
    split
    · exact ⟨rfl, rfl, rfl⟩
    · exact ⟨rfl, rfl, Bool.or_false _⟩

/-- RANGE is not the fuel stage's; INVALID is for a level that is NAR or a capacity unset, NORATE for a rate of 0 (R68, R87,
R93). -/
theorem fuelStage_causes (i : FuelInput) (f : Fuel) : (fuelStage i f).causes.range = false
    ∧ (fuelStage i f).causes.norate = decide (i.level ≠ none ∧ i.capacity ≠ 0 ∧ (fuelStage i f).fuel.r = 0)
    ∧ (fuelStage i f).causes.invalid = decide (i.level = none ∨ i.capacity = 0) := by
  unfold fuelStage
  cases i.level with
  | none => simp [condInvalid]
  | some p =>
    by_cases hc : i.capacity = 0
    · simp [hc, condInvalid]
    · simp [hc, endurance_eq, condsUnion, condSaturate]

/-! ## The record of a check -/

theorem frostAfter_range {f : Frost} (h : Safety.FrostInRange f) (o : DefrostOutcome) : Safety.FrostInRange (frostAfter o f) := by
  unfold frostAfter
  split
  · exact ⟨h.1, by simp, by simp, by simp⟩
  · exact h

theorem frostAtCheck_range {r : BayRecord} (h : Safety.FrostInRange r.frost) (m : Mode) :
    Safety.FrostInRange (frostAtCheck r m) := by
  unfold frostAtCheck
  split
  · exact frostAfter_range h _
  · exact h

theorem workingInputs_eq (snap : Snapshot) : (workingInputs snap).tc = reading snap.tc
    ∧ (workingInputs snap).tr = reading snap.tr ∧ (workingInputs snap).level = levelRead snap.p :=
  ⟨workingTemperature_fst snap.tc, workingTemperature_fst snap.tr, workingLevel_fst snap.p⟩

theorem workingInputs_range (snap : Snapshot) : (workingInputs snap).range = true
    ↔ outside snap.tc ∨ outside snap.tr ∨ (snap.p ≠ 0xFFFF ∧ 1000 < snap.p.toNat) := by
  show ((workingTemperature snap.tc).2 || (workingTemperature snap.tr).2 || (workingLevel snap.p).2) = true ↔ _
  rw [Bool.or_eq_true, Bool.or_eq_true, workingTemperature_snd, workingTemperature_snd, workingLevel_snd, or_assoc]

theorem reading_eq_none (h : Half) : reading h = none ↔ h = 0x8000 := by
  unfold reading
  split
  · next hn => exact ⟨fun _ => hn, fun _ => rfl⟩
  · next hn => exact ⟨nofun, fun k => absurd k hn⟩

theorem levelRead_eq_none (h : Half) : levelRead h = none ↔ h = 0xFFFF := by
  unfold levelRead
  split
  · next hn => exact ⟨fun _ => hn, fun _ => rfl⟩
  · next hn => exact ⟨nofun, fun k => absurd k hn⟩

theorem checkedRecord_range (g : Settings) (snap : Snapshot) (r : BayRecord) : (checkedRecord g snap r).causes.range = true
    ↔ outside snap.tc ∨ outside snap.tr ∨ (snap.p ≠ 0xFFFF ∧ 1000 < snap.p.toNat) := by
  rw [← workingInputs_range]
  unfold checkedRecord
  simp only [condsUnion, (frostStage_causes _ _).1, (fuelStage_causes _ _).1, condRange, condInvalid, Bool.or_false]

theorem checkedRecord_invalid (g : Settings) (snap : Snapshot) (r : BayRecord) : (checkedRecord g snap r).causes.invalid = true
    ↔ snap.door = .nar ∨ (snap.mode = .cool ∧ (snap.tc = 0x8000 ∨ snap.tr = 0x8000)) ∨ snap.p = 0xFFFF ∨ r.capacity = 0 := by
  obtain ⟨htc, htr, hlevel⟩ := workingInputs_eq snap
  unfold checkedRecord
  simp only [condsUnion, (frostStage_causes _ _).2.2, (fuelStage_causes _ _).2.2, condRange, condInvalid, Bool.false_or,
    (doorStage_eq _ _).2.1, frostInputOf, fuelInputOf, htc, htr, hlevel, reading_eq_none, levelRead_eq_none, Bool.or_eq_true,
    decide_eq_true_iff, or_assoc]

theorem checkedRecord_norate (g : Settings) (snap : Snapshot) (r : BayRecord) : (checkedRecord g snap r).causes.norate = true
    ↔ snap.p ≠ 0xFFFF ∧ r.capacity ≠ 0 ∧ (checkedRecord g snap r).fuel.r = 0 := by
  obtain ⟨-, -, hlevel⟩ := workingInputs_eq snap
  unfold checkedRecord
  simp only [condsUnion, (frostStage_causes _ _).2.1, (fuelStage_causes _ _).2.1, condRange, condInvalid, Bool.false_or,
    fuelInputOf, hlevel, ne_eq, levelRead_eq_none, decide_eq_true_iff]

section
variable {g : Settings} (hg : Safety.SettingsInRange g) (r : BayRecord)
include hg

/-- The frost record after a check is that of the exact formulas (R72 to R80). -/
theorem checkedRecord_frost (hf : Safety.FrostInRange r.frost) (snap : Snapshot) : (checkedRecord g snap r).frost
    = frostMath g snap.mode (reading snap.tc) (reading snap.tr)
        (decide ((checkedRecord g snap r).door.confirmed = .opened)) r.frost := by
  obtain ⟨htc, htr, -⟩ := workingInputs_eq snap
  unfold checkedRecord
  dsimp only
  rw [htc, htr]
  by_cases hm : snap.mode = .defrost
  · rw [hm, frostStage_defrost]
  · rw [frostStage_eq hg (fun _ => reading_range) (fun _ => reading_range) hf hm]

theorem checkedRecord_saturate (hf : Safety.FrostInRange r.frost) (hc : r.capacity ≤ 600) (hv : r.fuel.vref.getD 0 ≤ 6000)
    (snap : Snapshot) : (checkedRecord g snap r).causes.saturate = true
      ↔ frostLimited g snap.mode (reading snap.tc) (reading snap.tr)
          (decide ((checkedRecord g snap r).door.confirmed = .opened)) r.frost
        ∨ (r.capacity ≠ 0 ∧ (checkedRecord g snap r).fuel.r ≠ 0
          ∧ ∃ p ∈ levelRead snap.p, 65535 < p * r.capacity / 100 * 60 / (checkedRecord g snap r).fuel.r) := by
  obtain ⟨htc, htr, hlevel⟩ := workingInputs_eq snap
  have hfuel := fuelStage_eq g (fun _ => levelRead_range (h := snap.p)) hc snap.source r.departure hv
  unfold checkedRecord
  dsimp only at hfuel ⊢
  rw [htc, htr, hlevel, hfuel]
  by_cases hm : snap.mode = .defrost
  · rw [hm, frostStage_defrost]
    simp [condsUnion, condRange, condInvalid, frostLimited, rawExcess]
  · rw [frostStage_eq hg (fun _ => reading_range) (fun _ => reading_range) hf hm]
    simp [condsUnion, condRange, condInvalid, condSaturate, excessLimited, frostLimited, hm]

end

/-! ## What a check raises -/

theorem raiseFor_actsOn (p : Bool) (x : Category) (b : Bay) (s : State) : ActsOn b (fun c => c = x) s (raiseFor p x b s) := by
  cases p with
  | false => exact .refl b _ s
  | true => exact raiseAlert_actsOn b x s

theorem checkClosed_actsOn (b : Bay) (s : State) : ActsOn b (fun c => c = .check) s (checkClosed b s) := by
  rw [checkClosed_eq]
  exact (modBay_actsOn b _ _ s).trans (raiseFor_actsOn _ _ b _)

theorem checkStages_actsOn (b : Bay) (snap : Snapshot) (s : State) : ActsOn b fromCheck s (checkStages b snap s) :=
  ((((checkInputs_actsOn b _ _ s).trans (checkDoor_actsOn b _ _ _)).trans
    ((checkFrost_actsOn b _ _ _).mono fun _ hc => .inl hc)).trans
    ((checkFuel_actsOn b _ _ _).mono fun _ hc => .inr (.inl hc))).trans
    ((checkClosed_actsOn b _).mono fun _ hc => .inr (.inr hc))

/-- A check's state after its door stage. -/
def checkWatched (b : Bay) (snap : Snapshot) (s : State) : State :=
  checkDoor b snap.door (checkInputs b (workingInputs snap) s)

theorem checkWatched_alert (b : Bay) (snap : Snapshot) (s : State) : (checkWatched b snap s).alert = s.alert :=
  ((checkInputs_actsOn b (fun _ => False) _ s).trans (checkDoor_actsOn b _ _ _)).alert_eq

theorem record_checkWatched (h : (bayAt s b).occupancy ≠ .departing) (snap : Snapshot) :
    (bayAt (checkWatched b snap s) b).frost = (bayAt s b).frost ∧ (bayAt (checkWatched b snap s) b).fuel = (bayAt s b).fuel := by
  have hinputs := record_checkInputs b (workingInputs snap) s
  obtain ⟨d, hd⟩ := record_checkDoor (s := checkInputs b (workingInputs snap) s) (b := b) (by rw [hinputs]; exact h) snap.door
  rw [checkWatched, hd, hinputs]
  exact ⟨rfl, rfl⟩

/-- A check's state after its frost stage. -/
def checkFrosted (b : Bay) (snap : Snapshot) (s : State) : State :=
  checkFrost b snap.mode (workingInputs snap) (checkWatched b snap s)

/-- A check's state after its fuel stage. -/
def checkFuelled (b : Bay) (snap : Snapshot) (s : State) : State :=
  checkFuel b snap.source (workingInputs snap) (checkFrosted b snap s)

theorem checkStages_split (b : Bay) (snap : Snapshot) (s : State) :
    checkStages b snap s = checkClosed b (checkFuelled b snap s) := rfl

/-- A check raises CHECK exactly when its causes meet the enables (R70). -/
theorem checkStages_raisesCheck (b : Bay) (snap : Snapshot) (s : State) (e : Element) :
    e ∈ (catAt (checkStages b snap s).alert .check).pending ↔ e ∈ (catAt s.alert .check).pending
      ∨ (e = b.succ ∧ condsMeet (bayAt (checkStages b snap s) b).causes s.run.settings.enables = true) := by
  have hstages := ((checkFrost_actsOn b snap.mode (workingInputs snap) (checkWatched b snap s)).mono
    (L := fun c => c = .frost ∨ c = .fuel) fun _ hc => .inl hc).trans
    ((checkFuel_actsOn b snap.source (workingInputs snap) (checkFrosted b snap s)).mono fun _ hc => .inr hc)
  have hbefore : catAt (checkFuelled b snap s).alert .check = catAt s.alert .check := by
    have h := hstages.alert.catAt_eq (c := .check) (by decide)
    rw [checkWatched_alert] at h
    exact h
  have hrun : (checkFuelled b snap s).run = s.run :=
    hstages.run.trans ((checkInputs_actsOn b (fun _ => False) _ s).trans (checkDoor_actsOn b _ _ _)).run
  rw [checkStages_split, record_checkClosed, checkClosed_eq, mem_raiseFor, hrun]
  show e ∈ (catAt (checkFuelled b snap s).alert .check).pending ∨ _ ↔ _
  rw [hbefore]
  rfl

/-- A check raises FROST exactly when the index comes to 60000 from below (R81). -/
theorem checkStages_raisesFrost (h : (bayAt s b).occupancy ≠ .departing) (snap : Snapshot) (e : Element) :
    e ∈ (catAt (checkStages b snap s).alert .frost).pending ↔ e ∈ (catAt s.alert .frost).pending
      ∨ (e = b.succ ∧ frostRaised (bayAt s b).frost (bayAt (checkStages b snap s) b).frost = true) := by
  have hafter := ((checkFuel_actsOn b snap.source (workingInputs snap) (checkFrosted b snap s)).mono
    (L := fun c => c = .fuel ∨ c = .check) fun _ hc => .inl hc).trans
    ((checkClosed_actsOn b (checkFuelled b snap s)).mono fun _ hc => .inr hc)
  have hcat : catAt (checkStages b snap s).alert .frost = catAt (checkFrosted b snap s).alert .frost :=
    hafter.alert.catAt_eq (c := .frost) (by decide)
  have hrecord : (bayAt (checkStages b snap s) b).frost
      = (frostResult (checkWatched b snap s).run.settings snap.mode (workingInputs snap) (bayAt (checkWatched b snap s) b)).frost := by
    rw [checkStages_split, record_checkClosed, checkFuelled, record_checkFuel, checkFrosted, record_checkFrost]
    rfl
  rw [hcat, hrecord, ← (record_checkWatched h snap).1, checkFrosted, checkFrost_eq, mem_raiseFor, ← checkWatched_alert b snap s]
  rfl

/-- A check raises FUEL exactly when low or short turns true with FUEL-ORDERED clear (R96). -/
theorem checkStages_raisesFuel (h : (bayAt s b).occupancy ≠ .departing) (snap : Snapshot) (e : Element) :
    e ∈ (catAt (checkStages b snap s).alert .fuel).pending ↔ e ∈ (catAt s.alert .fuel).pending
      ∨ (e = b.succ ∧ (fuelTurned (bayAt s b).fuel (bayAt (checkStages b snap s) b).fuel
          && !(bayAt (checkStages b snap s) b).fuelOrdered) = true) := by
  have hcat : catAt (checkStages b snap s).alert .fuel = catAt (checkFuelled b snap s).alert .fuel :=
    (checkClosed_actsOn b (checkFuelled b snap s)).alert.catAt_eq (c := .fuel) (by decide)
  have hbefore : catAt (checkFrosted b snap s).alert .fuel = catAt s.alert .fuel := by
    have k := (checkFrost_actsOn b snap.mode (workingInputs snap) (checkWatched b snap s)).alert.catAt_eq (c := .fuel) (by decide)
    rw [checkWatched_alert] at k
    exact k
  have hrecord : bayAt (checkStages b snap s) b
      = stickyRecord (fuelledRecord (checkFrosted b snap s).run.settings snap.source (workingInputs snap)
          (bayAt (checkFrosted b snap s) b)) := by
    rw [checkStages_split, record_checkClosed, checkFuelled, record_checkFuel]
  have hfuel : (bayAt (checkFrosted b snap s) b).fuel = (bayAt s b).fuel := by
    rw [checkFrosted, record_checkFrost]
    exact (record_checkWatched h snap).2
  rw [hcat, hrecord, ← hbefore, checkFuelled, checkFuel_eq, mem_raiseFor, ← hfuel]
  rfl

/-! ## What an answered poll raises before its check -/

/-- An episode's end raises FROST exactly for the outcomes FAILED and TIMED-OUT (R131). -/
theorem endEpisode_raisesFrost (b : Bay) (o : DefrostOutcome) (s : State) (e : Element) :
    e ∈ (catAt (endEpisode b o s).alert .frost).pending ↔ e ∈ (catAt s.alert .frost).pending
      ∨ (e = b.succ ∧ raisesFrost o = true) := by
  have h : (endEpisode b o s).alert = (raiseFor (raisesFrost o) .frost b (episodeEnded b o s)).alert := by
    rw [endEpisode_eq]
    split <;> simp [frostTold, raiseFor, bayElement]
  rw [h, mem_raiseFor]
  rfl

/-- The mode of an answered poll raises FROST for an episode it ends FAILED or TIMED-OUT (R131, R136, R139). -/
theorem modeStep_raisesFrost (b : Bay) (m : Mode) (s : State) (e : Element) :
    e ∈ (catAt (modeStep b m s).alert .frost).pending ↔ e ∈ (catAt s.alert .frost).pending
      ∨ (e = b.succ ∧ endRaisesFrost (bayAt s b) m) := by
  rcases modeStep_exact b m s with ⟨hn, k⟩ | ⟨o, -, k, -, hraise⟩ <;> rw [k]
  · have hnot : ¬ endRaisesFrost (bayAt s b) m := by
      rintro (⟨ha, rfl⟩ | ⟨hh, hm, hr⟩)
      · exact hn ⟨nofun, .inl ha⟩
      · exact hn ⟨hm, .inr ⟨hh, by rw [hr]; nofun⟩⟩
    exact ⟨.inl, fun h => h.elim id fun k => absurd k.2 hnot⟩
  · rw [endEpisode_raisesFrost, hraise]

/-- An answered poll before its check raises FROST for the end of an episode, and nothing but FROST and POWER. -/
theorem pollSteps_raises (b : Bay) (snap : Snapshot) (s : State) :
    (∀ e, e ∈ (catAt (pollSteps b snap s).alert .frost).pending ↔ e ∈ (catAt s.alert .frost).pending
      ∨ (e = b.succ ∧ endRaisesFrost (bayAt s b) snap.mode))
    ∧ ∀ x, ¬ fromOrder x → catAt (pollSteps b snap s).alert x = catAt s.alert x := by
  refine ⟨fun e => ?_, fun x hx => (pollSteps_actsOn b snap s).alert.catAt_eq hx⟩
  have hsource := (sourceStep_actsOn b snap.source (modeStep b snap.mode
    (owePassIf (queuedSourceChanges (bayAt s b) snap) (modBay b (answeredRecord snap) s)))).alert.catAt_eq (c := .frost) (by decide)
  have hb : bayAt (owePassIf (queuedSourceChanges (bayAt s b) snap) (modBay b (answeredRecord snap) s)) b
      = answeredRecord snap (bayAt s b) := by
    rw [bayAt_congr (owePassIf_bays _ _), bayAt_modBay_same]
  have halert : (owePassIf (queuedSourceChanges (bayAt s b) snap) (modBay b (answeredRecord snap) s)).alert = s.alert := by
    simp
  rw [pollSteps, hsource, modeStep_raisesFrost, hb, halert]
  rfl

/-! ## The polls that bring a check -/

/-- The state in which an answered poll is taken: its gap has started. -/
def pollGap (b : Bay) (snap : Snapshot) (s : State) : State := gapStarted ⟨b, .poll, .awaiting, false⟩ (.telemetry snap) s

/-- The state of a check before its demand test. -/
def pollChecked (b : Bay) (snap : Snapshot) (s : State) : State := checkStages b snap (pollSteps b snap (pollGap b snap s))

theorem pollSteps_run (b : Bay) (snap : Snapshot) (s : State) : (pollSteps b snap s).run = s.run := (pollSteps_actsOn b snap s).run

theorem polledRecord_occupancy {r : BayRecord} (h : r.occupancy = .arriving ∨ r.occupancy = .parked) (snap : Snapshot) :
    (polledRecord snap r).occupancy = .parked := by
  rcases h with h | h <;> simp [polledRecord, answeredRecord, h]

theorem not_departing (h : checkedBy s b snap i) : (bayAt s b).occupancy ≠ .departing := by
  intro hd
  rcases h.2.2.1 with h | h <;> rw [hd] at h <;> cases h

/-- The record before the check: written by the poll, the episode's end and the charge's move. -/
theorem record_polled (h : checkedBy s b snap i) :
    ∃ d, bayAt (pollSteps b snap (pollGap b snap s)) b = { polledRecord snap (bayAt s b) with defrost := d } :=
  record_pollSteps (s := pollGap b snap s) (not_departing (s := s) h) snap

theorem exec_checkedBy (h : checkedBy s b snap i) : exec i s = .next (settle
    (if demandTest (pollChecked b snap s) b then joinQueue b .estimate (pollChecked b snap s) else pollChecked b snap s)) := by
  obtain ⟨hw, hi, hocc, hr⟩ := h
  obtain ⟨d, hd⟩ := record_polled ⟨hw, hi, hocc, hr⟩
  have hstarts : startsCheck (pollSteps b snap (pollGap b snap s)) b = true := by
    rw [startsCheck, hd, Bool.and_eq_true, isRunning_iff, pollSteps_run]
    exact ⟨decide_eq_true (polledRecord_occupancy hocc snap), hr⟩
  have hended : endExchange ⟨b, .poll, .awaiting, false⟩ (.telemetry snap) s
      = settle (pollAnswered b snap (pollGap b snap s)) := by
    rw [endExchange_eq]
    rfl
  rw [exec_endsWith hw rfl hi, hended, pollAnswered_eq, if_pos hstarts, check_eq]
  rfl

/-- The record before the demand test. -/
theorem record_pollChecked (h : checkedBy s b snap i) : ∃ d, bayAt (pollChecked b snap s) b
    = { checkedRecord s.run.settings snap (polledRecord snap (bayAt s b)) with defrost := d } := by
  obtain ⟨d, hd⟩ := record_polled h
  obtain ⟨e, he⟩ := record_checkStages (s := pollSteps b snap (pollGap b snap s)) (b := b)
    (by rw [hd, polledRecord_occupancy h.2.2.1]; nofun) snap
  refine ⟨e, ?_⟩
  rw [pollChecked, he, hd, pollSteps_run]
  rfl

/-- What the demand test leads to: the bay joins the queue or not (R82). -/
def demandTested (b : Bay) (u : State) : State := if demandTest u b then joinQueue b .estimate u else u

theorem demandTested_written (b : Bay) (u : State) : DefrostWritten b u (demandTested b u) := by
  unfold demandTested
  split
  · exact joinQueue_written b .estimate u
  · exact .of_eq rfl

theorem demandTested_actsOn (b : Bay) (K : Category → Prop) (u : State) : ActsOn b K u (demandTested b u) := by
  unfold demandTested
  split
  · exact joinQueue_actsOn b K .estimate u
  · exact .refl b K u

theorem pollChecked_run (b : Bay) (snap : Snapshot) (s : State) : (pollChecked b snap s).run = s.run :=
  (checkStages_actsOn b snap _).run.trans (pollSteps_run b snap _)

/-- The state after a poll that brings a check: the exchange is over, the demand test made, the change ended. -/
def checkedNext (b : Bay) (snap : Snapshot) (s : State) : State := settle (demandTested b (pollChecked b snap s))

theorem exec_checkedNext (h : checkedBy s b snap i) : exec i s = .next (checkedNext b snap s) := exec_checkedBy h

/-- The record after a poll that brings a check, its defrost record apart. -/
theorem record_checkedNext (h : checkedBy s b snap i) : ∃ d, bayAt (checkedNext b snap s) b
    = { checkedRecord s.run.settings snap (polledRecord snap (bayAt s b)) with defrost := d } := by
  obtain ⟨d, hd⟩ := record_pollChecked h
  obtain ⟨e, he⟩ := demandTested_written b (pollChecked b snap s)
  have hrun : (demandTested b (pollChecked b snap s)).run.state ≠ .halting := by
    rw [(demandTested_actsOn b (fun _ => False) _).run, pollChecked_run, h.2.2.2]
    nofun
  exact ⟨_, by rw [checkedNext, settle_record_of_ne hrun b, he, hd]⟩

theorem door_checkedNext (h : checkedBy s b snap i) :
    (bayAt (checkedNext b snap s) b).door = doorMath snap.door (bayAt s b).door := by
  obtain ⟨d, hd⟩ := record_checkedNext h
  rw [hd]
  exact (doorStage_eq _ _).1

theorem alert_checkedNext (b : Bay) (snap : Snapshot) (s : State) :
    (checkedNext b snap s).alert = (pollChecked b snap s).alert := by
  rw [checkedNext, settle_alert, (demandTested_actsOn b (fun _ => False) _).alert_eq]

/-! ## Polls that leave the episode and its charge -/

theorem sourceStep_of_not_moves {snap : Snapshot} (h : ¬ moves s b snap) : sourceStep b snap.source s = s := by
  have hstate (hf : chargeFollows s b = true) : (bayAt s b).defrost.state = .starting ∨ (bayAt s b).defrost.state = .active
      ∨ (bayAt s b).defrost.state = .hung ∨ ((bayAt s b).defrost.state = .stopping ∧ ¬ onAStack s b) := by
    unfold chargeFollows at hf
    cases hd : (bayAt s b).defrost.state with
    | starting => exact .inl rfl
    | active => exact .inr (.inl rfl)
    | hung => exact .inr (.inr (.inl rfl))
    | stopping =>
      rw [hd] at hf
      refine .inr (.inr (.inr ⟨rfl, fun k => ?_⟩))
      rw [(onStack_iff s b).mpr k] at hf
      cases hf
    | idle | queued | shed => rw [hd] at hf; cases hf
  by_contra hne
  refine h ?_
  unfold sourceStep at hne
  split at hne
  · next hf =>
    refine ⟨hstate hf, ?_⟩
    split at hne
    · next f hsrc hc => exact .inl ⟨hsrc, f, hc⟩
    · next hsrc hc =>
      split at hne
      · next f hfeeder => exact .inr ⟨hsrc, hc, by rw [hfeeder]; rfl⟩
      · exact absurd rfl hne
    · exact absurd rfl hne
  · exact absurd rfl hne

/-- The record of an answered poll written, and the pass owed for a QUEUED bay's new run source (R45, R120). -/
def pollNoted (b : Bay) (snap : Snapshot) (s : State) : State :=
  owePassIf (queuedSourceChanges (bayAt s b) snap) (modBay b (answeredRecord snap) s)

theorem bayAt_pollNoted (b : Bay) (snap : Snapshot) (s : State) :
    bayAt (pollNoted b snap s) b = answeredRecord snap (bayAt s b) := by
  rw [pollNoted, bayAt_congr (owePassIf_bays _ _), bayAt_modBay_same]

theorem pollNoted_arb (b : Bay) (snap : Snapshot) (s : State) : (pollNoted b snap s).arb = s.arb := by
  rw [pollNoted, owePassIf_eq]
  rfl

theorem pollNoted_loop (b : Bay) (snap : Snapshot) (s : State) : (pollNoted b snap s).loop = s.loop := by
  rw [pollNoted, owePassIf_eq]
  rfl

theorem moves_pollNoted : moves (pollNoted b snap s) b snap ↔ moves s b snap := by
  unfold moves onAStack
  rw [bayAt_pollNoted]
  simp only [feederAt, pollNoted_arb]
  exact .rfl

/-- A poll that neither ends the episode nor moves the charge does nothing but what R45 has it write. -/
theorem pollSteps_quiet (hm : ¬ endsByMode (bayAt s b) snap.mode) (hs : ¬ moves s b snap) :
    pollSteps b snap s = pollNoted b snap s := by
  have hmode : modeStep b snap.mode (pollNoted b snap s) = pollNoted b snap s :=
    modeStep_of_not (by rw [bayAt_pollNoted]; exact hm)
  show sourceStep b snap.source (modeStep b snap.mode (pollNoted b snap s)) = _
  rw [hmode, sourceStep_of_not_moves (moves_pollNoted.not.mpr hs)]

/-! ## What the later stages of a check leave -/

/-- A step within a change that leaves run controller, loop, arbiter and the bay's defrost record and occupancy. -/
structure KeepsBusiness (b : Bay) (s t : State) : Prop where
  run : t.run = s.run
  arb : t.arb = s.arb
  loop : t.loop = s.loop
  passDue : t.passDue = s.passDue
  defrost : (bayAt t b).defrost = (bayAt s b).defrost
  occupancy : (bayAt t b).occupancy = (bayAt s b).occupancy

theorem KeepsBusiness.trans (h : KeepsBusiness b s t) (k : KeepsBusiness b t u) : KeepsBusiness b s u :=
  ⟨k.run.trans h.run, k.arb.trans h.arb, k.loop.trans h.loop, k.passDue.trans h.passDue, k.defrost.trans h.defrost,
    k.occupancy.trans h.occupancy⟩

/-- A stage that writes its own fields of the record and may raise its alert. -/
theorem keepsBusiness_stage {g : BayRecord → BayRecord} (h : ∀ r, (g r).defrost = r.defrost ∧ (g r).occupancy = r.occupancy)
    (p : Bool) (x : Category) (s : State) : KeepsBusiness b s (raiseFor p x b (modBay b g s)) := by
  have hb : bayAt (raiseFor p x b (modBay b g s)) b = g (bayAt s b) := by
    rw [bayAt_congr (raiseFor_bays _ _ _ _), bayAt_modBay_same]
  obtain ⟨hd, ho⟩ := h (bayAt s b)
  refine ⟨?_, ?_, ?_, ?_, by rw [hb, hd], by rw [hb, ho]⟩ <;> cases p <;> rfl

/-- After the door stage a check up to its demand test leaves the defrost business. -/
theorem checkStages_after (b : Bay) (snap : Snapshot) (s : State) :
    KeepsBusiness b (checkWatched b snap s) (checkStages b snap s) := by
  have hfrost : KeepsBusiness b (checkWatched b snap s) (checkFrosted b snap s) := by
    rw [checkFrosted, checkFrost_eq]
    refine keepsBusiness_stage ?_ _ _ _
    exact fun _ => ⟨rfl, rfl⟩
  have hfuel : KeepsBusiness b (checkFrosted b snap s) (checkFuelled b snap s) := by
    rw [checkFuelled, checkFuel_eq]
    refine keepsBusiness_stage ?_ _ _ _
    exact fun _ => ⟨rfl, rfl⟩
  have hclosed : KeepsBusiness b (checkFuelled b snap s) (checkStages b snap s) := by
    rw [checkStages_split, checkClosed_eq]
    refine keepsBusiness_stage ?_ _ _ _
    exact fun _ => ⟨rfl, rfl⟩
  exact (hfrost.trans hfuel).trans hclosed

/-- What follows an event of R145 on a bay that is not DEPARTING without touching its business leaves the table's result. -/
theorem businessEnded_after {r : StopReason} {o : DefrostOutcome} (h : businessEnded r o s t b)
    (ho : (bayAt s b).occupancy ≠ .departing) (k : KeepsBusiness b t u) : businessEnded r o s u b := by
  have hfeeder (f : FeederIx) : feederAt u f = feederAt t f := by rw [feederAt, k.arb]; rfl
  have hstop : stopOnItsWay t b → stopOnItsWay u b := fun h => by
    rw [stopOnItsWay, k.loop]
    exact h
  obtain ⟨hidle, honce, hsent, hactive, hoff, hon⟩ := h
  rw [← k.defrost] at hidle hsent hactive hoff hon
  rw [← k.arb] at hactive
  refine ⟨hidle, fun h => ?_, hsent, fun h => ?_, hoff, fun h hs => ?_⟩
  · obtain ⟨hno, -, hd⟩ := honce h
    exact ⟨(inNoCollection_of_arb k.arb).mpr hno, fun hdep => absurd hdep ho, fun _ => k.defrost.trans (hd ho)⟩
  · obtain ⟨hd, ha, hn⟩ := hactive h
    exact ⟨hd, ha, fun hno => hstop (hn hno)⟩
  · obtain ⟨hd, hst⟩ := hon h hs
    exact ⟨hd, fun f => by rw [hfeeder]; exact hst f⟩

theorem NoPassFor.after (h : NoPassFor s b) (k : KeepsBusiness b s t) : NoPassFor t b := by
  unfold NoPassFor onAStack at *
  simp only [feederAt] at *
  rw [k.passDue, k.run, k.arb, k.defrost]
  exact h

/-- The door is newly OPEN: the notice ends the bay's business in the state after the door stage (R101). -/
theorem checkWatched_opened (hold : (bayAt s b).door.confirmed ≠ .opened)
    (hnew : (doorMath snap.door (bayAt s b).door).confirmed = .opened) :
    checkWatched b snap s = endBusiness b .door (doorWatched b snap.door (checkInputs b (workingInputs snap) s)) := by
  have hdoor : (bayAt (checkInputs b (workingInputs snap) s) b).door = (bayAt s b).door := by rw [record_checkInputs]
  rw [checkWatched, checkDoor_eq, hdoor, if_pos ((doorStage_eq _ _).2.2.mpr ⟨hold, hnew⟩)]

/-- The door was OPEN, or is not OPEN now: no event. -/
theorem checkWatched_quiet (h : (doorMath snap.door (bayAt s b).door).confirmed = .opened → (bayAt s b).door.confirmed = .opened) :
    checkWatched b snap s = doorWatched b snap.door (checkInputs b (workingInputs snap) s) := by
  have hdoor : (bayAt (checkInputs b (workingInputs snap) s) b).door = (bayAt s b).door := by rw [record_checkInputs]
  rw [checkWatched, checkDoor_eq, hdoor, if_neg fun k => ?_]
  obtain ⟨h1, h2⟩ := (doorStage_eq _ _).2.2.mp k
  exact h1 (h h2)

/-- Inputs and door stage leave all but causes and door of the record. -/
theorem bayAt_doorWatched (b : Bay) (snap : Snapshot) (s : State) :
    bayAt (doorWatched b snap.door (checkInputs b (workingInputs snap) s)) b
      = watchedRecord snap.door { bayAt s b with causes := condRange (workingInputs snap).range } := by
  rw [doorWatched, bayAt_modBay_same, record_checkInputs]

/-- A check up to its demand test leaves the defrost business where the door is not newly OPEN or there is none to end. -/
theorem checkStages_quiet (h : ((doorMath snap.door (bayAt s b).door).confirmed = .opened → (bayAt s b).door.confirmed = .opened)
    ∨ (bayAt s b).defrost.state = .idle ∨ (bayAt s b).defrost.state = .hung) : KeepsBusiness b s (checkStages b snap s) := by
  have hrecord := bayAt_doorWatched b snap s
  have hsame : checkWatched b snap s = doorWatched b snap.door (checkInputs b (workingInputs snap) s) := by
    rcases h with h | h
    · exact checkWatched_quiet h
    · rw [checkWatched, checkDoor_eq]
      split
      · exact endBusiness_of_rest (by rw [hrecord]; exact h) .door
      · rfl
  have hstages := checkStages_after b snap s
  rw [hsame] at hstages
  have hdoor : KeepsBusiness b s (doorWatched b snap.door (checkInputs b (workingInputs snap) s)) :=
    ⟨rfl, rfl, rfl, rfl, by rw [hrecord]; rfl, by rw [hrecord]; rfl⟩
  exact hdoor.trans hstages

/-- A door opened ends the bay's business by the table of R145, where the poll did nothing else to the episode. -/
theorem businessEnded_checkedNext (h : checkedBy s b snap i) (hends : endsAtOnce s b ∨ atRest s)
    (hm : episodeGoesOn (bayAt s b) snap.mode) (hs : ¬ moves s b snap) (hold : (bayAt s b).door.confirmed ≠ .opened)
    (hnew : (doorMath snap.door (bayAt s b).door).confirmed = .opened) :
    businessEnded .door .abortedDoor s (checkedNext b snap s) b := by
  have hsteps : pollSteps b snap (pollGap b snap s) = pollNoted b snap (pollGap b snap s) :=
    pollSteps_quiet (s := pollGap b snap s) (not_endsByMode (r := bayAt s b) hm) hs
  have hnoted := bayAt_pollNoted b snap (pollGap b snap s)
  have harb := pollNoted_arb b snap (pollGap b snap s)
  have hloop := pollNoted_loop b snap (pollGap b snap s)
  have hrun : (pollNoted b snap (pollGap b snap s)).run = s.run := hsteps ▸ pollSteps_run b snap (pollGap b snap s)
  have hchecked : pollChecked b snap s = checkStages b snap (pollNoted b snap (pollGap b snap s)) := by
    rw [pollChecked, hsteps]
  have hpass : atRest s → ¬ (bayAt s b).defrost.state = .queued → (pollNoted b snap (pollGap b snap s)).passDue = false := by
    intro hr hq
    rw [pollNoted, owePassIf_eq]
    exact Bool.or_eq_false_iff.mpr ⟨hr, Bool.and_eq_false_imp.mpr fun k => absurd (of_decide_eq_true k) hq⟩
  have hpark : (bayAt (pollNoted b snap (pollGap b snap s)) b).occupancy = .parked := by
    rw [hnoted]
    exact polledRecord_occupancy h.2.2.1 snap
  have hempty : emptiedRecord (bayAt (pollNoted b snap (pollGap b snap s)) b) = emptiedRecord (bayAt s b) := by rw [hnoted]; rfl
  have hdef : (bayAt (pollNoted b snap (pollGap b snap s)) b).defrost = (bayAt s b).defrost := by rw [hnoted]; rfl
  have hdoor : (bayAt (pollNoted b snap (pollGap b snap s)) b).door = (bayAt s b).door := by rw [hnoted]; rfl
  rw [checkedNext, hchecked]
  generalize pollNoted b snap (pollGap b snap s) = n at hrun harb hloop hpass hpark hempty hdef hdoor ⊢
  have htest : demandTest (checkStages b snap n) b = false := by
    obtain ⟨d, hd⟩ := record_checkStages (s := n) (b := b) (by rw [hpark]; nofun) snap
    have hopen : (bayAt (checkStages b snap n) b).door.confirmed = .opened := by
      rw [hd]
      show (doorStage snap.door (bayAt n b).door).door.confirmed = .opened
      rw [(doorStage_eq _ _).1, hdoor]
      exact hnew
    simp [demandTest, hopen]
  have hwatched := bayAt_doorWatched b snap n
  have hopened := checkWatched_opened (s := n) (snap := snap) (by rw [hdoor]; exact hold) (by rw [hdoor]; exact hnew)
  have hafter := checkStages_after b snap n
  rw [hopened] at hafter
  have hvdef : (bayAt (doorWatched b snap.door (checkInputs b (workingInputs snap) n)) b).defrost = (bayAt s b).defrost := by
    rw [hwatched]
    exact hdef
  have hvocc : (bayAt (doorWatched b snap.door (checkInputs b (workingInputs snap) n)) b).occupancy = .parked := by
    rw [hwatched]
    exact hpark
  have hvorders : (doorWatched b snap.door (checkInputs b (workingInputs snap) n)).loop.orders = s.loop.orders := by
    show n.loop.orders = _
    rw [hloop]
    rfl
  have hvarb (f : FeederIx) : feederAt (doorWatched b snap.door (checkInputs b (workingInputs snap) n)) f = feederAt s f := by
    show n.arb.feeders.get f = _
    rw [harb]
    rfl
  have hvempty : emptiedRecord (bayAt (doorWatched b snap.door (checkInputs b (workingInputs snap) n)) b)
      = emptiedRecord (bayAt s b) := by
    rw [hwatched, ← hempty]
    rfl
  have hvrest : endsAtOnce (doorWatched b snap.door (checkInputs b (workingInputs snap) n)) b
      ∨ atRest (doorWatched b snap.door (checkInputs b (workingInputs snap) n)) := by
    have hiff : endsAtOnce (doorWatched b snap.door (checkInputs b (workingInputs snap) n)) b ↔ endsAtOnce s b := by
      rw [endsAtOnce, hvdef, startWaits, hvorders]
    rcases hends with k | k
    · exact .inl (hiff.mpr k)
    · by_cases hq : (bayAt s b).defrost.state = .queued
      · exact .inl (hiff.mpr (.inl hq))
      · exact .inr (hpass k hq)
  have hvrun : (doorWatched b snap.door (checkInputs b (workingInputs snap) n)).run = s.run := hrun
  generalize doorWatched b snap.door (checkInputs b (workingInputs snap) n) = v at *
  have hended : businessEnded .door .abortedDoor v (checkStages b snap n) b :=
    businessEnded_after (businessEnded_endBusiness b .door v) (by rw [hvocc]; nofun) hafter
  have hno : NoPassFor (checkStages b snap n) b := (noPassFor_endBusiness hvrest .door).after hafter
  rw [demandTested, if_neg (by rw [htest]; nofun)]
  refine businessEnded_pre_of_iff (businessEnded_post hended (undisturbed_settle hno)) (by rw [hvrun])
    (fun f e _ => by rw [hvarb]) (fun x _ => by rw [hvorders]) hvdef ?_ hvempty
  rw [hvocc]
  exact ⟨nofun, fun k => absurd k (not_departing h)⟩

end Sys2Proof.Machine

namespace Sys2Proof.Proofs

open Sys2Proof.Machine Sys2Proof.Claims

/-- Settles O43: the causes are those of `checkedRecord`, and CHECK is raised at the check's end by them. -/
theorem checkConditionsAndRaise : Obligations.CheckConditionsAndRaise := by
  intro s b snap i h
  obtain ⟨d, hd⟩ := record_checkedNext h
  obtain ⟨e, he⟩ := record_pollChecked h
  refine ⟨_, exec_checkedNext h, ?_⟩
  rw [hd]
  refine ⟨checkedRecord_range _ _ _, checkedRecord_invalid _ _ _, checkedRecord_norate _ _ _, fun hg hf hc hv => ?_, rfl,
    fun x => ?_⟩
  · exact checkedRecord_saturate hg (polledRecord snap (bayAt s b)) (frostAtCheck_range hf snap.mode) hc hv snap
  · rw [alert_checkedNext, pollChecked, checkStages_raisesCheck, (pollSteps_raises b snap (pollGap b snap s)).2 _ (by decide),
      pollSteps_run, ← pollChecked, he]
    rfl

/-- Settles O44: the frost record is that of the exact formulas, and FROST is raised by the episode's end or by the index. -/
theorem frostStageOfACheck : Obligations.FrostStageOfACheck := by
  intro s b snap i h hg hf
  obtain ⟨d, hd⟩ := record_checkedNext h
  obtain ⟨e, he⟩ := record_pollChecked h
  obtain ⟨p, hp⟩ := record_polled h
  refine ⟨_, exec_checkedNext h, ?_, fun x => ?_⟩
  · rw [hd]
    exact checkedRecord_frost hg (polledRecord snap (bayAt s b)) (frostAtCheck_range hf snap.mode) snap
  · rw [alert_checkedNext, pollChecked, checkStages_raisesFrost (by rw [hp, polledRecord_occupancy h.2.2.1]; nofun),
      (pollSteps_raises b snap (pollGap b snap s)).1, ← pollChecked, he, hp, hd, or_assoc, ← and_or_left, frostRaised,
      Bool.and_eq_true, decide_eq_true_iff, decide_eq_true_iff]
    rfl

/-- Settles O45: the fuel record is that of the exact formulas; FUEL-ORDERED is cleared by a refuel alone. -/
theorem fuelStageOfACheck : Obligations.FuelStageOfACheck := by
  intro s b snap i h hc hv
  obtain ⟨d, hd⟩ := record_checkedNext h
  obtain ⟨e, he⟩ := record_pollChecked h
  obtain ⟨p, hp⟩ := record_polled h
  have hstage := fuelStage_eq s.run.settings (fun _ => levelRead_range (h := snap.p)) hc snap.source (bayAt s b).departure hv
  have hlevel := (workingInputs_eq snap).2.2
  have hresult : fuelResult s.run.settings snap.source (workingInputs snap) (bayAt s b)
      = fuelStage (fuelInputOf s.run.settings (levelRead snap.p) (bayAt s b).capacity snap.source (bayAt s b).departure)
          (bayAt s b).fuel := by
    rw [fuelResult, hlevel]
  have hfuel : (bayAt (checkedNext b snap s) b).fuel = fuelMath s.run.settings (levelRead snap.p) (bayAt s b).capacity snap.source
      (bayAt s b).departure (bayAt s b).fuel := by
    rw [hd]
    show (fuelResult s.run.settings snap.source (workingInputs snap) (bayAt s b)).fuel = _
    rw [hresult, hstage]
  have hordered : (bayAt (checkedNext b snap s) b).fuelOrdered = ((bayAt s b).fuelOrdered
      && !decide (refuelTaken (levelRead snap.p) (bayAt s b).capacity (bayAt s b).fuel)) := by
    rw [hd]
    show ((bayAt s b).fuelOrdered && !(fuelResult s.run.settings snap.source (workingInputs snap) (bayAt s b)).refuelled) = _
    rw [hresult, hstage]
  refine ⟨_, exec_checkedNext h, hfuel, ?_, fun x => ?_⟩
  · rw [hordered, Bool.and_eq_true, Bool.not_eq_true', decide_eq_false_iff_not]
  · have hsame : bayAt (checkedNext b snap s) b = { bayAt (pollChecked b snap s) b with defrost := d } := by
      rw [hd, he]
    have hraised := checkStages_raisesFuel (s := pollSteps b snap (pollGap b snap s)) (b := b)
      (by rw [hp, polledRecord_occupancy h.2.2.1]; nofun) snap x
    rw [(pollSteps_raises b snap (pollGap b snap s)).2 _ (by decide), hp] at hraised
    rw [alert_checkedNext, hsame]
    refine hraised.trans (or_congr .rfl (and_congr .rfl ?_))
    rw [Bool.and_eq_true, Bool.not_eq_true', fuelTurned, Bool.or_eq_true, Bool.and_eq_true, Bool.and_eq_true,
      Bool.not_eq_true', Bool.not_eq_true', and_comm]
    exact .rfl

/-- Settles O46: the door's table is `doorMath`, and the event of a newly OPEN door is the table of R145. -/
theorem doorStageOfACheck : Obligations.DoorStageOfACheck := by
  intro s b snap i h
  have hdoor := door_checkedNext h
  refine ⟨_, exec_checkedNext h, hdoor, fun hstate hold hnew => ?_, fun hrest hs hm hold hnew => ?_⟩
  · have hends : endsAtOnce s b := hstate.elim .inl fun k => .inr (.inl k)
    have hne (x : DefrostState) (hx : x ≠ .queued) (hy : x ≠ .shed) : (bayAt s b).defrost.state ≠ x := by
      rcases hstate with k | k <;> rw [k]
      · exact hx.symm
      · exact hy.symm
    have hs : ¬ moves s b snap := by
      rintro ⟨k | k | k | ⟨k, -⟩, -⟩
      · exact hne .starting nofun nofun k
      · exact hne .active nofun nofun k
      · exact hne .hung nofun nofun k
      · exact hne .stopping nofun nofun k
    have hm : episodeGoesOn (bayAt s b) snap.mode := by
      rintro (k | k)
      · exact absurd k (hne .active nofun nofun)
      · exact absurd k (hne .hung nofun nofun)
    rw [hdoor] at hnew
    obtain ⟨-, honce, -⟩ := businessEnded_checkedNext h (.inl hends) hm hs hold hnew
    obtain ⟨hno, -, hout⟩ := honce hends
    exact ⟨hout (not_departing h), hno⟩
  · rw [hdoor] at hnew
    exact businessEnded_checkedNext h (.inr hrest) hm hs hold hnew

end Sys2Proof.Proofs
end

section
/-! Answered polls (O37). -/

namespace Sys2Proof.Machine

open Sys2Proof.Claims

variable {b c : Bay} {s t u w : State} {snap : Snapshot} {i : Instr}

/-! ## The end of an answered poll -/

/-- The state before the end of the change that an answered poll makes. -/
def pollTaken (b : Bay) (snap : Snapshot) (s : State) : State := pollAnswered b snap (pollGap b snap s)

theorem exec_answered (hw : awaits s b .poll false) (hi : endsWith ⟨b, .poll, .awaiting, false⟩ (.telemetry snap) i) :
    exec i s = .next (settle (pollTaken b snap s)) := by
  rw [exec_endsWith hw rfl hi, endExchange_eq]
  rfl

/-- Where no check follows, the poll ends with its steps. -/
theorem pollTaken_unchecked (h : ¬ ((bayAt (pollSteps b snap (pollGap b snap s)) b).occupancy = .parked ∧ s.run.state = .running)) :
    pollTaken b snap s = pollSteps b snap (pollGap b snap s) := by
  rw [pollTaken, pollAnswered_eq, if_neg fun k => h ?_]
  rw [startsCheck, Bool.and_eq_true, isRunning_iff, pollSteps_run] at k
  exact ⟨of_decide_eq_true k.1, k.2⟩

/-- The record after the steps of a poll whose mode does not end the bay's episode, its START not unsent: a DEPARTING bay's
too (R148). -/
theorem record_pollSteps_unended (hm : ¬ endsByMode (bayAt s b) snap.mode)
    (hs : ¬ startCanGo s b) : ∃ d, bayAt (pollSteps b snap s) b = { answeredRecord snap (bayAt s b) with defrost := d } := by
  have hmode : modeStep b snap.mode (pollNoted b snap s) = pollNoted b snap s :=
    modeStep_of_not (by rw [bayAt_pollNoted]; exact hm)
  have hgo : ¬ startCanGo (pollNoted b snap s) b := by
    rw [startCanGo, startWaits, bayAt_pollNoted, pollNoted_loop]
    exact hs
  obtain ⟨d, hd⟩ := sourceStep_written snap.source (.inr hgo)
  have hsteps : pollSteps b snap s = sourceStep b snap.source (pollNoted b snap s) :=
    congrArg (sourceStep b snap.source) hmode
  exact ⟨d, by rw [hsteps, hd, bayAt_pollNoted]⟩

theorem answeredRecord_of_ne {r : BayRecord} (h : r.occupancy ≠ .arriving) (snap : Snapshot) : answeredRecord snap r
    = { r with snapshot := some snap, missCount := 0, link := .ok, roundsSince := 0, lastExchange := .answered } := by
  unfold answeredRecord
  rw [if_neg h]

/-- A poll whose mode ends the episode of a DEPARTING bay empties it (R9, R136, R139). -/
theorem record_pollSteps_emptied (h : (bayAt s b).occupancy = .departing) (hm : endsByMode (bayAt s b) snap.mode) :
    bayAt (pollSteps b snap s) b = emptiedRecord (bayAt s b) := by
  have hocc : (bayAt (pollNoted b snap s) b).occupancy = .departing := by
    rw [bayAt_pollNoted, answeredRecord, h]
    rfl
  have hended : bayAt (modeStep b snap.mode (pollNoted b snap s)) b = emptiedRecord (bayAt s b) := by
    rcases modeStep_exact b snap.mode (pollNoted b snap s) with ⟨k, -⟩ | ⟨o, -, k, -⟩
    · rw [bayAt_pollNoted] at k
      exact absurd hm k
    · rw [k, bayAt_endEpisode, if_pos hocc, bayAt_pollNoted]
      rfl
  have hsource : sourceStep b snap.source (modeStep b snap.mode (pollNoted b snap s))
      = modeStep b snap.mode (pollNoted b snap s) := by
    refine sourceStep_of_not_moves fun k => ?_
    rw [moves, hended] at k
    rcases k with ⟨k | k | k | ⟨k, -⟩, -⟩ <;> cases k
  exact (congrArg (bayAt · b) hsource).trans hended

end Sys2Proof.Machine

namespace Sys2Proof.Proofs

open Sys2Proof.Machine Sys2Proof.Claims

/-- The record of an ARRIVING or PARKED bay after an answered poll, checked or not. -/
theorem answeredFields_poll {s : State} {b : Bay} {snap : Snapshot} (hp : isPolled s b) (hd : (bayAt s b).occupancy ≠ .departing) :
    answeredFields snap (bayAt s b) (bayAt (settle (pollTaken b snap s)) b) := by
  have hpark := polledRecord_occupancy (r := bayAt s b) (by tauto) snap
  obtain ⟨d, hsteps⟩ := record_pollSteps (s := pollGap b snap s) hd snap
  have hfields (h : (∃ e, bayAt (pollTaken b snap s) b = { polledRecord snap (bayAt s b) with defrost := e })
      ∨ ∃ e, bayAt (pollTaken b snap s) b
        = { checkedRecord s.run.settings snap (polledRecord snap (bayAt s b)) with defrost := e }) :
      answeredFields snap (bayAt s b) (bayAt (settle (pollTaken b snap s)) b) := by
    rw [(settle_keepsRecord (pollTaken b snap s) b).1]
    rcases h with ⟨e, he⟩ | ⟨e, he⟩ <;> rw [he]
    · exact ⟨rfl, rfl, rfl, rfl, rfl, hpark, rfl, rfl, rfl, rfl, rfl, rfl, rfl, rfl, rfl⟩
    · exact ⟨rfl, rfl, rfl, rfl, rfl, hpark, rfl, rfl, rfl, rfl, rfl, rfl, rfl, rfl, rfl⟩
  apply hfields
  by_cases hr : s.run.state = .running
  · have hstarts : startsCheck (pollSteps b snap (pollGap b snap s)) b = true := by
      rw [startsCheck, hsteps, Bool.and_eq_true, isRunning_iff, pollSteps_run]
      exact ⟨decide_eq_true hpark, hr⟩
    obtain ⟨e, he⟩ := record_check (s := pollSteps b snap (pollGap b snap s)) (b := b)
      (by rw [hsteps]; exact fun k => nomatch hpark.symm.trans k) snap
    refine .inr ⟨e, ?_⟩
    rw [pollTaken, pollAnswered_eq, if_pos hstarts, he, hsteps, pollSteps_run]
    rfl
  · refine .inl ⟨d, ?_⟩
    rw [pollTaken_unchecked fun k => hr k.2]
    exact hsteps

/-- Settles O37: the polled bay's record by its occupancy, every other bay's by the frame of an exchange's end. -/
theorem answeredPollWritesTheRecord : Obligations.AnsweredPollWritesTheRecord := by
  intro s b i snap hw hi hp
  have hgap : endExchange ⟨b, .poll, .awaiting, false⟩ (.telemetry snap) s = settle (pollTaken b snap s) := by
    rw [endExchange_eq]
    rfl
  have honly := onlyBay_endExchange ⟨b, .poll, .awaiting, false⟩ (.telemetry snap) s
  have hexchange := endExchange_exchange ⟨b, .poll, .awaiting, false⟩ (.telemetry snap) s
  rw [hgap] at honly hexchange
  have hkeeps : Keeps (pollGap b snap s) (settle (pollTaken b snap s)) := (pollAnswered_keeps b snap _).trans (settle_keeps _)
  refine ⟨_, exec_answered hw hi, answeredFields_poll hp, fun hd hm hs => ?_, fun hd hm => ?_, hexchange, fun c hc => ?_,
    hkeeps.port, hkeeps.settings⟩
  · obtain ⟨d, hsteps⟩ := record_pollSteps_unended (s := pollGap b snap s) (b := b) hm hs
    have hgapped : bayAt (pollGap b snap s) b = bayAt s b := rfl
    rw [hgapped, answeredRecord_of_ne (by rw [hd]; nofun)] at hsteps
    have hdep : (bayAt (pollSteps b snap (pollGap b snap s)) b).occupancy = .departing := by rw [hsteps, hd]
    have htaken : pollTaken b snap s = pollSteps b snap (pollGap b snap s) :=
      pollTaken_unchecked fun k => by rw [hdep] at k; exact nomatch k.1
    rw [htaken]
    have hrun := pollSteps_run b snap (pollGap b snap s)
    have hkeep := settle_keepsRecord (pollSteps b snap (pollGap b snap s)) b
    refine ⟨by rw [hkeep.1, hsteps], fun h => ?_, fun h => ?_, fun hmv hq hshed => ?_⟩
    · rcases settle_cases (pollSteps b snap (pollGap b snap s)) with ⟨-, k⟩ | ⟨k, k', -⟩
      · rw [k b, (runPass_defrostsOnly _).record b, hsteps]
      · rw [k', ← show (pollSteps b snap (pollGap b snap s)).run = s.run from hrun, k] at h
        cases h
    · rcases settle_cases (pollSteps b snap (pollGap b snap s)) with ⟨k, -⟩ | ⟨-, -, k⟩
      · rw [k, hrun] at h
        exact absurd rfl h
      · rw [k b, (runPass_defrostsOnly _).record b, hsteps]
        rfl
    · have hquiet : pollSteps b snap (pollGap b snap s) = pollNoted b snap (pollGap b snap s) :=
        pollSteps_quiet (s := pollGap b snap s) hm hmv
      have hno : NoPassFor (pollSteps b snap (pollGap b snap s)) b := by
        rw [hquiet]
        refine .inr (.inr ⟨?_, .inl ?_⟩)
        · rw [pollNoted_arb]
          exact hq
        · rw [bayAt_pollNoted]
          exact hshed
      have hrecord := (undisturbed_settle hno).record
      rw [hquiet, bayAt_pollNoted] at hrecord
      rw [hquiet]
      rcases hrecord with k | k <;> rw [k] <;> rfl
  · have hsteps := record_pollSteps_emptied (s := pollGap b snap s) (b := b) hd hm
    have htaken : pollTaken b snap s = pollSteps b snap (pollGap b snap s) :=
      pollTaken_unchecked fun k => by rw [hsteps] at k; exact nomatch k.1
    rw [htaken]
    exact settle_emptied hsteps
  · rw [honly.record c hc]
    exact ⟨rfl, rfl, rfl, rfl⟩

end Sys2Proof.Proofs
end

section
/-! Demands that join the queue (O48). -/

namespace Sys2Proof.Machine

open Sys2Proof.Claims

variable {b c : Bay} {s t u w : State} {snap : Snapshot} {i : Instr}

/-! ## The loop arbiter's choice and a waiting order -/

/-- A queued order stays queued or is taken for the loop (R52). -/
theorem order_serveLoop {o : Order} (h : o ∈ s.loop.orders) : o ∈ (serveLoop s).loop.orders
    ∨ (serveLoop s).loop.exchange = some ⟨o.bay, .order o.kind, .sending, false⟩ := by
  rcases serveLoop_cases s with k | ⟨x, rest, -, -, hs, k⟩ | ⟨x, -, -, -, -, k⟩ <;> rw [k]
  · exact .inl h
  · rw [hs] at h
    rcases List.mem_cons.mp h with rfl | h
    · exact .inr rfl
    · exact .inl h
  · exact .inl h

/-- The same at the end of a change, for an order that the pass has placed. -/
theorem order_settle {o : Order} (h : o ∈ (runPass s).loop.orders) : o ∈ (settle s).loop.orders
    ∨ (settle s).loop.exchange = some ⟨o.bay, .order o.kind, .sending, false⟩ := by
  rw [settle, haltTest_loop]
  exact order_serveLoop (by rw [endRound_orders]; exact h)

/-! ## The pass and the queue -/

theorem resumeFeeder_queue (f : FeederIx) (n : Nat) (s : State) : (resumeFeeder f n s).arb.queue = s.arb.queue := by
  induction n generalizing s with
  | zero => rfl
  | succ n ih =>
    rcases resumeFeeder_succ f n s with h | ⟨top, rest, -, -, -, h⟩ <;> rw [h]
    rw [ih]
    rfl

/-- The demand queue is left as it was. -/
def SameQueue (s t : State) : Prop := t.arb.queue = s.arb.queue

/-- Resuming leaves the demand queue (R121). -/
theorem sameQueue_resumeAll (s : State) : SameQueue s (resumeAll s) :=
  foldl_rel (R := SameQueue) (fun _ => rfl) (fun _ _ _ h k => k.trans h) (fun s f => resumeFeeder_queue f _ s) allFeeders s

theorem grantQueue_arb (s : State) : (grantQueue s).arb = { (queueWalked s).state.arb with queue := (queueWalked s).kept } := rfl

theorem grantQueue_loop (s : State) : (grantQueue s).loop = (queueWalked s).state.loop := rfl

/-! ## A demand that joins -/

/-- The newest entry's turn in the walk of the queue: it waits, passed over once at most, or is granted (R122 to R124). -/
theorem walkEntry_newest {v : QueueWalk} {q : QueueEntry} (hb : q.bay = b) (hp : q.passOver = 0)
    (hq : (bayAt v.state b).defrost.state = .queued) (hk : ∀ x ∈ v.kept, x.bay ≠ b) :
    (bayAt (walkEntry v q).state b).defrost.origin = (bayAt v.state b).defrost.origin
    ∧ (((bayAt (walkEntry v q).state b).defrost.state = .queued ∧ ∃ q', (walkEntry v q).kept = v.kept ++ [q'] ∧ q'.bay = b
          ∧ q'.origin = q.origin ∧ q'.joined = q.joined ∧ q'.passOver ≤ 1)
      ∨ ((bayAt (walkEntry v q).state b).defrost.state = .starting ∧ (bayAt (walkEntry v q).state b).defrost.elapsed = 0
          ∧ (bayAt (walkEntry v q).state b).defrost.draw = (bayAt (walkEntry v q).state b).draw
          ∧ b ∈ (walkEntry v q).state.arb.active ∧ (⟨b, .start false⟩ : Order) ∈ (walkEntry v q).state.loop.orders)) := by
  subst hb
  have hgranted (x : Charge) : (bayAt (grant q.bay x v.state) q.bay).defrost.origin = (bayAt v.state q.bay).defrost.origin
      ∧ (bayAt (grant q.bay x v.state) q.bay).defrost.state = .starting
      ∧ (bayAt (grant q.bay x v.state) q.bay).defrost.elapsed = 0
      ∧ (bayAt (grant q.bay x v.state) q.bay).defrost.draw = (bayAt (grant q.bay x v.state) q.bay).draw
      ∧ q.bay ∈ (grant q.bay x v.state).arb.active ∧ (⟨q.bay, .start false⟩ : Order) ∈ (grant q.bay x v.state).loop.orders := by
    rw [bayAt_grant]
    exact ⟨rfl, rfl, rfl, rfl, List.mem_append_right _ (List.mem_singleton_self _),
      List.mem_append_right _ (List.mem_singleton_self _)⟩
  rcases walkEntry_cases v q with h | ⟨f, -, -, -, -, h⟩ | ⟨-, -, h⟩ | ⟨f, -, -, -, -, h⟩ <;> rw [h]
  · exact ⟨rfl, .inl ⟨hq, q, rfl, rfl, rfl, rfl, by omega⟩⟩
  · exact ⟨rfl, .inl ⟨hq, _, rfl, rfl, rfl, rfl, by show min (q.passOver + 1) 4 ≤ 1; omega⟩⟩
  · exact ⟨(hgranted .self).1, .inr (hgranted .self).2⟩
  · exact ⟨(hgranted (.feeder f)).1, .inr (hgranted (.feeder f)).2⟩

/-- What `demandStands` says of the state after a pass, before the loop arbiter's choice. -/
def demandPassed (o : Origin) (minute : Nat) (t : State) (b : Bay) : Prop :=
  (bayAt t b).defrost.origin = some o
    ∧ (((bayAt t b).defrost.state = .queued ∧ ∃ older q, t.arb.queue = older ++ [q] ∧ (∀ p ∈ older, p.bay ≠ b) ∧ q.bay = b
          ∧ q.origin = o ∧ q.joined = minute ∧ q.passOver ≤ 1)
      ∨ ((bayAt t b).defrost.state = .starting ∧ (bayAt t b).defrost.elapsed = 0
          ∧ (bayAt t b).defrost.draw = (bayAt t b).draw ∧ b ∈ t.arb.active ∧ (⟨b, .start false⟩ : Order) ∈ t.loop.orders))

/-- A bay whose newest entry is the last of the queue, after the walk of the queue: waiting, or granted. -/
theorem demandPassed_grantQueue {older : List QueueEntry} {o : Origin} {minute : Nat}
    (hqueue : s.arb.queue = older ++ [⟨b, o, minute, 0⟩]) (hno : ∀ x ∈ older, x.bay ≠ b)
    (hq : (bayAt s b).defrost.state = .queued) (ho : (bayAt s b).defrost.origin = some o) :
    demandPassed o minute (grantQueue s) b := by
  obtain ⟨hsame, hkept⟩ := sameFor_walkQueue older ⟨s, [], []⟩ hno nofun
  have hwalk : queueWalked s = walkEntry (older.foldl walkEntry ⟨s, [], []⟩) ⟨b, o, minute, 0⟩ := by
    rw [queueWalked, hqueue, List.foldl_append]
    rfl
  have hnewest := walkEntry_newest (v := older.foldl walkEntry ⟨s, [], []⟩) (q := ⟨b, o, minute, 0⟩) rfl rfl
    (by rw [hsame.record]; exact hq) hkept
  rw [← hwalk, hsame.record, ho] at hnewest
  obtain ⟨horigin, hcase⟩ := hnewest
  unfold demandPassed
  rw [bayAt_grantQueue, grantQueue_arb, grantQueue_loop]
  refine ⟨horigin, ?_⟩
  rcases hcase with ⟨hd, q', hk, hq'⟩ | h
  · exact .inl ⟨hd, _, q', hk, hkept, hq'⟩
  · exact .inr h

theorem demandPassed_grantPass {older : List QueueEntry} {o : Origin} {minute : Nat}
    (hqueue : s.arb.queue = older ++ [⟨b, o, minute, 0⟩]) (hno : ∀ x ∈ older, x.bay ≠ b)
    (hq : (bayAt s b).defrost.state = .queued) (ho : (bayAt s b).defrost.origin = some o) :
    demandPassed o minute (grantPass s) b := by
  have hresume : SameFor b s (resumeAll s) := sameFor_resumeAll (.inl (by rw [hq]; nofun))
  exact demandPassed_grantQueue ((sameQueue_resumeAll s).trans hqueue) hno (by rw [hresume.record]; exact hq)
    (by rw [hresume.record]; exact ho)

/-- A demand of a bay that waits nowhere joins the queue, and stands there or is granted at the end of the change. -/
theorem demandStands_settle (hr : s.run.state = .running) (hq : ∀ q ∈ s.arb.queue, q.bay ≠ b) (o : Origin) :
    demandStands o s.run.yardMinute (settle (joinQueue b o s)) b := by
  have hd := bayAt_joinQueue b o s
  have hpassed : demandPassed o s.run.yardMinute (runPass (joinQueue b o s)) b := by
    rcases runPass_cases (joinQueue b o s) with ⟨k, -⟩ | ⟨-, -, k⟩ | ⟨-, k, -⟩
    · cases k
    · rw [k]
      have hsame : bayAt { joinQueue b o s with passDue := false } b = bayAt (joinQueue b o s) b := rfl
      exact demandPassed_grantPass (older := s.arb.queue) rfl hq (by rw [hsame, hd]) (by rw [hsame, hd])
    · exact absurd hr k
  have hbay : bayAt (settle (joinQueue b o s)) b = bayAt (runPass (joinQueue b o s)) b := by
    rcases settle_cases (joinQueue b o s) with ⟨-, k⟩ | ⟨k, -, -⟩
    · exact k b
    · rw [show (joinQueue b o s).run = s.run from rfl, hr] at k
      cases k
  obtain ⟨horigin, hcase⟩ := hpassed
  unfold demandStands
  rw [hbay, settle_arb]
  refine ⟨horigin, ?_⟩
  rcases hcase with ⟨hs, older, q, h⟩ | ⟨hs, he, hdraw, ha, hord⟩
  · exact .inl ⟨hs, older, q, h⟩
  · exact .inr ⟨hs, he, hdraw, ha, order_settle hord⟩

/-! ## DEFROST NOW -/

theorem defrostNowOk_iff (s : State) (b : Bay) : defrostNowOk s b = true ↔ mayDefrost s b := by
  simp only [defrostNowOk, Bool.and_eq_true, isRunning_iff, decide_eq_true_iff, Option.isNone_iff_eq_none, and_assoc]

theorem defrostNowOwner_bayByte (b : Bay) (s : State) : defrostNowOwner [bayByte b] s
    = if defrostNowOk s b then (plain .done, settle (joinQueue b .manual s)) else refuse .refusedState s := by
  simp only [defrostNowOwner, withBay_bayByte]

theorem defrostNowOwner_of_noBay {x : Byte} (h : noBay x) (s : State) : defrostNowOwner [x] s = refuse .badArgument s := by
  simp only [defrostNowOwner, withBay_of_noBay h, refuse, plain]

theorem demandStands_writeReply {o : Origin} {minute : Nat} (h : demandStands o minute t b) (st : Station) (r : Reply) :
    demandStands o minute (writeReply st r t) b := by
  unfold demandStands
  rw [bayAt_congr (writeReply_bays st r t), writeReply_arb, writeReply_loop]
  exact h

/-! ## The demand test of a check -/

/-- Of an IDLE bay a check up to its demand test leaves the defrost business, its door opened or not. -/
theorem pollChecked_idle (snap : Snapshot) (hd : (bayAt s b).defrost.state = .idle) :
    (bayAt (pollChecked b snap s) b).defrost = (bayAt s b).defrost ∧ (pollChecked b snap s).arb = s.arb := by
  have hsteps : pollSteps b snap (pollGap b snap s) = pollNoted b snap (pollGap b snap s) := by
    refine pollSteps_quiet (s := pollGap b snap s) (fun k => ?_) (fun k => ?_)
    · rcases k with ⟨-, k | ⟨k, -⟩⟩
      · exact nomatch hd.symm.trans k
      · exact nomatch hd.symm.trans k
    · rcases k with ⟨k | k | k | ⟨k, -⟩, -⟩ <;> exact nomatch hd.symm.trans k
  have hnoted := bayAt_pollNoted b snap (pollGap b snap s)
  have harb := pollNoted_arb b snap (pollGap b snap s)
  have hdef : (bayAt (pollNoted b snap (pollGap b snap s)) b).defrost = (bayAt s b).defrost := by rw [hnoted]; rfl
  rw [pollChecked, hsteps]
  have hafter := checkStages_quiet (s := pollNoted b snap (pollGap b snap s)) (snap := snap) (.inr (.inl (by rw [hdef]; exact hd)))
  exact ⟨hafter.defrost.trans hdef, hafter.arb.trans harb⟩

theorem demandTest_iff (s : State) (b : Bay) : demandTest s b = true ↔ s.run.settings.demandThreshold ≤ (bayAt s b).frost.f
    ∧ (bayAt s b).defrost.state = .idle ∧ (bayAt s b).defrost.holdoff = 0 ∧ (bayAt s b).hold = none
    ∧ (bayAt s b).door.confirmed ≠ .opened ∧ (bayAt s b).link = .ok := by
  simp only [demandTest, Bool.and_eq_true, decide_eq_true_iff, Option.isNone_iff_eq_none, and_assoc]

end Sys2Proof.Machine

namespace Sys2Proof.Proofs

open Sys2Proof.Machine Sys2Proof.Claims

/-- Settles O48: both demands join as `demandStands_settle` tells. -/
theorem demandsJoinTheQueue : Obligations.DemandsJoinTheQueue := by
  refine ⟨fun s st hst => ?_, fun s b snap i h hidle hno => ?_⟩
  · have hp : permitted .defrostNow st = true := by rcases hst with rfl | rfl <;> rfl
    refine ⟨fun b hm hno => ?_, fun b hm => ?_, fun x hx => ?_⟩
    · have hown : defrostNowOwner [bayByte b] (taking st s) = (plain .done, settle (joinQueue b .manual (taking st s))) := by
        rw [defrostNowOwner_bayByte]
        exact if_pos ((defrostNowOk_iff (taking st s) b).mpr hm)
      refine ⟨_, exec_taken (k := .defrostNow) (owner := defrostNowOwner [bayByte b]) rfl hp rfl, ?_, ?_⟩ <;> rw [hown]
      · exact reply_writeReply_done _ _ _
      · exact demandStands_writeReply (demandStands_settle (s := taking st s) hm.1 hno.1 .manual) st _
    · refine exec_refused (k := .defrostNow) (owner := defrostNowOwner [bayByte b]) rfl hp rfl ?_
      rw [defrostNowOwner_bayByte]
      exact if_neg fun k => hm ((defrostNowOk_iff (taking st s) b).mp k)
    · exact exec_refused (k := .defrostNow) (owner := defrostNowOwner [x]) rfl hp rfl (defrostNowOwner_of_noBay hx _)
  · obtain ⟨d, hd⟩ := record_checkedNext h
    obtain ⟨e, he⟩ := record_pollChecked h
    obtain ⟨hdef, harb⟩ := pollChecked_idle snap hidle
    have hrun := pollChecked_run b snap s
    have hsame : bayAt (checkedNext b snap s) b = { bayAt (pollChecked b snap s) b with defrost := d } := by rw [hd, he]
    have hlink : (bayAt (pollChecked b snap s) b).link = .ok := by rw [he]; rfl
    have hhold : (bayAt (pollChecked b snap s) b).hold = (bayAt s b).hold := by rw [he]; rfl
    have htest : demandTest (pollChecked b snap s) b = true ↔ s.run.settings.demandThreshold ≤ (bayAt (checkedNext b snap s) b).frost.f
        ∧ (bayAt s b).defrost.holdoff = 0 ∧ (bayAt s b).hold = none ∧ (bayAt (checkedNext b snap s) b).door.confirmed ≠ .opened := by
      rw [demandTest_iff, hsame, hdef, hhold, hrun]
      exact ⟨fun ⟨h1, _, h3, h4, h5, _⟩ => ⟨h1, h3, h4, h5⟩, fun ⟨h1, h3, h4, h5⟩ => ⟨h1, hidle, h3, h4, h5, hlink⟩⟩
    refine ⟨_, exec_checkedNext h, fun k => ?_, fun k => ?_⟩
    · have hstands := demandStands_settle (s := pollChecked b snap s) (b := b) (by rw [hrun]; exact h.2.2.2)
        (by rw [harb]; exact hno.1) .estimate
      rw [checkedNext, demandTested, if_pos (htest.mpr k), ← hrun]
      exact hstands
    · have hpass : NoPassFor (pollChecked b snap s) b := noPassFor_of_inNoCollection ((inNoCollection_of_arb harb).mpr hno)
      rw [checkedNext, demandTested, if_neg fun x => k (htest.mp x), ← hdef]
      rcases (undisturbed_settle hpass).record with x | x <;> rw [x]
      rfl

end Sys2Proof.Proofs
end

section
/-! The feeder sums (R110) and what the two steps of a grant pass do to them, to the stacks and to the queue (R120 to R124). -/

namespace Sys2Proof.Machine

open Sys2Proof.Claims

variable {b c : Bay} {f g : FeederIx} {s t u : State}

/-! ## Sums over the bays -/

/-- Two sums that differ in one summand. -/
theorem sum_map_exchange {α : Type} [DecidableEq α] {l : List α} (hl : l.Nodup) {a : α} (ha : a ∈ l) {h k : α → Nat}
    (hne : ∀ x, x ≠ a → h x = k x) : (l.map h).sum + k a = (l.map k).sum + h a := by
  have hperm := List.perm_cons_erase ha
  have hrest : (l.erase a).map h = (l.erase a).map k :=
    List.map_congr_left fun x hx => hne x ((List.Nodup.mem_erase_iff hl).mp hx).1
  rw [(hperm.map h).sum_eq, (hperm.map k).sum_eq, List.map_cons, List.map_cons, List.sum_cons, List.sum_cons, hrest]
  omega

/-- A change of one bay's record moves a feeder's committed current by that bay's draw alone. -/
theorem committed_of_others (h : KeepsOthers b s t) (f : FeederIx) : committed t f + committedDraw f (bayAt s b).defrost
    = committed s f + committedDraw f (bayAt t b).defrost :=
  sum_map_exchange (l := allBays) (h := fun c => committedDraw f (bayAt t c).defrost)
    (k := fun c => committedDraw f (bayAt s c).defrost) (List.nodup_finRange 40) (mem_allBays b) fun x hx => by rw [h x hx]

theorem admitted_of_others (h : KeepsOthers b s t) (f : FeederIx) : admitted t f + admittedDraw f (bayAt s b).defrost
    = admitted s f + admittedDraw f (bayAt t b).defrost :=
  sum_map_exchange (l := allBays) (h := fun c => admittedDraw f (bayAt t c).defrost)
    (k := fun c => admittedDraw f (bayAt s c).defrost) (List.nodup_finRange 40) (mem_allBays b) fun x hx => by rw [h x hx]

theorem committed_congr (h : ∀ c, (bayAt t c).defrost = (bayAt s c).defrost) (f : FeederIx) : committed t f = committed s f := by
  simp only [committed, h]

theorem admitted_congr (h : ∀ c, (bayAt t c).defrost = (bayAt s c).defrost) (f : FeederIx) : admitted t f = admitted s f := by
  simp only [admitted, h]

/-- A bay that was not counted and is counted now adds its draw. -/
theorem committed_of_joined (h : KeepsOthers b s t) (hs : counted (bayAt s b).defrost.state = false)
    (ht : counted (bayAt t b).defrost.state = true) (f : FeederIx) : committed t f = committed s f
      + if (bayAt t b).defrost.charge = .feeder f then (bayAt t b).defrost.draw else 0 := by
  have hsum := committed_of_others h f
  have h0 : committedDraw f (bayAt s b).defrost = 0 := if_neg fun k => by rw [hs] at k; exact nomatch k.2
  have h1 : committedDraw f (bayAt t b).defrost
      = if (bayAt t b).defrost.charge = .feeder f then (bayAt t b).defrost.draw else 0 := by
    simp only [committedDraw, ht, and_true]
  omega

/-! ## The first step of the pass: resuming (R121) -/

/-- The record of a resumed bay (R121). -/
def resumedRecord (r : BayRecord) : BayRecord :=
  { r with defrost := { r.defrost with state := .starting, reason := none, shedPending := false } }

/-- Every shed entry is charged to its feeder. -/
def StacksCharged (s : State) : Prop := ∀ f, ∀ e ∈ (feederAt s f).stack, (bayAt s e.bay).defrost.charge = .feeder f

/-- What resuming does: SHED bays from the tops of the stacks become STARTING, within the budgets. -/
structure Resumed (s t : State) : Prop where
  budget : ∀ f, (feederAt t f).budget = (feederAt s f).budget
  lower : ∀ f, committed s f ≤ committed t f
  upper : ∀ f, committed t f ≤ max (committed s f) (feederAt s f).budget
  stack : ∀ f, ∃ gone, (feederAt s f).stack = gone ++ (feederAt t f).stack
    ∧ ∀ e ∈ gone, (bayAt s e.bay).defrost.state = .shed ∧ bayAt t e.bay = resumedRecord (bayAt s e.bay) ∧ e.bay ∈ t.arb.active
  record : ∀ c, bayAt t c = bayAt s c
    ∨ ((bayAt s c).defrost.state = .shed ∧ bayAt t c = resumedRecord (bayAt s c))
  active : ∀ c ∈ s.arb.active, c ∈ t.arb.active

theorem Resumed.refl (s : State) : Resumed s s :=
  ⟨fun _ => rfl, fun _ => le_rfl, fun _ => le_max_left _ _, fun _ => ⟨[], rfl, nofun⟩, fun _ => .inl rfl, fun _ h => h⟩

theorem Resumed.of_not_shed (h : Resumed s t) (hc : (bayAt s c).defrost.state ≠ .shed) : bayAt t c = bayAt s c :=
  (h.record c).resolve_right fun k => hc k.1

theorem Resumed.trans (h : Resumed s t) (k : Resumed t u) : Resumed s u := by
  refine ⟨fun f => (k.budget f).trans (h.budget f), fun f => (h.lower f).trans (k.lower f), fun f => ?_, fun f => ?_, fun c => ?_,
    fun c hc => k.active c (h.active c hc)⟩
  · have h1 := h.upper f
    have h2 := k.upper f
    rw [h.budget f] at h2
    omega
  · obtain ⟨gone, hs, hgone⟩ := h.stack f
    obtain ⟨more, ht, hmore⟩ := k.stack f
    refine ⟨gone ++ more, by rw [hs, ht, List.append_assoc], fun e he => ?_⟩
    rcases List.mem_append.mp he with he | he
    · obtain ⟨hshed, hr, ha⟩ := hgone e he
      refine ⟨hshed, ?_, k.active _ ha⟩
      rw [k.of_not_shed (by rw [hr]; nofun), hr]
    · obtain ⟨hshed, hr, ha⟩ := hmore e he
      have hsame : bayAt t e.bay = bayAt s e.bay := (h.record e.bay).resolve_right fun x => by
        rw [x.2] at hshed
        exact nomatch hshed
      rw [hsame] at hshed hr
      exact ⟨hshed, hr, ha⟩
  · rcases k.record c with hk | ⟨hk, hk'⟩
    · rw [hk]
      exact h.record c
    · have hsame : bayAt t c = bayAt s c := (h.record c).resolve_right fun x => by
        rw [x.2] at hk
        exact nomatch hk
      rw [hsame] at hk hk'
      exact .inr ⟨hk, hk'⟩

theorem Resumed.charged (h : Resumed s t) (hs : StacksCharged s) : StacksCharged t := fun f e he => by
  obtain ⟨gone, hstack, -⟩ := h.stack f
  have hcharge := hs f e (by rw [hstack]; exact List.mem_append_right _ he)
  rcases h.record e.bay with k | ⟨-, k⟩ <;> rw [k]
  · exact hcharge
  · exact hcharge

theorem feederAt_resumeTop (f g : FeederIx) (b : Bay) (rest : List ShedEntry) (s : State) :
    feederAt (resumeTop f b rest s) g = if g = f then { feederAt s f with stack := rest } else feederAt s g :=
  feederAt_setFeeder f g { feederAt s f with stack := rest } s

theorem bayAt_resumeTop_same (f : FeederIx) (b : Bay) (rest : List ShedEntry) (s : State) :
    bayAt (resumeTop f b rest s) b = resumedRecord (bayAt s b) := bayAt_resumeTop f b rest s

/-- One resume of a top entry that is SHED and fits. -/
theorem resumed_resumeTop {top : ShedEntry} {rest : List ShedEntry} (hstack : (feederAt s f).stack = top :: rest)
    (hshed : (bayAt s top.bay).defrost.state = .shed) (hcharge : (bayAt s top.bay).defrost.charge = .feeder f)
    (hfit : committed s f + (bayAt s top.bay).defrost.draw ≤ (feederAt s f).budget) :
    Resumed s (resumeTop f top.bay rest s) := by
  have hothers : KeepsOthers top.bay s (resumeTop f top.bay rest s) := (resumeTop_actsOn hstack fun _ => False).records
  have hb := bayAt_resumeTop_same f top.bay rest s
  have hsum (g : FeederIx) : committed (resumeTop f top.bay rest s) g
      = committed s g + if g = f then (bayAt s top.bay).defrost.draw else 0 := by
    rw [committed_of_joined hothers (by rw [hshed]; rfl) (by rw [hb]; rfl), hb]
    show _ + (if (bayAt s top.bay).defrost.charge = _ then (bayAt s top.bay).defrost.draw else 0) = _
    rw [hcharge]
    simp only [Charge.feeder.injEq, eq_comm]
  have hactive : top.bay ∈ (resumeTop f top.bay rest s).arb.active := List.mem_append_right _ (List.mem_singleton_self _)
  refine ⟨fun g => ?_, fun g => by rw [hsum]; omega, fun g => ?_, fun g => ?_, fun c => ?_, fun c hc => List.mem_append_left _ hc⟩
  · rw [feederAt_resumeTop]
    split
    · next h => rw [h]
    · rfl
  · rw [hsum]
    split
    · next h => subst h; omega
    · omega
  · rw [feederAt_resumeTop]
    split
    · next h =>
      subst h
      refine ⟨[top], hstack, fun e he => ?_⟩
      rw [List.mem_singleton.mp he]
      exact ⟨hshed, hb, hactive⟩
    · exact ⟨[], rfl, nofun⟩
  · by_cases hc : c = top.bay
    · subst hc
      exact .inr ⟨hshed, hb⟩
    · exact .inl (hothers c hc)

theorem resumed_resumeFeeder (f : FeederIx) (n : Nat) (hs : StacksCharged s) : Resumed s (resumeFeeder f n s) := by
  induction n generalizing s with
  | zero => exact .refl s
  | succ n ih =>
    rcases resumeFeeder_succ f n s with h | ⟨top, rest, hstack, hshed, hfit, h⟩ <;> rw [h]
    · exact .refl s
    · have hstep := resumed_resumeTop hstack hshed (hs f top (by rw [hstack]; exact List.mem_cons_self)) hfit
      exact hstep.trans (ih (hstep.charged hs))

/-- Resuming feeder by feeder (R121). -/
theorem resumed_foldl (l : List FeederIx) (hs : StacksCharged s) :
    Resumed s (l.foldl (fun s f => resumeFeeder f (feederAt s f).stack.length s) s) := by
  induction l generalizing s with
  | nil => exact .refl s
  | cons f l ih =>
    have hstep := resumed_resumeFeeder f (feederAt s f).stack.length hs
    exact hstep.trans (ih (hstep.charged hs))

theorem resumed_resumeAll (hs : StacksCharged s) : Resumed s (resumeAll s) := resumed_foldl allFeeders hs

/-- No SHED bay that fits is left on top of a feeder's stack (R121). -/
def TopBlocked (f : FeederIx) (s : State) : Prop := ∀ top rest, (feederAt s f).stack = top :: rest →
  (bayAt s top.bay).defrost.state = .shed → (feederAt s f).budget < committed s f + (bayAt s top.bay).defrost.draw

theorem topBlocked_resumeFeeder (f : FeederIx) (n : Nat) (hn : (feederAt s f).stack.length ≤ n) :
    TopBlocked f (resumeFeeder f n s) := by
  induction n generalizing s with
  | zero =>
    intro top rest h
    have hnil : (feederAt s f).stack = [] := List.length_eq_zero_iff.mp (by omega)
    exact nomatch hnil.symm.trans h
  | succ n ih =>
    rw [resumeFeeder]
    split
    · next hnil =>
      intro top rest h
      exact nomatch hnil.symm.trans h
    · next top rest hstack =>
      dsimp only
      split
      · refine ih ?_
        rw [feederAt_resumeTop, if_pos rfl]
        rw [hstack] at hn
        exact Nat.le_of_succ_le_succ hn
      · next hno =>
        intro top' rest' h hshed
        cases hstack.symm.trans h
        exact Nat.lt_of_not_le fun hfit => hno ⟨hshed, hfit⟩

theorem TopBlocked.resumed (h : TopBlocked f s) (k : Resumed s t) (hstack : (feederAt t f).stack = (feederAt s f).stack) :
    TopBlocked f t := by
  intro top rest ht hshed
  rw [hstack] at ht
  have hsame : bayAt t top.bay = bayAt s top.bay := (k.record top.bay).resolve_right fun x => by
    rw [x.2] at hshed
    exact nomatch hshed
  rw [hsame] at hshed ⊢
  have hlower := k.lower f
  have hblocked := h top rest ht hshed
  rw [k.budget]
  omega

theorem resumeFeeder_stack (hfg : f ≠ g) (n : Nat) (s : State) :
    (feederAt (resumeFeeder g n s) f).stack = (feederAt s f).stack := by
  induction n generalizing s with
  | zero => rfl
  | succ n ih =>
    rcases resumeFeeder_succ g n s with h | ⟨top, rest, -, -, -, h⟩ <;> rw [h]
    rw [ih, feederAt_resumeTop, if_neg hfg]

theorem resumeFold_stack (l : List FeederIx) (hf : f ∉ l) (s : State) :
    (feederAt (l.foldl (fun s f => resumeFeeder f (feederAt s f).stack.length s) s) f).stack = (feederAt s f).stack := by
  induction l generalizing s with
  | nil => rfl
  | cons g l ih =>
    rw [List.foldl_cons, ih (fun k => hf (List.mem_cons_of_mem g k)),
      resumeFeeder_stack (List.ne_of_not_mem_cons hf)]

theorem topBlocked_foldl (l : List FeederIx) (hs : StacksCharged s) (hf : f ∈ l) :
    TopBlocked f (l.foldl (fun s f => resumeFeeder f (feederAt s f).stack.length s) s) := by
  induction l generalizing s with
  | nil => cases hf
  | cons g l ih =>
    have hstep := resumed_resumeFeeder g (feederAt s g).stack.length hs
    rw [List.foldl_cons]
    by_cases hl : f ∈ l
    · exact ih (hstep.charged hs) hl
    · have hfg : f = g := (List.mem_cons.mp hf).resolve_right hl
      subst hfg
      exact (topBlocked_resumeFeeder f _ le_rfl).resumed (resumed_foldl l (hstep.charged hs)) (resumeFold_stack l hl _)

theorem topBlocked_resumeAll (hs : StacksCharged s) (f : FeederIx) : TopBlocked f (resumeAll s) :=
  topBlocked_foldl allFeeders hs (List.mem_finRange f)

/-! ## The second step of the pass: granting (R122 to R124) -/

theorem passCharge_eq (r : BayRecord) : passCharge r = chargeNow r := by
  unfold passCharge chargeNow
  cases r.snapshot with
  | none => rfl
  | some x =>
    cases hx : x.source with
    | diesel => simp [hx]
    | shore => cases hf : r.feeder <;> simp [hx]

/-- The record of a granted bay (R124). -/
def grantedRecord (r : BayRecord) : BayRecord :=
  { r with defrost := { r.defrost with
      state := .starting, reason := none, charge := chargeNow r, draw := r.draw, shedPending := false, elapsed := 0 } }

theorem bayAt_grant_same {x : Charge} (h : chargeNow (bayAt s b) = x) : bayAt (grant b x s) b = grantedRecord (bayAt s b) := by
  rw [bayAt_grant, ← h]
  rfl

/-- What granting does: QUEUED bays become STARTING, within the budgets; no stack changes. -/
structure QueueGranted (s t : State) : Prop where
  feeder : ∀ f, feederAt t f = feederAt s f
  lower : ∀ f, committed s f ≤ committed t f
  upper : ∀ f, committed t f ≤ max (committed s f) (feederAt s f).budget
  blocked : ∀ f, (feederAt s f).stack ≠ [] → committed t f = committed s f
  record : ∀ c, bayAt t c = bayAt s c ∨ ((bayAt s c).defrost.state = .queued ∧ bayAt t c = grantedRecord (bayAt s c)
    ∧ c ∈ t.arb.active ∧ chargeNow (bayAt s c) ≠ .none ∧ ∀ f, chargeNow (bayAt s c) = .feeder f → (feederAt s f).stack = [])
  active : ∀ c ∈ s.arb.active, c ∈ t.arb.active

theorem QueueGranted.refl (s : State) : QueueGranted s s :=
  ⟨fun _ => rfl, fun _ => le_rfl, fun _ => le_max_left _ _, fun _ _ => rfl, fun _ => .inl rfl, fun _ h => h⟩

theorem QueueGranted.trans (h : QueueGranted s t) (k : QueueGranted t u) : QueueGranted s u := by
  refine ⟨fun f => (k.feeder f).trans (h.feeder f), fun f => (h.lower f).trans (k.lower f), fun f => ?_, fun f hf => ?_, fun c => ?_,
    fun c hc => k.active c (h.active c hc)⟩
  · have h1 := h.upper f
    have h2 := k.upper f
    rw [h.feeder f] at h2
    omega
  · rw [k.blocked f (by rw [h.feeder]; exact hf), h.blocked f hf]
  · rcases k.record c with hk | ⟨hk, hk', hk''⟩
    · rw [hk]
      exact (h.record c).imp id fun ⟨h1, h2, h3, h4⟩ => ⟨h1, h2, k.active c h3, h4⟩
    · have hsame : bayAt t c = bayAt s c := (h.record c).resolve_right fun x => by
        rw [x.2.1] at hk
        exact nomatch hk
      rw [hsame] at hk hk' hk''
      refine .inr ⟨hk, hk', hk''.1, hk''.2.1, fun f hf => ?_⟩
      rw [← h.feeder]
      exact hk''.2.2 f hf

theorem queueGranted_grant {x : Charge} (hq : (bayAt s b).defrost.state = .queued) (hx : chargeNow (bayAt s b) = x)
    (hne : x ≠ .none) (hfit : ∀ f, x = .feeder f → (feederAt s f).stack = []
      ∧ committed s f + (bayAt s b).draw ≤ (feederAt s f).budget) : QueueGranted s (grant b x s) := by
  have hothers : KeepsOthers b s (grant b x s) := (grant_actsOn b x (fun _ => False) s).records
  have hb := bayAt_grant_same hx
  have hsum (f : FeederIx) : committed (grant b x s) f = committed s f + if x = .feeder f then (bayAt s b).draw else 0 := by
    rw [committed_of_joined hothers (by rw [hq]; rfl) (by rw [hb]; rfl), hb]
    show _ + (if chargeNow (bayAt s b) = _ then (bayAt s b).draw else 0) = _
    rw [hx]
  refine ⟨fun f => rfl, fun f => by rw [hsum]; omega, fun f => ?_, fun f hf => ?_, fun c => ?_, fun c hc => List.mem_append_left _ hc⟩
  · rw [hsum]
    split
    · next h => have := (hfit f h).2; omega
    · omega
  · rw [hsum, if_neg fun h => hf (hfit f h).1, Nat.add_zero]
  · by_cases hc : c = b
    · subst hc
      refine .inr ⟨hq, hb, List.mem_append_right _ (List.mem_singleton_self _), by rw [hx]; exact hne, fun f hf => ?_⟩
      exact (hfit f (hx.symm.trans hf)).1
    · exact .inl (hothers c hc)

/-- One entry's turn, by the tests of R123 in order. -/
theorem walkEntry_exact (w : QueueWalk) (q : QueueEntry) : walkEntry w q
    = match chargeNow (bayAt w.state q.bay) with
      | .none => keepEntry w q
      | .self => if (bayAt w.state q.bay).noDiesel = true then keepEntry w q else { w with state := grant q.bay .self w.state }
      | .feeder f =>
        if (feederAt w.state f).stack ≠ [] ∨ f ∈ w.barriers then keepEntry w q
        else if committed w.state f + (bayAt w.state q.bay).draw ≤ (feederAt w.state f).budget then
          { w with state := grant q.bay (.feeder f) w.state }
        else passOverEntry w f q := by
  rw [← passCharge_eq]
  unfold walkEntry
  dsimp only
  split
  · next h => simp only [h]
  · next h => simp only [h]
  · next f h =>
    simp only [h, List.contains_iff_mem]
    by_cases h1 : (feederAt w.state f).stack = []
    · simp [h1]
    · simp [h1]

/-- One turn: the entry waits, is passed over, or its bay is granted. -/
theorem walkEntry_turn (w : QueueWalk) (q : QueueEntry) :
    ((walkEntry w q).state = w.state ∧ ∃ n, (walkEntry w q).kept = w.kept ++ [{ q with passOver := n }]
        ∧ (n = q.passOver ∨ n = min (q.passOver + 1) 4))
      ∨ ((walkEntry w q).kept = w.kept ∧ ∃ x, chargeNow (bayAt w.state q.bay) = x ∧ x ≠ .none
          ∧ (walkEntry w q).state = grant q.bay x w.state
          ∧ ∀ f, x = .feeder f → (feederAt w.state f).stack = []
            ∧ committed w.state f + (bayAt w.state q.bay).draw ≤ (feederAt w.state f).budget) := by
  rcases walkEntry_cases w q with h | ⟨f, -, -, -, -, h⟩ | ⟨hx, -, h⟩ | ⟨f, hx, hs, -, hfit, h⟩ <;> rw [h]
  · exact .inl ⟨rfl, q.passOver, rfl, .inl rfl⟩
  · exact .inl ⟨rfl, _, rfl, .inr rfl⟩
  · rw [passCharge_eq] at hx
    exact .inr ⟨rfl, _, hx, nofun, rfl, nofun⟩
  · rw [passCharge_eq] at hx
    refine .inr ⟨rfl, _, hx, nofun, rfl, fun g hg => ?_⟩
    cases hg
    exact ⟨hs, hfit⟩

theorem walkEntry_others (w : QueueWalk) (q : QueueEntry) : KeepsOthers q.bay w.state (walkEntry w q).state := by
  rcases walkEntry_turn w q with ⟨h, -⟩ | ⟨-, x, -, -, h, -⟩ <;> rw [h]
  · exact fun _ _ => rfl
  · exact (grant_actsOn q.bay x (fun _ => False) w.state).records

theorem queueGranted_walkEntry {w : QueueWalk} {q : QueueEntry} (hq : (bayAt w.state q.bay).defrost.state = .queued) :
    QueueGranted w.state (walkEntry w q).state := by
  rcases walkEntry_turn w q with ⟨h, -⟩ | ⟨-, x, hx, hne, h, hfit⟩ <;> rw [h]
  · exact .refl _
  · exact queueGranted_grant hq hx hne hfit

/-- Every bay of a list of entries waits QUEUED, once. -/
structure AllQueued (l : List QueueEntry) (s : State) : Prop where
  nodup : (l.map fun q => q.bay).Nodup
  queued : ∀ q ∈ l, (bayAt s q.bay).defrost.state = .queued

theorem AllQueued.tail {q : QueueEntry} {l : List QueueEntry} {w : QueueWalk} (h : AllQueued (q :: l) w.state) :
    AllQueued l (walkEntry w q).state := by
  obtain ⟨hnodup, hqueued⟩ := h
  rw [List.map_cons, List.nodup_cons] at hnodup
  refine ⟨hnodup.2, fun x hx => ?_⟩
  rw [walkEntry_others w q x.bay fun k => hnodup.1 (k ▸ List.mem_map_of_mem hx)]
  exact hqueued x (List.mem_cons_of_mem q hx)

theorem queueGranted_walk (l : List QueueEntry) {w : QueueWalk} (h : AllQueued l w.state) :
    QueueGranted w.state (l.foldl walkEntry w).state := by
  induction l generalizing w with
  | nil => exact .refl _
  | cons q l ih => exact (queueGranted_walkEntry (h.queued q List.mem_cons_self)).trans (ih h.tail)

/-! ### What the walk keeps of the queue -/

/-- An entry as the walk keeps it: its pass-over count may have risen by one, to at most 4 (R123). -/
def KeptAs (p q : QueueEntry) : Prop := q.bay = p.bay ∧ q.origin = p.origin ∧ q.joined = p.joined
  ∧ (q.passOver = p.passOver ∨ q.passOver = min (p.passOver + 1) 4)

/-- The walk appends to what it keeps, entry by entry in the queue's order. -/
theorem kept_walk (l : List QueueEntry) (w : QueueWalk) : ∃ more, (l.foldl walkEntry w).kept = w.kept ++ more
    ∧ (more.map fun q => q.bay).Sublist (l.map fun q => q.bay) ∧ ∀ q ∈ more, ∃ p ∈ l, KeptAs p q := by
  induction l generalizing w with
  | nil => exact ⟨[], by simp, .refl _, nofun⟩
  | cons q l ih =>
    obtain ⟨more, hkept, hsub, hmem⟩ := ih (walkEntry w q)
    rw [List.foldl_cons, hkept]
    rcases walkEntry_turn w q with ⟨-, n, h, hn⟩ | ⟨h, -⟩ <;> rw [h]
    · refine ⟨{ q with passOver := n } :: more, by simp, hsub.cons_cons _, fun x hx => ?_⟩
      rcases List.mem_cons.mp hx with rfl | hx
      · exact ⟨q, List.mem_cons_self, rfl, rfl, rfl, hn⟩
      · obtain ⟨p, hp, hk⟩ := hmem x hx
        exact ⟨p, List.mem_cons_of_mem q hp, hk⟩
    · refine ⟨more, rfl, hsub.cons _, fun x hx => ?_⟩
      obtain ⟨p, hp, hk⟩ := hmem x hx
      exact ⟨p, List.mem_cons_of_mem q hp, hk⟩

/-- The walk's state at an entry's turn. -/
def turnOf (s : State) (front : List QueueEntry) : QueueWalk := front.foldl walkEntry ⟨s, [], []⟩

theorem turnOf_append (s : State) (front l : List QueueEntry) : turnOf s (front ++ l) = l.foldl walkEntry (turnOf s front) :=
  List.foldl_append

/-- At its turn an entry's bay is as the walk found it. -/
theorem bayAt_turnOf {front back : List QueueEntry} {q : QueueEntry} (h : ((front ++ q :: back).map fun q => q.bay).Nodup)
    (s : State) : bayAt (turnOf s front).state q.bay = bayAt s q.bay
      ∧ (∀ x ∈ (turnOf s front).kept, x.bay ≠ q.bay) ∧ ∀ x ∈ back, x.bay ≠ q.bay := by
  rw [List.map_append, List.map_cons] at h
  have hfront : ∀ x ∈ front, x.bay ≠ q.bay := fun x hx k =>
    (List.nodup_append.mp h).2.2 x.bay (List.mem_map_of_mem hx) q.bay List.mem_cons_self k
  obtain ⟨hsame, hkept⟩ := sameFor_walkQueue front ⟨s, [], []⟩ hfront nofun
  refine ⟨hsame.record, hkept, fun x hx k => ?_⟩
  exact (List.nodup_cons.mp (List.nodup_append.mp h).2.1).1 (k ▸ List.mem_map_of_mem hx)

section
variable {front back : List QueueEntry} {q : QueueEntry} (hnodup : ((front ++ q :: back).map fun q => q.bay).Nodup) (s : State)
include hnodup

/-- What follows an entry's turn leaves its bay. -/
theorem bayAt_afterTurn : bayAt (turnOf s (front ++ q :: back)).state q.bay = bayAt (walkEntry (turnOf s front) q).state q.bay := by
  obtain ⟨-, -, hback⟩ := bayAt_turnOf hnodup s
  have hothers (l : List QueueEntry) (hl : ∀ x ∈ l, x.bay ≠ q.bay) (w : QueueWalk) :
      bayAt (l.foldl walkEntry w).state q.bay = bayAt w.state q.bay := by
    induction l generalizing w with
    | nil => rfl
    | cons x l ih =>
      rw [List.foldl_cons, ih (fun y hy => hl y (List.mem_cons_of_mem x hy)),
        walkEntry_others w x q.bay (hl x List.mem_cons_self).symm]
  rw [turnOf_append]
  exact hothers back hback _

omit hnodup in
/-- An entry kept at its turn is in the queue that the walk leaves. -/
theorem kept_of_turn {q' : QueueEntry} (h : (walkEntry (turnOf s front) q).kept = (turnOf s front).kept ++ [q']) :
    q' ∈ (turnOf s (front ++ q :: back)).kept := by
  obtain ⟨more, hkept, -, -⟩ := kept_walk back (walkEntry (turnOf s front) q)
  rw [turnOf_append, List.foldl_cons, hkept, h]
  simp

/-- A bay granted at its entry's turn is in the queue no more. -/
theorem gone_of_turn (h : (walkEntry (turnOf s front) q).kept = (turnOf s front).kept) :
    ∀ x ∈ (turnOf s (front ++ q :: back)).kept, x.bay ≠ q.bay := by
  obtain ⟨-, hfront, hback⟩ := bayAt_turnOf hnodup s
  obtain ⟨more, hkept, -, hmem⟩ := kept_walk back (walkEntry (turnOf s front) q)
  rw [turnOf_append, List.foldl_cons, hkept, h]
  intro x hx
  rcases List.mem_append.mp hx with hx | hx
  · exact hfront x hx
  · obtain ⟨p, hp, hbay, -⟩ := hmem x hx
    rw [hbay]
    exact hback p hp

end

/-! ### Barriers -/

theorem chargeNow_of_defrostsOnly (h : DefrostsOnly s t) (c : Bay) : chargeNow (bayAt t c) = chargeNow (bayAt s c) := by
  rw [h.record c]
  rfl

/-- The walk's barriers are the entries kept with pass-over count 4, for a feeder whose stack is empty (R116, R123). -/
def BarriersKept (w : QueueWalk) : Prop := ∀ f, (feederAt w.state f).stack = [] →
  (f ∈ w.barriers ↔ ∃ p ∈ w.kept, p.passOver = 4 ∧ chargeNow (bayAt w.state p.bay) = .feeder f)

theorem barriersKept_keepEntry {w : QueueWalk} {q : QueueEntry} (h : BarriersKept w)
    (hq : ∀ f, chargeNow (bayAt w.state q.bay) = .feeder f → (feederAt w.state f).stack ≠ [] ∨ f ∈ w.barriers) :
    BarriersKept (keepEntry w q) := by
  intro f hf
  refine (h f hf).trans ⟨fun ⟨p, hp, hk⟩ => ⟨p, List.mem_append_left _ hp, hk⟩, fun ⟨p, hp, hn, hk⟩ => ?_⟩
  rcases List.mem_append.mp hp with hp | hp
  · exact ⟨p, hp, hn, hk⟩
  · rw [List.mem_singleton.mp hp] at hk
    exact (h f hf).mp ((hq f hk).resolve_left fun k => k hf)

theorem barriersKept_passOver {w : QueueWalk} {q : QueueEntry} {g : FeederIx} (h : BarriersKept w)
    (hq : chargeNow (bayAt w.state q.bay) = .feeder g) : BarriersKept (passOverEntry w g q) := by
  intro f hf
  have hmem : f ∈ (passOverEntry w g q).barriers ↔ f ∈ w.barriers ∨ (f = g ∧ min (q.passOver + 1) 4 = 4) := by
    show f ∈ (if min (q.passOver + 1) 4 = 4 then g :: w.barriers else w.barriers) ↔ _
    split
    · next hn => simp [hn, or_comm]
    · next hn => simp [hn]
  rw [hmem, h f hf]
  show _ ↔ ∃ p ∈ w.kept ++ [{ q with passOver := min (q.passOver + 1) 4 }], _
  constructor
  · rintro (⟨p, hp, hk⟩ | ⟨rfl, hn⟩)
    · exact ⟨p, List.mem_append_left _ hp, hk⟩
    · exact ⟨_, List.mem_append_right _ (List.mem_singleton_self _), hn, hq⟩
  · rintro ⟨p, hp, hn, hk⟩
    rcases List.mem_append.mp hp with hp | hp
    · exact .inl ⟨p, hp, hn, hk⟩
    · rw [List.mem_singleton.mp hp] at hn hk
      exact .inr ⟨Charge.feeder.inj (hk.symm.trans hq), hn⟩

theorem barriersKept_walkEntry {w : QueueWalk} (h : BarriersKept w) (q : QueueEntry) : BarriersKept (walkEntry w q) := by
  have hgrant (x : Charge) : BarriersKept { w with state := grant q.bay x w.state } := by
    intro f hf
    simp only [chargeNow_of_defrostsOnly (grant_defrostsOnly q.bay x w.state)]
    exact h f hf
  rw [walkEntry_exact]
  split
  · next hx => exact barriersKept_keepEntry h fun f hf => nomatch hx.symm.trans hf
  · next hx =>
    split
    · exact barriersKept_keepEntry h fun f hf => nomatch hx.symm.trans hf
    · exact hgrant _
  · next g hx =>
    split
    · next hk => exact barriersKept_keepEntry h fun f hf => Charge.feeder.inj (hx.symm.trans hf) ▸ hk
    · split
      · exact hgrant _
      · exact barriersKept_passOver h hx

theorem barriersKept_turnOf (s : State) (front : List QueueEntry) : BarriersKept (turnOf s front) := by
  have hwalk (l : List QueueEntry) (w : QueueWalk) (hw : BarriersKept w) : BarriersKept (l.foldl walkEntry w) := by
    induction l generalizing w with
    | nil => exact hw
    | cons q l ih => exact ih _ (barriersKept_walkEntry hw q)
  exact hwalk front _ fun f _ => by simp

/-! ### A pass over a part of the queue -/

/-- The state with another demand queue. -/
def withQueue (l : List QueueEntry) (s : State) : State := { s with arb := { s.arb with queue := l } }

theorem resumeFeeder_withQueue (l : List QueueEntry) (f : FeederIx) (n : Nat) (s : State) :
    resumeFeeder f n (withQueue l s) = withQueue l (resumeFeeder f n s) := by
  induction n generalizing s with
  | zero => rfl
  | succ n ih =>
    have hstack : (feederAt (withQueue l s) f).stack = (feederAt s f).stack := rfl
    rw [resumeFeeder, resumeFeeder, hstack]
    split
    · rfl
    · next top rest _ =>
      have hiff : ((bayAt (withQueue l s) top.bay).defrost.state = .shed
          ∧ committed (withQueue l s) f + (bayAt (withQueue l s) top.bay).defrost.draw ≤ (feederAt (withQueue l s) f).budget)
        ↔ ((bayAt s top.bay).defrost.state = .shed
          ∧ committed s f + (bayAt s top.bay).defrost.draw ≤ (feederAt s f).budget) := .rfl
      dsimp only
      simp only [hiff]
      split
      · exact ih (resumeTop f top.bay rest s)
      · rfl

theorem resumeFold_withQueue (l : List QueueEntry) (fs : List FeederIx) (s : State) :
    fs.foldl (fun s f => resumeFeeder f (feederAt s f).stack.length s) (withQueue l s)
      = withQueue l (fs.foldl (fun s f => resumeFeeder f (feederAt s f).stack.length s) s) := by
  induction fs generalizing s with
  | nil => rfl
  | cons f fs ih =>
    rw [List.foldl_cons, List.foldl_cons, ← ih, ← resumeFeeder_withQueue]
    rfl

theorem resumeAll_withQueue (l : List QueueEntry) (s : State) : resumeAll (withQueue l s) = withQueue l (resumeAll s) :=
  resumeFold_withQueue l allFeeders s

theorem walkEntry_withQueue (l : List QueueEntry) (w : QueueWalk) (q : QueueEntry) :
    walkEntry { w with state := withQueue l w.state } q
      = { walkEntry w q with state := withQueue l (walkEntry w q).state } := by
  rw [walkEntry_exact, walkEntry_exact]
  have hbay : bayAt (withQueue l w.state) q.bay = bayAt w.state q.bay := rfl
  have hfeeder (f : FeederIx) : feederAt (withQueue l w.state) f = feederAt w.state f := rfl
  have hcommitted (f : FeederIx) : committed (withQueue l w.state) f = committed w.state f := rfl
  dsimp only
  rw [hbay]
  split
  · rfl
  · split <;> rfl
  · simp only [hfeeder, hcommitted]
    split
    · rfl
    · split <;> rfl

theorem walk_withQueue (l front : List QueueEntry) (w : QueueWalk) :
    front.foldl walkEntry { w with state := withQueue l w.state }
      = { front.foldl walkEntry w with state := withQueue l (front.foldl walkEntry w).state } := by
  induction front generalizing w with
  | nil => rfl
  | cons q front ih => rw [List.foldl_cons, List.foldl_cons, walkEntry_withQueue, ih]

theorem grantQueue_withQueue (front : List QueueEntry) (s : State) :
    grantQueue (withQueue front s) = withQueue (turnOf s front).kept (turnOf s front).state := by
  have hwalk : queueWalked (withQueue front s) = { turnOf s front with state := withQueue front (turnOf s front).state } :=
    walk_withQueue front front ⟨s, [], []⟩
  rw [grantQueue_eq, hwalk]
  rfl

/-- The pass over the front of the queue: the walk's state at the next entry's turn, with what it has kept as its queue. -/
theorem grantPass_withQueue (front : List QueueEntry) (s : State) : grantPass (withQueue front s)
    = withQueue (turnOf (resumeAll s) front).kept (turnOf (resumeAll s) front).state := by
  rw [grantPass, resumeAll_withQueue, grantQueue_withQueue]

theorem grantPass_eq (s : State) : grantPass s
    = withQueue (turnOf (resumeAll s) s.arb.queue).kept (turnOf (resumeAll s) s.arb.queue).state :=
  grantPass_withQueue s.arb.queue s

end Sys2Proof.Machine
end

section
/-! The grant pass and its triggers (O52). -/

namespace Sys2Proof.Machine

open Sys2Proof.Claims

variable {b c : Bay} {f g : FeederIx} {s t u : State}

/-! ## The triggers of R120 -/

theorem gapStarted_eq {k : ExchangeKind} {j : Judged} {i : Instr} (hi : endsWith ⟨b, k, .awaiting, false⟩ j i) (s : State) :
    gapStarted ⟨b, k, .awaiting, false⟩ j s = atEnd b k j s := by
  rw [gapStarted, gap_of_endsWith hi]
  cases j <;> rfl

/-- The end of an exchange that was not voided. -/
theorem exec_brought {k : ExchangeKind} {j : Judged} {i : Instr} (hw : awaits s b k false)
    (hi : endsWith ⟨b, k, .awaiting, false⟩ j i) : exec i s = .next (settle (broughtBy b k j (atEnd b k j s))) := by
  rw [exec_endsWith hw rfl hi, endExchange_eq, gapStarted_eq hi]
  rfl

theorem countedOnFeeder_iff (d : Defrost) : countedOnFeeder d = true
    ↔ (∃ f : FeederIx, d.charge = .feeder f) ∧ counted d.state = true := by
  unfold countedOnFeeder
  cases d.charge <;> simp

theorem atBarrier_iff (s : State) (b : Bay) : atBarrier s b = true ↔ ∃ q ∈ s.arb.queue, q.bay = b ∧ q.passOver = 4 := by
  simp only [atBarrier, List.any_eq_true, Bool.and_eq_true, decide_eq_true_iff]

theorem counted_iff (x : DefrostState) : counted x = true ↔ x = .starting ∨ x = .active ∨ x = .stopping ∨ x = .hung := by
  cases x <;> simp [counted]

/-- An end that frees a feeder's current, a stack's entry or a barrier is a trigger (R110, R116, R143). -/
theorem endTriggers_iff (s : State) (b : Bay) : endTriggers s b = true ↔ endFreesRoom s b := by
  rw [endTriggers, Bool.or_eq_true, Bool.or_eq_true, countedOnFeeder_iff, counted_iff, onStack_iff, atBarrier_iff, or_assoc]

theorem endEpisode_owes_of (h : endFreesRoom s b) (o : DefrostOutcome) : (endEpisode b o s).passDue = true := by
  rw [endEpisode_passDue, (endTriggers_iff s b).mpr h]
  simp

/-- An answered poll that changes a QUEUED bay's run source owes the pass (R120). -/
theorem pollAnswered_owes {snap : Snapshot} (h : (bayAt s b).defrost.state = .queued)
    (hx : ∃ x ∈ (bayAt s b).snapshot, x.source ≠ snap.source) : (pollAnswered b snap s).passDue = true := by
  obtain ⟨x, hx, hne⟩ := hx
  have hchange : queuedSourceChanges (bayAt s b) snap = true := by
    have hsnap : (bayAt s b).snapshot = some x := hx
    simp [queuedSourceChanges, h, hsnap, hne]
  have hnoted : (pollNoted b snap s).passDue = true := by
    rw [pollNoted, owePassIf_eq, hchange]
    exact Bool.or_true _
  have hsteps : (pollSteps b snap s).passDue = true :=
    (sourceStep_actsOn b snap.source _).passDue ((modeStep_actsOn b snap.mode (pollNoted b snap s)).passDue hnoted)
  rw [pollAnswered_eq]
  split
  · exact (check_actsOn b snap _).passDue hsteps
  · exact hsteps

theorem onAStack_of_entry {e : ShedEntry} (h : stackEntry s b = some e) : onAStack s b := by
  rw [← onStack_iff, onStack, h]
  rfl

/-- STOPPED for a bay stopping on a stack: it becomes SHED, or its recorded end takes its entry (R120, R137, R143). -/
theorem stopAnswered_owes (hr : (bayAt s b).defrost.reason = some .shed) : (stopAnswered b s).passDue = true := by
  unfold stopAnswered
  rw [hr]
  dsimp only
  split
  · next r h =>
    obtain ⟨e, he, -⟩ := Option.bind_eq_some_iff.mp h
    exact endEpisode_owes_of (.inr (.inl (onAStack_of_entry he))) _
  · rfl

/-- A bay whose STOP went unanswered, HUNG off the stacks with POWER raised, before a DEPARTING one is emptied (R138). -/
def hungTold (b : Bay) (s : State) : State :=
  raiseAlert .power (bayElement b) (modDefrost b (fun d => { d with state := .hung, reason := hungReason s b })
    (owePassIf (onStack s b) (leaveStacks b s)))

theorem bayAt_hungTold (b : Bay) (s : State) : bayAt (hungTold b s) b
    = { bayAt s b with defrost := { (bayAt s b).defrost with state := .hung, reason := hungReason s b } } := by
  have hb : bayAt (owePassIf (onStack s b) (leaveStacks b s)) b = bayAt s b := bayAt_congr (owePassIf_bays _ _) b
  have hmod := bayAt_modDefrost_same b (fun d => { d with state := .hung, reason := hungReason s b })
    (owePassIf (onStack s b) (leaveStacks b s))
  rw [hb] at hmod
  exact hmod

theorem hungTold_passDue (b : Bay) (s : State) : (hungTold b s).passDue = (s.passDue || onStack s b) := by
  unfold hungTold
  rw [owePassIf_eq]
  rfl

theorem stopUnanswered_eq (b : Bay) (s : State) : stopUnanswered b s
    = if (bayAt s b).occupancy = .departing then departHung b (hungTold b s) else hungTold b s := by
  have hocc : (bayAt (hungTold b s) b).occupancy = (bayAt s b).occupancy := by rw [bayAt_hungTold]
  rw [← hocc]
  rfl

theorem bayAt_noteOutcome (b : Bay) (o : ExchangeOutcome) (s : State) :
    bayAt (noteOutcome b o s) b = { bayAt s b with lastExchange := o } := bayAt_modBay_same b _ s

theorem brought_stop_ack (hd : (bayAt s b).defrost.state = .stopping) (r : AckResult) :
    broughtBy b (.order .stop) (.ack r) s = stopAnswered b (noteOutcome b .answered s) := by
  have hn : (bayAt (noteOutcome b .answered s) b).defrost.state = .stopping := by rw [bayAt_noteOutcome]; exact hd
  unfold broughtBy exchangeResult
  dsimp only
  unfold orderOutcome
  rw [hn]

theorem brought_stop_failed (hd : (bayAt s b).defrost.state = .stopping) (o : ExchangeOutcome) :
    broughtBy b (.order .stop) (.failed o) s = stopUnanswered b (noteOutcome b o s) := by
  have hn : (bayAt (noteOutcome b o s) b).defrost.state = .stopping := by rw [bayAt_noteOutcome]; exact hd
  unfold broughtBy exchangeResult
  dsimp only [judgedOutcome]
  unfold orderOutcome
  rw [hn]

theorem brought_start_ack (hd : (bayAt s b).defrost.state = .starting) (resume : Bool) (r : AckResult) :
    broughtBy b (.order (.start resume)) (.ack r) s = startAnswered b r (noteOutcome b .answered s) := by
  have hn : (bayAt (noteOutcome b .answered s) b).defrost.state = .starting := by rw [bayAt_noteOutcome]; exact hd
  unfold broughtBy exchangeResult
  dsimp only
  unfold orderOutcome
  rw [hn]

theorem brought_start_failed (hd : (bayAt s b).defrost.state = .starting) (resume : Bool) (o : ExchangeOutcome) :
    broughtBy b (.order (.start resume)) (.failed o) s = startUnanswered b (noteOutcome b o s) := by
  have hn : (bayAt (noteOutcome b o s) b).defrost.state = .starting := by rw [bayAt_noteOutcome]; exact hd
  unfold broughtBy exchangeResult
  dsimp only [judgedOutcome]
  unfold orderOutcome
  rw [hn]

theorem stopUnanswered_owes
    (h : onAStack s b ∨ ((bayAt s b).occupancy = .departing ∧ ∃ f : FeederIx, (bayAt s b).defrost.charge = .feeder f)) :
    (stopUnanswered b s).passDue = true := by
  have hstack (k : onAStack s b) : (hungTold b s).passDue = true := by
    rw [hungTold_passDue, (onStack_iff s b).mpr k]
    exact Bool.or_true _
  rw [stopUnanswered_eq]
  split
  · rcases h with h | ⟨-, f, hc⟩
    · exact (departHung_actsOn b (fun _ => False) _).passDue (hstack h)
    · refine departHung_owes ?_
      rw [bayAt_hungTold]
      exact countedOnFeeder_of hc rfl
  · next ho => exact hstack (h.resolve_right fun k => ho k.1)

/-- A charge that becomes SELF gives its feeder the draw back (R120, R148). -/
theorem sourceStep_owes (hc : (bayAt s b).defrost.charge = .feeder f)
    (h : (bayAt s b).defrost.state = .starting ∨ (bayAt s b).defrost.state = .active ∨ (bayAt s b).defrost.state = .hung
      ∨ ((bayAt s b).defrost.state = .stopping ∧ ¬ onAStack s b)) : (sourceStep b .diesel s).passDue = true := by
  have hfollows : chargeFollows s b = true := by
    unfold chargeFollows
    rcases h with h | h | h | ⟨h, hs⟩ <;> rw [h]
    show (!onStack s b) = true
    rw [Bool.not_eq_true', Bool.eq_false_iff, ne_eq, onStack_iff]
    exact hs
  have hcounted : countedOnFeeder (bayAt s b).defrost = true := by
    refine countedOnFeeder_of hc ((counted_iff _).mpr ?_)
    rcases h with h | h | h | ⟨h, -⟩
    · exact .inl h
    · exact .inr (.inl h)
    · exact .inr (.inr (.inr h))
    · exact .inr (.inr (.inl h))
  unfold sourceStep
  rw [if_pos hfollows, hc]
  show (chargeToSelf b s).passDue = true
  rw [chargeToSelf, owePassIf_eq, hcounted]
  exact Bool.or_true _

/-- The shed of a bay whose START is unsent (R120, R141). -/
theorem shed_owes (hc : (bayAt s b).defrost.charge = .feeder f) (hd : (bayAt s b).defrost.state = .starting)
    (hw : startWaits s b) : (shed f b s).passDue = true := by
  unfold shed
  rw [hd]
  dsimp only
  rw [if_pos ((startUnsent_iff s b).mpr hw)]
  unfold shedUnsent
  split
  · rfl
  · have hb : bayAt (refusePush f b (placeStop b s)) b = bayAt s b :=
      (bayAt_congr (refusePush_bays f b _) b).trans (bayAt_congr (placeStop_bays b s) b)
    refine endEpisode_owes _ ?_
    rw [hb]
    exact countedOnFeeder_of hc (by rw [hd]; rfl)

/-! ## The order of the pass -/

/-- After an entry of pass-over count 4 has waited at its turn, no later entry of its feeder is granted (R116, R123). -/
def FeederHeld (f : FeederIx) (w : QueueWalk) : Prop := (feederAt w.state f).stack ≠ [] ∨ f ∈ w.barriers

theorem FeederHeld.walkEntry {w : QueueWalk} (h : FeederHeld f w) (q : QueueEntry) : FeederHeld f (walkEntry w q) := by
  rcases walkEntry_cases w q with k | ⟨g, -, -, -, -, k⟩ | ⟨-, -, k⟩ | ⟨g, -, -, -, -, k⟩ <;> rw [k]
  · exact h
  · refine h.imp id fun hf => ?_
    show f ∈ (if min (q.passOver + 1) 4 = 4 then g :: w.barriers else w.barriers)
    split
    · exact List.mem_cons_of_mem g hf
    · exact hf
  · exact h
  · exact h

theorem FeederHeld.walk {w : QueueWalk} (h : FeederHeld f w) (l : List QueueEntry) : FeederHeld f (l.foldl Machine.walkEntry w) := by
  induction l generalizing w with
  | nil => exact h
  | cons q l ih => exact ih (h.walkEntry q)

theorem FeederHeld.keeps {w : QueueWalk} {q : QueueEntry} (h : FeederHeld f w) (hq : chargeNow (bayAt w.state q.bay) = .feeder f) :
    Machine.walkEntry w q = keepEntry w q := by
  rw [walkEntry_exact, hq]
  exact if_pos h

/-- An entry with pass-over count 4 that is not granted at its turn holds its feeder. -/
theorem feederHeld_of_waits {w : QueueWalk} {q : QueueEntry} (hq : chargeNow (bayAt w.state q.bay) = .feeder f)
    (hp : q.passOver = 4) (h : (walkEntry w q).kept ≠ w.kept) : FeederHeld f (walkEntry w q) := by
  rw [walkEntry_exact, hq] at h ⊢
  dsimp only at h ⊢
  split
  · next hk => exact hk
  · next hk =>
    rw [if_neg hk] at h
    split
    · next hfit =>
      rw [if_pos hfit] at h
      exact absurd rfl h
    · refine .inr ?_
      show f ∈ (if min (q.passOver + 1) 4 = 4 then f :: w.barriers else w.barriers)
      rw [hp, if_pos (by decide)]
      exact List.mem_cons_self

/-! ## The pass as a whole -/

/-- The walk's state at the end of the pass. -/
def passEnd (s : State) : QueueWalk := turnOf (resumeAll s) s.arb.queue

theorem grantPass_withKept (s : State) : grantPass s = withQueue (passEnd s).kept (passEnd s).state := grantPass_eq s

theorem bayAt_grantPass (s : State) (c : Bay) : bayAt (grantPass s) c = bayAt (passEnd s).state c := by
  rw [grantPass_withKept]
  rfl

theorem feederAt_grantPass (s : State) (f : FeederIx) : feederAt (grantPass s) f = feederAt (passEnd s).state f := by
  rw [grantPass_withKept]
  rfl

theorem committed_grantPass (s : State) (f : FeederIx) : committed (grantPass s) f = committed (passEnd s).state f :=
  committed_congr (fun c => by rw [bayAt_grantPass]) f

theorem queue_grantPass (s : State) : (grantPass s).arb.queue = (passEnd s).kept := by
  rw [grantPass_withKept]
  rfl

theorem active_grantPass (s : State) : (grantPass s).arb.active = (passEnd s).state.arb.active := by
  rw [grantPass_withKept]
  rfl

theorem queueGranted_turnOf {l : List QueueEntry} (h : AllQueued l s) : QueueGranted s (turnOf s l).state :=
  queueGranted_walk l (w := ⟨s, [], []⟩) h

section
variable (hq : AllQueued s.arb.queue s) (hs : StacksCharged s)
include hq hs

theorem allQueued_resumed : AllQueued s.arb.queue (resumeAll s) := by
  refine ⟨hq.nodup, fun q hx => ?_⟩
  rw [(resumed_resumeAll hs).of_not_shed (by rw [hq.queued q hx]; nofun)]
  exact hq.queued q hx

theorem granted_passEnd : QueueGranted (resumeAll s) (passEnd s).state :=
  queueGranted_turnOf (allQueued_resumed hq hs)

/-- Committed current rises within the budget, and budgets stay (R110, R121, R123). -/
theorem committed_pass (f : FeederIx) : committed s f ≤ committed (grantPass s) f
    ∧ committed (grantPass s) f ≤ max (committed s f) (feederAt s f).budget
    ∧ (feederAt (grantPass s) f).budget = (feederAt s f).budget := by
  have h := resumed_resumeAll hs
  have k := granted_passEnd hq hs
  have h1 := h.upper f
  have k1 := k.upper f
  rw [committed_grantPass, feederAt_grantPass, k.feeder]
  rw [h.budget] at k1
  exact ⟨(h.lower f).trans (k.lower f), by omega, h.budget f⟩

/-- A stack loses resumed entries from its top (R121). -/
theorem stack_pass (f : FeederIx) : ∃ gone, (feederAt s f).stack = gone ++ (feederAt (grantPass s) f).stack
    ∧ ∀ e ∈ gone, (bayAt (grantPass s) e.bay).defrost.state = .starting
      ∧ (bayAt (grantPass s) e.bay).defrost.draw = (bayAt s e.bay).defrost.draw ∧ e.bay ∈ (grantPass s).arb.active := by
  have h := resumed_resumeAll hs
  have k := granted_passEnd hq hs
  obtain ⟨gone, hstack, hgone⟩ := h.stack f
  refine ⟨gone, by rw [feederAt_grantPass, k.feeder]; exact hstack, fun e he => ?_⟩
  obtain ⟨-, hr, ha⟩ := hgone e he
  have hsame : bayAt (passEnd s).state e.bay = bayAt (resumeAll s) e.bay := (k.record e.bay).resolve_right fun x => by
    rw [hr] at x
    exact nomatch x.1
  rw [bayAt_grantPass, hsame, hr, active_grantPass]
  exact ⟨rfl, rfl, k.active _ ha⟩

/-- A bay is not queued after the pass where its entry was granted at its turn, with its charge and draw captured (R124). -/
theorem granted_pass {q : QueueEntry} (hmem : q ∈ s.arb.queue)
    (hgone : q.bay ∉ (grantPass s).arb.queue.map fun q => q.bay) :
    bayAt (grantPass s) q.bay = grantedRecord (bayAt s q.bay) ∧ q.bay ∈ (grantPass s).arb.active
      ∧ chargeNow (bayAt s q.bay) ≠ .none
      ∧ ∀ f, chargeNow (bayAt s q.bay) = .feeder f → (feederAt (grantPass s) f).stack = [] := by
  have k := granted_passEnd hq hs
  have hresumed : bayAt (resumeAll s) q.bay = bayAt s q.bay :=
    (resumed_resumeAll hs).of_not_shed (by rw [hq.queued q hmem]; nofun)
  have hchanged : bayAt (passEnd s).state q.bay ≠ bayAt (resumeAll s) q.bay := by
    obtain ⟨front, back, hsplit⟩ := List.append_of_mem hmem
    have hnodup := hq.nodup
    rw [hsplit] at hnodup
    rw [queue_grantPass, passEnd, hsplit] at hgone
    rw [passEnd, hsplit, bayAt_afterTurn hnodup]
    rcases walkEntry_turn (turnOf (resumeAll s) front) q with ⟨-, n, h, -⟩ | ⟨-, x, -, -, h, -⟩
    · exact absurd (List.mem_map_of_mem (f := fun q => q.bay) (kept_of_turn (back := back) (resumeAll s) h)) hgone
    · rw [h, bayAt_grant]
      intro hsame
      have hstate := congrArg (fun r => r.defrost.state) hsame
      rw [hresumed] at hstate
      exact nomatch hstate.trans (hq.queued q hmem)
  obtain ⟨-, hr, ha, hne, hstack⟩ := (k.record q.bay).resolve_left hchanged
  rw [hresumed] at hr hne hstack
  rw [bayAt_grantPass, active_grantPass]
  refine ⟨hr, ha, hne, fun f hf => ?_⟩
  rw [feederAt_grantPass, k.feeder]
  exact hstack f hf

/-- No SHED bay that fits is left on top of a stack (R121). -/
theorem topBlocked_pass (f : FeederIx) : TopBlocked f (grantPass s) := by
  have k := granted_passEnd hq hs
  intro top rest hstack hshed
  rw [feederAt_grantPass, k.feeder] at hstack
  rw [bayAt_grantPass] at hshed
  have hsame : bayAt (passEnd s).state top.bay = bayAt (resumeAll s) top.bay := (k.record top.bay).resolve_right fun x => by
    rw [x.2.1] at hshed
    exact nomatch hshed
  rw [hsame] at hshed
  have hblocked := topBlocked_resumeAll hs f top rest hstack hshed
  rw [feederAt_grantPass, k.feeder, committed_grantPass, k.blocked f (by rw [hstack]; nofun), bayAt_grantPass, hsame]
  exact hblocked

/-- An entry is in the queue after the pass exactly as its turn left it. -/
theorem queue_pass_turn {front back : List QueueEntry} {q : QueueEntry} (hsplit : s.arb.queue = front ++ q :: back) :
    bayAt (turnOf (resumeAll s) front).state q.bay = bayAt s q.bay
    ∧ (∀ q', (walkEntry (turnOf (resumeAll s) front) q).kept = (turnOf (resumeAll s) front).kept ++ [q'] →
        q' ∈ (grantPass s).arb.queue)
    ∧ ((walkEntry (turnOf (resumeAll s) front) q).kept = (turnOf (resumeAll s) front).kept →
        q.bay ∉ (grantPass s).arb.queue.map fun q => q.bay) := by
  have hmem : q ∈ s.arb.queue := by rw [hsplit]; simp
  have hnodup := hq.nodup
  have hresumed : bayAt (resumeAll s) q.bay = bayAt s q.bay :=
    (resumed_resumeAll hs).of_not_shed (by rw [hq.queued q hmem]; nofun)
  rw [hsplit] at hnodup
  rw [queue_grantPass, passEnd, hsplit]
  refine ⟨(bayAt_turnOf hnodup _).1.trans hresumed, fun q' h => kept_of_turn (resumeAll s) h, fun h k => ?_⟩
  obtain ⟨x, hx, hb⟩ := List.mem_map.mp k
  exact gone_of_turn hnodup (resumeAll s) h x hx hb

/-- No entry is granted past a barrier of its feeder (R116, R123). -/
theorem barrier_pass {front middle back : List QueueEntry} {p q : QueueEntry}
    (hsplit : s.arb.queue = front ++ p :: middle ++ q :: back) (hp : p.passOver = 4)
    (hpf : chargeNow (bayAt s p.bay) = .feeder f) (hqf : chargeNow (bayAt s q.bay) = .feeder f)
    (hstays : p.bay ∈ (grantPass s).arb.queue.map fun q => q.bay) :
    q.bay ∈ (grantPass s).arb.queue.map fun q => q.bay := by
  obtain ⟨hpb, -, hpgone⟩ := queue_pass_turn hq hs (q := p) (front := front) (back := middle ++ q :: back)
    (by rw [hsplit, List.append_assoc]; rfl)
  obtain ⟨hqb, hqkept, -⟩ := queue_pass_turn hq hs (q := q) (front := front ++ p :: middle) (back := back) hsplit
  generalize (grantPass s).arb.queue = l at hpgone hqkept hstays ⊢
  generalize resumeAll s = r at hpb hpgone hqb hqkept
  have hheld := feederHeld_of_waits (w := turnOf r front) (f := f) (by rw [hpb]; exact hpf) hp fun h => hpgone h hstays
  have hlater : FeederHeld f (turnOf r (front ++ p :: middle)) := by
    rw [turnOf_append]
    exact hheld.walk middle
  have hkeeps := hlater.keeps (q := q) (by rw [hqb]; exact hqf)
  exact List.mem_map_of_mem (f := fun q => q.bay) (hqkept q (by rw [hkeeps]; rfl))

/-- Each entry at its turn, by the tests of R123 in order, `u` being the pass over the entries before it. -/
theorem turn_pass {front back : List QueueEntry} {q : QueueEntry} (hsplit : s.arb.queue = front ++ q :: back) {u : State}
    (hu : u = grantPass (withQueue front s)) :
    (chargeNow (bayAt s q.bay) = .none → q ∈ (grantPass s).arb.queue)
    ∧ (chargeNow (bayAt s q.bay) = .self →
        ((bayAt s q.bay).noDiesel = true → q ∈ (grantPass s).arb.queue)
        ∧ ((bayAt s q.bay).noDiesel = false → q.bay ∉ (grantPass s).arb.queue.map fun q => q.bay))
    ∧ ∀ f, chargeNow (bayAt s q.bay) = .feeder f →
        (¬ reachesFit u f → q ∈ (grantPass s).arb.queue)
        ∧ (reachesFit u f → committed u f + (bayAt s q.bay).draw ≤ (feederAt s f).budget →
            q.bay ∉ (grantPass s).arb.queue.map fun q => q.bay)
        ∧ (reachesFit u f → (feederAt s f).budget < committed u f + (bayAt s q.bay).draw →
            { q with passOver := min (q.passOver + 1) 4 } ∈ (grantPass s).arb.queue) := by
  obtain ⟨hb, hkept, hgone⟩ := queue_pass_turn hq hs hsplit
  have hbarriers := barriersKept_turnOf (resumeAll s) front
  have hbudget (f : FeederIx) : (feederAt (turnOf (resumeAll s) front).state f).budget = (feederAt s f).budget := by
    have hfront : AllQueued front (resumeAll s) := by
      have h := allQueued_resumed hq hs
      rw [hsplit] at h
      exact ⟨(List.map_append ▸ h.nodup).of_append_left, fun x hx => h.queued x (List.mem_append_left _ hx)⟩
    rw [(queueGranted_turnOf hfront).feeder, (resumed_resumeAll hs).budget]
  have hu : u = withQueue (turnOf (resumeAll s) front).kept (turnOf (resumeAll s) front).state :=
    hu.trans (grantPass_withQueue front s)
  have hreach (f : FeederIx) : reachesFit u f ↔ ¬ ((feederAt (turnOf (resumeAll s) front).state f).stack ≠ []
      ∨ f ∈ (turnOf (resumeAll s) front).barriers) := by
    rw [hu]
    refine ⟨fun ⟨h1, h2⟩ k => k.elim (fun k => k h1) fun k => h2 ?_, fun h => ?_⟩
    · exact (hbarriers f h1).mp k
    · obtain ⟨h1, h2⟩ := not_or.mp h
      have h1 := not_not.mp h1
      exact ⟨h1, fun k => h2 ((hbarriers f h1).mpr k)⟩
  have hcommitted (f : FeederIx) : committed u f = committed (turnOf (resumeAll s) front).state f := by
    rw [hu]
    exact committed_congr (fun _ => rfl) f
  have hexact := walkEntry_exact (turnOf (resumeAll s) front) q
  rw [hb] at hexact
  refine ⟨fun h => ?_, fun h => ?_, fun f h => ?_⟩ <;> rw [h] at hexact <;> dsimp only at hexact
  · exact hkept q (by rw [hexact]; rfl)
  · refine ⟨fun hd => ?_, fun hd => ?_⟩
    · rw [if_pos hd] at hexact
      exact hkept q (by rw [hexact]; rfl)
    · rw [if_neg (by rw [hd]; nofun)] at hexact
      exact hgone (by rw [hexact])
  · rw [hreach, hcommitted, ← hbudget f]
    refine ⟨fun k => ?_, fun k hfit => ?_, fun k hfit => ?_⟩
    · rw [if_pos (not_not.mp k)] at hexact
      exact hkept q (by rw [hexact]; rfl)
    · rw [if_neg k, if_pos hfit] at hexact
      exact hgone (by rw [hexact])
    · rw [if_neg k, if_neg (by omega)] at hexact
      exact hkept _ (by rw [hexact]; rfl)

end

end Sys2Proof.Machine

namespace Sys2Proof.Proofs

open Sys2Proof.Machine Sys2Proof.Claims

/-- Settles O52: the end of a change makes the pass owed, the triggers owe it, and the pass is `Resumed`, then `QueueGranted`,
each entry taking its turn by `walkEntry_exact`. -/
theorem grantPassKeepsBudgetsAndOrder : Obligations.GrantPassKeepsBudgetsAndOrder := by
  refine ⟨fun s => ⟨settled_settle s, settle_passDue s⟩, fun s b k i j hw hi => ?_, fun s b => ?_, fun s b => ?_,
    fun s hnodup hqueued hs => ?_⟩
  · exact ⟨_, exec_brought hw hi, settled_settle _, settle_passDue _⟩
  · refine ⟨fun snap h hx => pollAnswered_owes h hx, fun hd hr => ?_, fun o hd h => ?_, fun f hd hc => ?_, fun h => ?_⟩
    · rw [brought_stop_ack hd]
      exact stopAnswered_owes (by rw [bayAt_noteOutcome]; exact hr)
    · rw [brought_stop_failed hd]
      refine stopUnanswered_owes ?_
      rw [bayAt_noteOutcome]
      exact h
    · exact departHung_owes (countedOnFeeder_of hc (by rw [hd]; rfl))
    · rw [becomeVacant_eq]
      show (s.passDue || (bayAt s b).noDiesel) = true
      rw [h, Bool.or_true]
  · exact ⟨fun o => rfl, fun h o => endEpisode_owes_of h o, fun f hc h => sourceStep_owes hc h,
      fun f hc hd hw => shed_owes hc hd hw⟩
  · have hq : AllQueued s.arb.queue s := ⟨hnodup, hqueued⟩
    obtain ⟨more, hkept, hsub, hmem⟩ := kept_walk s.arb.queue ⟨resumeAll s, [], []⟩
    have hqueue : (grantPass s).arb.queue = more := (queue_grantPass s).trans hkept
    have hcommitted := committed_pass hq hs
    have hstack := stack_pass hq hs
    have hgranted (q : QueueEntry) := granted_pass hq hs (q := q)
    have hbarrier (f : FeederIx) (front middle back : List QueueEntry) (p q : QueueEntry) :=
      barrier_pass hq hs (f := f) (front := front) (middle := middle) (back := back) (p := p) (q := q)
    have hblocked := topBlocked_pass hq hs
    have hturn (front back : List QueueEntry) (q : QueueEntry) (u : State) :=
      turn_pass hq hs (front := front) (back := back) (q := q) (u := u)
    intro t stays
    have ht : grantPass s = t := rfl
    rw [ht] at hqueue hcommitted hstack
    simp only [ht] at hgranted hbarrier hblocked hturn
    clear_value t
    constructor
    · exact hcommitted
    constructor
    · exact hstack
    constructor
    · rw [hqueue]
      exact hsub
    constructor
    · rw [hqueue]
      intro q hx
      obtain ⟨p, hp, hbay, horigin, hjoined, hpass⟩ := hmem q hx
      exact ⟨p, hp, hbay.symm, horigin.symm, hjoined.symm, hpass⟩
    constructor
    · intro q hx hgone
      obtain ⟨hr, ha, hne, hempty⟩ := hgranted q hx hgone
      rw [hr]
      exact ⟨rfl, rfl, rfl, ha, rfl, hne, hempty⟩
    constructor
    · exact fun front middle back p q f hsplit hp hpf hqf hstays => hbarrier f front middle back p q hsplit hp hpf hqf hstays
    constructor
    · exact hblocked
    · intro front q back hsplit u
      have hu : u = grantPass (withQueue front s) := rfl
      clear_value u
      exact hturn front back q u hsplit hu

end Sys2Proof.Proofs
end

section
/-! Sheds, and what the end of an order's exchange brings (O53, O54). -/

namespace Sys2Proof.Machine

open Sys2Proof.Claims

variable {b c : Bay} {f g : FeederIx} {s t u v : State} {o : ExchangeOutcome}

/-! ## A push onto a shed stack (R142) -/

theorem feederAt_pushShed (f : FeederIx) (b : Bay) (s : State) : feederAt (pushShed f b s) f = { feederAt s f with
    stack := ⟨b, none⟩ :: (feederAt s f).stack,
    nearFull := (feederAt s f).nearFull || decide ((feederAt s f).stack.length = 6) } := by
  unfold pushShed
  dsimp only [List.length_cons]
  split
  · next h =>
    show feederAt (setFeeder f _ s) f = _
    have h6 : (feederAt s f).stack.length = 6 := by omega
    rw [feederAt_setFeeder_same, h6, decide_eq_true rfl, Bool.or_true]
  · next h =>
    have h6 : (feederAt s f).stack.length ≠ 6 := by omega
    rw [feederAt_setFeeder_same, decide_eq_false h6, Bool.or_false]

theorem feederAt_refusePush (f : FeederIx) (b : Bay) (s : State) :
    feederAt (refusePush f b s) f = { feederAt s f with overflow := true } := feederAt_setFeeder_same f _ s

theorem mem_raiseAlert (x : Category) (b : Bay) (s : State) : b.succ ∈ (catAt (raiseAlert x (bayElement b) s).alert x).pending :=
  (mem_raiseFor true x b s b.succ).mpr (.inr ⟨rfl, rfl⟩)

theorem pushShed_power (h : (feederAt s f).stack.length = 6) : b.succ ∈ (catAt (pushShed f b s).alert .power).pending := by
  unfold pushShed
  dsimp only [List.length_cons]
  rw [if_pos (by omega)]
  exact mem_raiseAlert .power b _

theorem refusePush_power (f : FeederIx) (b : Bay) (s : State) : b.succ ∈ (catAt (refusePush f b s).alert .power).pending :=
  mem_raiseAlert .power b _

theorem feederAt_stopEpisode (b : Bay) (r : StopReason) (s : State) (g : FeederIx) :
    feederAt (stopEpisode b r s) g = feederAt s g := by
  simp only [feederAt, stopEpisode_arb]

theorem stopEpisode_alert (b : Bay) (r : StopReason) (s : State) : (stopEpisode b r s).alert = s.alert :=
  (stopEpisode_actsOn b (fun _ => False) r s).alert_eq

theorem pushShed_passDue (f : FeederIx) (b : Bay) (s : State) : (pushShed f b s).passDue = s.passDue := by
  unfold pushShed
  dsimp only
  split <;> rfl

theorem pushShed_loop (f : FeederIx) (b : Bay) (s : State) : (pushShed f b s).loop = s.loop := by
  unfold pushShed
  dsimp only
  split <;> rfl

theorem shedRunning_room (h : (feederAt s f).stack.length < 8) (b : Bay) :
    shedRunning f b s = stopEpisode b .shed (pushShed f b s) := if_pos (decide_eq_true h)

theorem shedRunning_full (h : 8 ≤ (feederAt s f).stack.length) (b : Bay) :
    shedRunning f b s = stopEpisode b .overflow (refusePush f b s) :=
  if_neg fun k => absurd (of_decide_eq_true k) (Nat.not_lt.mpr h)

/-! ## The end of a change that stops an episode -/

theorem settle_kept (h : NoPassFor s b) : (bayAt (settle s) b).defrost = (bayAt s b).defrost := by
  rcases (undisturbed_settle h).record with k | k <;> rw [k]
  rfl

/-- An episode stopped by a change that owes no pass, on a loop that an exchange holds. -/
theorem stopEpisode_settled (hrest : atRest v) (hbusy : v.loop.exchange.isSome = true) (hn : ¬ startWaits v b) (r : StopReason) :
    (bayAt (settle (stopEpisode b r v)) b).defrost = (stoppedRecord r (bayAt v b)).defrost
    ∧ (settle (stopEpisode b r v)).arb = { v.arb with active := v.arb.active.filter (fun x => x ≠ b) }
    ∧ (⟨b, .stop⟩ : Order) ∈ (settle (stopEpisode b r v)).loop.orders := by
  have hrest' : atRest (stopEpisode b r v) := (stopEpisode_passDue b r v).trans hrest
  refine ⟨?_, ?_, ?_⟩
  · rw [settle_kept (.inl hrest'), bayAt_stopEpisode, if_pos rfl]
  · rw [settle_arb_of_atRest hrest', stopEpisode_arb]
  · have hloop : (stopEpisode b r v).loop = (placeStop b v).loop := stopEpisode_loop b r v
    rw [settle_orders_of_busy (by rw [hloop, placeStop_loop]; exact hbusy), (runPass_of_none (.inl hrest')).2.2, hloop]
    exact stop_mem_placeStop hn

/-! ## The state in which an order's outcome is told to the arbiter (R40, R51) -/

/-- Its outcome noted, an exchange that is ending changes nothing but the phase of the loop. -/
structure OrderNoted (b : Bay) (o : ExchangeOutcome) (s u : State) : Prop where
  record : bayAt u b = { bayAt s b with lastExchange := o }
  arb : u.arb = s.arb
  run : u.run = s.run
  alert : u.alert = s.alert
  orders : u.loop.orders = s.loop.orders
  busy : u.loop.exchange.isSome = true
  passDue : u.passDue = s.passDue

theorem orderNoted (b : Bay) (k : ExchangeKind) (j : Judged) (o : ExchangeOutcome) (s : State) :
    OrderNoted b o s (noteOutcome b o (atEnd b k j s)) := ⟨bayAt_noteOutcome b o _, rfl, rfl, rfl, rfl, rfl, rfl⟩

/-- The result of an order's exchange as told to the arbiter. -/
theorem start_acked (hd : (bayAt s b).defrost.state = .starting) (resume : Bool) (r : AckResult) : ∃ u, OrderNoted b .answered s u
    ∧ broughtBy b (.order (.start resume)) (.ack r) (atEnd b (.order (.start resume)) (.ack r) s) = startAnswered b r u :=
  ⟨_, orderNoted b _ _ .answered s, brought_start_ack (s := atEnd b _ _ s) hd resume r⟩

theorem start_failed (hd : (bayAt s b).defrost.state = .starting) (resume : Bool) (o : ExchangeOutcome) :
    ∃ u, OrderNoted b o s u ∧ broughtBy b (.order (.start resume)) (.failed o)
      (atEnd b (.order (.start resume)) (.failed o) s) = startUnanswered b u :=
  ⟨_, orderNoted b _ _ o s, brought_start_failed (s := atEnd b _ _ s) hd resume o⟩

theorem stop_acked (hd : (bayAt s b).defrost.state = .stopping) (r : AckResult) : ∃ u, OrderNoted b .answered s u
    ∧ broughtBy b (.order .stop) (.ack r) (atEnd b (.order .stop) (.ack r) s) = stopAnswered b u :=
  ⟨_, orderNoted b _ _ .answered s, brought_stop_ack (s := atEnd b _ _ s) hd r⟩

theorem stop_failed (hd : (bayAt s b).defrost.state = .stopping) (o : ExchangeOutcome) : ∃ u, OrderNoted b o s u
    ∧ broughtBy b (.order .stop) (.failed o) (atEnd b (.order .stop) (.failed o) s) = stopUnanswered b u :=
  ⟨_, orderNoted b _ _ o s, brought_stop_failed (s := atEnd b _ _ s) hd o⟩

theorem OrderNoted.feeder (h : OrderNoted b o s u) (f : FeederIx) : feederAt u f = feederAt s f := by
  simp only [feederAt, h.arb]

theorem OrderNoted.startWaits (h : OrderNoted b o s u) : startWaits u b ↔ startWaits s b := by
  unfold Claims.startWaits
  rw [h.orders]

theorem OrderNoted.onAStack (h : OrderNoted b o s u) : onAStack u b ↔ onAStack s b := by
  unfold Claims.onAStack
  simp only [h.feeder]

theorem Undisturbed.inNoCollection (h : Undisturbed b s t) (k : inNoCollection s b) : inNoCollection t b := by
  obtain ⟨hq, ha, hs⟩ := k
  refine ⟨fun q hx hb => hq q ((h.queue q hb).mp hx) hb, fun k => ha (h.active.mp k), fun ⟨f, e, he, hb⟩ => ?_⟩
  exact hs ⟨f, e, (h.stack f e hb).mp he, hb⟩

/-- An episode ended at the end of an exchange, with the end of its change (R9, R131). -/
theorem endEpisode_settled (h : OrderNoted b o s u) (x : DefrostOutcome) : inNoCollection (settle (endEpisode b x u)) b
    ∧ ((bayAt s b).occupancy ≠ .departing →
        (bayAt (settle (endEpisode b x u)) b).defrost = afterOutcome s.run.settings.holdoff x (bayAt s b).defrost
        ∧ (bayAt (settle (endEpisode b x u)) b).frost = frostAfter x (bayAt s b).frost)
    ∧ ((bayAt s b).occupancy = .departing → bayAt (settle (endEpisode b x u)) b = emptiedRecord (bayAt s b))
    ∧ (raisesFrost x = true → b.succ ∈ (catAt (settle (endEpisode b x u)).alert .frost).pending) := by
  have hempty := inNoCollection_endEpisode b x u
  have hnopass := noPassFor_of_inNoCollection hempty
  have hocc : (bayAt u b).occupancy = (bayAt s b).occupancy := by rw [h.record]
  refine ⟨(undisturbed_settle hnopass).inNoCollection hempty, fun hd => ?_, fun hd => ?_, fun hf => ?_⟩
  · have hrecord := record_endEpisode (s := u) (by rw [hocc]; exact hd) x
    rw [settle_kept hnopass, (settle_keepsRecord _ b).1, hrecord, h.record, h.run]
    exact ⟨rfl, rfl⟩
  · refine settle_emptied ?_
    rw [bayAt_endEpisode, if_pos (hocc.trans hd), h.record]
    rfl
  · rw [settle_alert]
    exact (endEpisode_raisesFrost b x u b.succ).mpr (.inr ⟨rfl, hf⟩)

/-! ## TAKEN for a STARTING bay (R134) -/

theorem startTaken_active (hr : (bayAt s b).defrost.reason = none) (hp : (bayAt s b).defrost.shedPending = false) :
    startTaken b s = modDefrost b (fun d => { d with state := .active, shedPending := false }) s := by
  unfold startTaken
  simp only [hr, hp]

theorem startTaken_stopped {r : StopReason} (hr : (bayAt s b).defrost.reason = some r) :
    startTaken b s = stopEpisode b r s := by
  unfold startTaken
  simp only [hr]

theorem startTaken_shed (hr : (bayAt s b).defrost.reason = none) (hp : (bayAt s b).defrost.shedPending = true)
    (hc : (bayAt s b).defrost.charge = .feeder f) : startTaken b s = shedRunning f b s := by
  unfold startTaken
  simp only [hr, hp, hc]

theorem startTaken_written (b : Bay) (s : State) : DefrostWritten b s (startTaken b s) := by
  unfold startTaken
  dsimp only
  split
  · exact stopEpisode_written b _ s
  · split
    · exact shedRunning_written _ b s
    · exact modDefrost_written b _ s

/-- The shed that waited for TAKEN, with the end of its change: a push where the stack has room, else overflow (R141, R142). -/
theorem shedRunning_settled (h : OrderNoted b o s u) (hrest : atRest s) (hn : noOrder s b) (f : FeederIx) :
    let t := settle (shedRunning f b u)
    b ∉ t.arb.active ∧ (⟨b, .stop⟩ : Order) ∈ t.loop.orders
    ∧ ((feederAt s f).stack.length < 8 →
        (bayAt t b).defrost = { (bayAt s b).defrost with state := .stopping, reason := some .shed, shedPending := false }
        ∧ (feederAt t f).stack = ⟨b, none⟩ :: (feederAt s f).stack
        ∧ (feederAt t f).nearFull = ((feederAt s f).nearFull || decide ((feederAt s f).stack.length = 6))
        ∧ ((feederAt s f).stack.length = 6 → b.succ ∈ (catAt t.alert .power).pending))
    ∧ (8 ≤ (feederAt s f).stack.length →
        (bayAt t b).defrost = { (bayAt s b).defrost with state := .stopping, reason := some .overflow, shedPending := false }
        ∧ (feederAt t f).stack = (feederAt s f).stack ∧ (feederAt t f).overflow = true
        ∧ b.succ ∈ (catAt t.alert .power).pending) := by
  intro t
  have hrest' : u.passDue = false := h.passDue.trans hrest
  have hwaits : ¬ startWaits u b := fun k => not_startWaits_of_noOrder hn (h.startWaits.mp k)
  have hstack := h.feeder f
  by_cases hroom : (feederAt s f).stack.length < 8
  · have ht : t = settle (stopEpisode b .shed (pushShed f b u)) := by rw [← shedRunning_room (by rw [hstack]; exact hroom)]
    have hloop := pushShed_loop f b u
    obtain ⟨hd, harb, hstop⟩ := stopEpisode_settled (v := pushShed f b u) (b := b) ((pushShed_passDue f b u).trans hrest')
      (by rw [hloop]; exact h.busy) (by rw [Claims.startWaits, hloop]; exact hwaits) .shed
    rw [← ht] at hd harb hstop
    have hfeeder : feederAt t f = feederAt (pushShed f b u) f := by simp only [feederAt, harb]
    refine ⟨by rw [harb]; simp, hstop, fun _ => ⟨?_, ?_, ?_, fun h6 => ?_⟩, fun k => absurd hroom (Nat.not_lt.mpr k)⟩
    · rw [hd, bayAt_congr (pushShed_bays f b u), h.record]
      rfl
    · rw [hfeeder, feederAt_pushShed, hstack]
    · rw [hfeeder, feederAt_pushShed, hstack]
    · rw [ht, settle_alert, stopEpisode_alert]
      exact pushShed_power (by rw [hstack]; exact h6)
  · have ht : t = settle (stopEpisode b .overflow (refusePush f b u)) := by
      rw [← shedRunning_full (by rw [hstack]; exact Nat.not_lt.mp hroom)]
    obtain ⟨hd, harb, hstop⟩ := stopEpisode_settled (v := refusePush f b u) (b := b) hrest' h.busy hwaits .overflow
    rw [← ht] at hd harb hstop
    have hfeeder : feederAt t f = feederAt (refusePush f b u) f := by simp only [feederAt, harb]
    refine ⟨by rw [harb]; simp, hstop, fun k => absurd k hroom, fun _ => ⟨?_, ?_, ?_, ?_⟩⟩
    · rw [hd, bayAt_congr (refusePush_bays f b u), h.record]
      rfl
    · rw [hfeeder, feederAt_refusePush, hstack]
    · rw [hfeeder, feederAt_refusePush]
    · rw [ht, settle_alert, stopEpisode_alert]
      exact refusePush_power f b u

/-! ## STOPPED, or no answer, for a STOPPING bay (R137, R138) -/

/-- Every bay keeps its record or has been resumed (R144). -/
def ResumesOnly (s t : State) : Prop := ∀ c, bayAt t c = bayAt s c ∨ bayAt t c = resumedRecord (bayAt s c)

theorem ResumesOnly.trans (h : ResumesOnly s t) (k : ResumesOnly t u) : ResumesOnly s u := fun c => by
  rcases k c with hk | hk <;> rcases h c with hc | hc <;> rw [hk, hc]
  · exact .inl rfl
  · exact .inr rfl
  · exact .inr rfl
  · exact .inr rfl

theorem resumesOnly_resumeFeeder (f : FeederIx) (n : Nat) (s : State) : ResumesOnly s (resumeFeeder f n s) := by
  induction n generalizing s with
  | zero => exact fun _ => .inl rfl
  | succ n ih =>
    rcases resumeFeeder_succ f n s with h | ⟨top, rest, htop, -, -, h⟩ <;> rw [h]
    · exact fun _ => .inl rfl
    · refine ResumesOnly.trans (fun c => ?_) (ih _)
      by_cases hc : c = top.bay
      · subst hc
        exact .inr (bayAt_resumeTop f top.bay rest s)
      · exact .inl ((resumeTop_actsOn htop fun _ => False).records c hc)

theorem resumesOnly_resumeAll (s : State) : ResumesOnly s (resumeAll s) :=
  foldl_rel (R := ResumesOnly) (fun _ _ => .inl rfl) (fun _ _ _ => ResumesOnly.trans) (fun s f => resumesOnly_resumeFeeder f _ s)
    allFeeders s

/-- A bay that waits in no queue can only be resumed by the end of a change (R121). -/
theorem settle_resumes (hq : ∀ q ∈ s.arb.queue, q.bay ≠ b) : (bayAt (settle s) b).defrost = (bayAt s b).defrost
    ∨ (s.run.state = .running ∧ (bayAt (settle s) b).defrost = (resumedRecord (bayAt s b)).defrost) := by
  have hpass : (bayAt (settle s) b).defrost = (bayAt (runPass s) b).defrost := by
    rcases settle_cases s with ⟨-, k⟩ | ⟨-, -, k⟩ <;> rw [k b]
    rfl
  rw [hpass]
  rcases runPass_cases s with ⟨-, e⟩ | ⟨-, hr, e⟩ | ⟨-, -, e⟩ <;> rw [e]
  · exact .inl rfl
  · have hqueue : ∀ q ∈ (resumeAll { s with passDue := false }).arb.queue, q.bay ≠ b := by
      rw [sameQueue_resumeAll { s with passDue := false }]
      exact hq
    have hgrant := (sameFor_grantQueue hqueue).record
    rw [grantPass, hgrant]
    rcases resumesOnly_resumeAll { s with passDue := false } b with k | k <;> rw [k]
    · exact .inl rfl
    · exact .inr ⟨hr, rfl⟩
  · exact .inl rfl

theorem stackEntry_ended {r : StopReason} (hs : onAStack s b)
    (h : ∀ f, ∀ e ∈ (feederAt s f).stack, e.bay = b → e.ended = some r) : (stackEntry s b).bind (·.ended) = some r := by
  obtain ⟨e, he⟩ := Option.isSome_iff_exists.mp ((onStack_iff s b).mpr hs)
  have hmem := List.mem_of_find?_eq_some he
  have hbay : e.bay = b := by simpa using List.find?_some he
  obtain ⟨f, -, hf⟩ := List.mem_flatMap.mp hmem
  rw [he]
  exact h f e hf hbay

theorem stackEntry_none (h : ∀ f, ∀ e ∈ (feederAt s f).stack, e.bay = b → e.ended = none) :
    (stackEntry s b).bind (·.ended) = none := by
  cases he : stackEntry s b with
  | none => rfl
  | some e =>
    have hbay : e.bay = b := by simpa using List.find?_some he
    obtain ⟨f, -, hf⟩ := List.mem_flatMap.mp (List.mem_of_find?_eq_some he)
    exact h f e hf hbay

theorem OrderNoted.stackEntry (h : OrderNoted b o s u) : stackEntry u b = stackEntry s b := by
  unfold Machine.stackEntry
  simp only [h.feeder]

theorem stopAnswered_reason {r : StopReason} (hr : (bayAt s b).defrost.reason = some r) (hs : r ≠ .shed) :
    stopAnswered b s = endEpisode b (outcomeOf r) s := by
  unfold stopAnswered
  rw [hr]
  cases r
  case shed => exact absurd rfl hs
  all_goals rfl

theorem stopAnswered_recorded {r : StopReason} (hr : (bayAt s b).defrost.reason = some .shed)
    (he : (stackEntry s b).bind (·.ended) = some r) : stopAnswered b s = endEpisode b (outcomeOf r) s := by
  unfold stopAnswered
  rw [hr]
  dsimp only
  rw [he]

theorem stopAnswered_shed (hr : (bayAt s b).defrost.reason = some .shed) (he : (stackEntry s b).bind (·.ended) = none) :
    stopAnswered b s = owePass (modDefrost b (fun d => { d with state := .shed, reason := none }) s) := by
  unfold stopAnswered
  rw [hr]
  dsimp only
  rw [he]

theorem outcomeFor_some {r : StopReason} {x : DefrostOutcome} (h : outcomeFor r = some x) : r ≠ .shed ∧ x = outcomeOf r := by
  cases r <;> cases h <;> exact ⟨nofun, rfl⟩

theorem hungTold_noPass (hq : ∀ q ∈ s.arb.queue, q.bay ≠ b) : NoPassFor (hungTold b s) b := by
  refine .inr (.inr ⟨fun q hx => hq q ?_, .inl (by rw [bayAt_hungTold]; nofun)⟩)
  rw [hungTold, owePassIf_eq] at hx
  exact hx

theorem hungTold_stacks (b : Bay) (s : State) : ¬ onAStack (hungTold b s) b := by
  rintro ⟨f, e, he, hb⟩
  rw [hungTold, owePassIf_eq] at he
  have he : e ∈ (feederAt (leaveStacks b s) f).stack := he
  rw [feederAt_leaveStacks] at he
  simpa [hb] using (List.mem_filter.mp he).2

end Sys2Proof.Machine

namespace Sys2Proof.Proofs

open Sys2Proof.Machine Sys2Proof.Claims

/-- Settles O53: each end of the exchange is told in a state that differs from the first only in the outcome noted. -/
theorem startOrderOutcomes : Obligations.StartOrderOutcomes := by
  intro s b resume i j hw hi hd hrest
  refine ⟨_, exec_brought hw hi, ?_, ?_, ?_, ?_, ?_, ?_, ?_⟩
  · rintro rfl
    obtain ⟨u, h, hu⟩ := start_acked hd resume .taken
    obtain ⟨d, hwritten⟩ := startTaken_written b u
    rw [hu, (settle_keepsRecord _ b).1]
    show (bayAt (startTaken b u) b).lastExchange = _
    rw [hwritten, h.record]
  · rintro rfl hr hp
    obtain ⟨u, h, hu⟩ := start_acked hd resume .taken
    rw [hu]
    have hactive : startAnswered b .taken u = modDefrost b (fun d => { d with state := .active, shedPending := false }) u :=
      startTaken_active (by rw [h.record]; exact hr) (by rw [h.record]; exact hp)
    have hrest' : atRest (startAnswered b .taken u) := by rw [hactive]; exact h.passDue.trans hrest
    rw [settle_kept (.inl hrest'), settle_arb_of_atRest hrest', hactive, bayAt_modDefrost_same, h.record]
    exact ⟨by rw [← hp], h.arb⟩
  · rintro r rfl hr hn
    obtain ⟨u, h, hu⟩ := start_acked hd resume .taken
    rw [hu]
    obtain ⟨hdefrost, harb, hstop⟩ := stopEpisode_settled (v := u) (b := b) (h.passDue.trans hrest) h.busy
      (fun k => not_startWaits_of_noOrder hn (h.startWaits.mp k)) r
    have hstopped : startAnswered b .taken u = stopEpisode b r u := startTaken_stopped (by rw [h.record]; exact hr)
    rw [hstopped, hdefrost, harb, h.record, h.arb]
    refine ⟨?_, rfl, hstop⟩
    dsimp only [stoppedRecord]
    rw [hr]
  · rintro f rfl hr hp hc hn
    obtain ⟨u, h, hu⟩ := start_acked hd resume .taken
    rw [hu]
    have hshed : startAnswered b .taken u = shedRunning f b u :=
      startTaken_shed (by rw [h.record]; exact hr) (by rw [h.record]; exact hp) (by rw [h.record]; exact hc)
    rw [hshed]
    exact shedRunning_settled h hrest hn f
  · rintro r x rfl hx ho
    obtain ⟨u, h, hu⟩ := start_acked hd resume r
    rw [hu]
    have hrefused : startAnswered b r u = endEpisode b x u := by
      rcases hx with ⟨rfl, rfl⟩ | ⟨rfl, rfl⟩ | ⟨rfl, rfl⟩ <;> rfl
    obtain ⟨hempty, hrecord, -, hfrost⟩ := endEpisode_settled h x
    obtain ⟨h1, h2⟩ := hrecord ho
    rw [hrefused]
    refine ⟨h1, h2, hempty, fun hr => hfrost ?_⟩
    rcases hx with ⟨rfl, rfl⟩ | ⟨rfl, rfl⟩ | ⟨rfl, rfl⟩
    · cases hr
    · cases hr
    · rfl
  · rintro r rfl hr ho
    obtain ⟨u, h, hu⟩ := start_acked hd resume r
    rw [hu]
    have hrefused : startAnswered b r u = endEpisode b (refusalOutcome r) u := by
      cases r
      case taken => exact absurd rfl hr
      all_goals rfl
    obtain ⟨hempty, -, hgone, hfrost⟩ := endEpisode_settled h (refusalOutcome r)
    rw [hrefused]
    refine ⟨hgone ho, hempty, ?_⟩
    rintro rfl
    exact hfrost rfl
  · rintro o rfl hn
    obtain ⟨u, h, hu⟩ := start_failed hd resume o
    rw [hu]
    obtain ⟨hdefrost, harb, hstop⟩ := stopEpisode_settled (v := u) (b := b) (h.passDue.trans hrest) h.busy
      (fun k => not_startWaits_of_noOrder hn (h.startWaits.mp k)) .unconfirmed
    obtain ⟨d, hwritten⟩ := stopEpisode_written b .unconfirmed u
    have hlast : (bayAt (settle (stopEpisode b .unconfirmed u)) b).lastExchange = o := by
      rw [(settle_keepsRecord _ b).1, hwritten, h.record]
    show (bayAt (settle (stopEpisode b .unconfirmed u)) b).defrost = _ ∧ _
    refine ⟨?_, hlast, ?_, hstop⟩
    · rw [hdefrost, h.record]
      rfl
    · show b ∉ (settle (stopEpisode b .unconfirmed u)).arb.active
      rw [harb]
      simp

/-- Settles O54: STOPPED ends the episode or makes the bay SHED, which the pass may resume; unanswered, the bay is `hungTold`. -/
theorem stopOrderOutcomes : Obligations.StopOrderOutcomes := by
  intro s b i j hw hi hd hq
  refine ⟨_, exec_brought hw hi, ?_, ?_, ?_, ?_, ?_⟩
  · rintro r x rfl hr hx
    obtain ⟨u, h, hu⟩ := stop_acked hd .stopped
    obtain ⟨hne, rfl⟩ := outcomeFor_some hx
    obtain ⟨h1, h2⟩ := outcomeOf_ne r
    obtain ⟨hempty, hrecord, hgone, hfrost⟩ := endEpisode_settled h (outcomeOf r)
    rw [frostAfter_of_ne h1 h2] at hrecord
    rw [hu, stopAnswered_reason (by rw [h.record]; exact hr) hne]
    refine ⟨hempty, fun ho => ⟨(hrecord ho).1, (hrecord ho).2, ?_⟩, hgone⟩
    rintro rfl
    exact hfrost rfl
  · rintro r x rfl hr hs he hx
    obtain ⟨u, h, hu⟩ := stop_acked hd .stopped
    obtain ⟨-, rfl⟩ := outcomeFor_some hx
    obtain ⟨h1, h2⟩ := outcomeOf_ne r
    obtain ⟨hempty, hrecord, hgone, -⟩ := endEpisode_settled h (outcomeOf r)
    rw [frostAfter_of_ne h1 h2] at hrecord
    rw [hu, stopAnswered_recorded (by rw [h.record]; exact hr) (by rw [h.stackEntry]; exact stackEntry_ended hs he)]
    exact ⟨hempty, hrecord, hgone⟩
  · rintro rfl hr he
    obtain ⟨u, h, hu⟩ := stop_acked hd .stopped
    have hshed := stopAnswered_shed (s := u) (b := b) (by rw [h.record]; exact hr) (by rw [h.stackEntry]; exact stackEntry_none he)
    have hqueue : ∀ q ∈ (stopAnswered b u).arb.queue, q.bay ≠ b := by
      rw [hshed]
      show ∀ q ∈ u.arb.queue, _
      rw [h.arb]
      exact hq
    have hbay : bayAt (stopAnswered b u) b
        = { bayAt u b with defrost := { (bayAt u b).defrost with state := .shed, reason := none } } := by
      rw [hshed]
      exact bayAt_modDefrost_same b (fun d => { d with state := .shed, reason := none }) u
    have hrun : (stopAnswered b u).run = s.run := by
      rw [hshed]
      exact h.run
    rw [hu]
    rcases settle_resumes hqueue with k | ⟨hr, k⟩ <;> rw [k, hbay, h.record]
    · exact ⟨rfl, .inl rfl, rfl, rfl⟩
    · rw [hrun] at hr
      exact ⟨rfl, .inr ⟨hr, rfl⟩, rfl, rfl⟩
  · rintro o rfl ho
    obtain ⟨u, h, hu⟩ := stop_failed hd o
    have hhung : stopUnanswered b u = hungTold b u := by rw [stopUnanswered_eq, if_neg (by rw [h.record]; exact ho)]
    have hnopass : NoPassFor (hungTold b u) b := hungTold_noPass (by rw [h.arb]; exact hq)
    have hdefrost : (bayAt (settle (hungTold b u)) b).defrost
        = { (bayAt s b).defrost with state := .hung, reason := hungReason u b } := by
      rw [settle_kept hnopass, bayAt_hungTold, h.record]
    have hreason (hr : (bayAt s b).defrost.reason = some .shed) :
        hungReason u b = some (((stackEntry s b).bind (·.ended)).getD .unconfirmed) := by
      rw [hungReason, h.record]
      dsimp only
      rw [hr, h.stackEntry]
    rw [hu, hhung, hdefrost]
    refine ⟨fun hr => ?_, fun hr he => ?_, fun r hr hs he => ?_, ?_, ?_, ?_⟩
    · have hkeep : hungReason u b = (bayAt s b).defrost.reason := by
        rw [hungReason, h.record]
        dsimp only
        split
        · next hs => exact absurd hs hr
        · rfl
      rw [hkeep]
    · rw [hreason hr, stackEntry_none he]
      rfl
    · rw [hreason hr, stackEntry_ended hs he]
      rfl
    · rw [(settle_keepsRecord _ b).1, bayAt_hungTold, h.record]
    · exact fun ⟨f, e, he, hb⟩ => hungTold_stacks b u ⟨f, e, ((undisturbed_settle hnopass).stack f e hb).mp he, hb⟩
    · rw [settle_alert]
      exact mem_raiseAlert .power b _
  · rintro o rfl ho
    obtain ⟨u, h, hu⟩ := stop_failed hd o
    have hgone : stopUnanswered b u = departHung b (hungTold b u) := by
      rw [stopUnanswered_eq, if_pos (by rw [h.record]; exact ho)]
    rw [hu, hgone]
    refine settle_emptied ?_
    rw [bayAt_departHung, bayAt_hungTold, h.record]
    rfl

end Sys2Proof.Proofs
end

section
/-! A changed loss limit (O42). -/

namespace Sys2Proof.Machine

open Sys2Proof.Claims

variable {b c : Bay} {f g : FeederIx} {s t u : State} {limit : Nat}

/-! ## One bay under a new loss limit (R35) -/

/-- A bay that becomes LOST under a new limit. -/
abbrev losesLink (limit : Nat) (r : BayRecord) : Prop := r.link ≠ .lost ∧ limit ≤ r.missCount

theorem limitBay_within (h1 : (bayAt s b).link ≠ .lost) (h2 : (bayAt s b).missCount < limit) : limitBay limit b s = s := by
  unfold limitBay
  dsimp only
  rw [if_neg h1, if_neg (Nat.not_le.mpr h2)]

theorem limitBay_lost (h : (bayAt s b).link = .lost) :
    limitBay limit b s = modBay b (fun r => { r with missCount := limit }) s := if_pos h

/-- The record of a bay that becomes LOST has the link and the count written. -/
def lossWritten (limit : Nat) (b : Bay) (s : State) : State := modBay b (fun r => { r with missCount := limit, link := .lost }) s

theorem bayAt_lossWritten (limit : Nat) (b : Bay) (s : State) :
    bayAt (lossWritten limit b s) b = { bayAt s b with missCount := limit, link := .lost } := bayAt_modBay_same b _ s

theorem limitBay_losing (h : losesLink limit (bayAt s b)) : limitBay limit b s = becomeLost b (lossWritten limit b s) := by
  unfold limitBay
  dsimp only
  rw [if_neg h.1, if_pos h.2]
  rfl

theorem alert_limitBay (limit : Nat) (b : Bay) (s : State) (e : Element) :
    e ∈ (catAt (limitBay limit b s).alert .link).pending
      ↔ e ∈ (catAt s.alert .link).pending ∨ (e = b.succ ∧ losesLink limit (bayAt s b)) := by
  by_cases hlost : (bayAt s b).link = .lost
  · rw [limitBay_lost hlost]
    exact ⟨.inl, fun h => h.resolve_right fun k => k.2.1 hlost⟩
  · by_cases hcount : limit ≤ (bayAt s b).missCount
    · obtain ⟨-, hmem, -⟩ := raised_raiseIn s.run.settings.nesting .link (bayElement b) s.alert
      rw [limitBay_losing ⟨hlost, hcount⟩, alert_becomeLost]
      exact (hmem e).trans (or_congr .rfl ⟨fun h => ⟨h, hlost, hcount⟩, And.left⟩)
    · rw [limitBay_within hlost (Nat.not_le.mp hcount)]
      exact ⟨.inl, fun h => h.resolve_right fun k => hcount k.2.2⟩

/-- LINK is raised for exactly the bays of a list that lose their link. -/
theorem alert_limitBays (limit : Nat) (l : List Bay) (hl : l.Nodup) (s : State) (e : Element) :
    e ∈ (catAt (l.foldl (fun t x => limitBay limit x t) s).alert .link).pending
      ↔ e ∈ (catAt s.alert .link).pending ∨ ∃ b ∈ l, e = b.succ ∧ losesLink limit (bayAt s b) := by
  induction l generalizing s with
  | nil => simp
  | cons x l ih =>
    obtain ⟨hx, hl⟩ := List.nodup_cons.mp hl
    have hrest (b : Bay) (hb : b ∈ l) : bayAt (limitBay limit x s) b = bayAt s b :=
      (limitBay_actsOn limit x s).records b fun h => hx (h ▸ hb)
    rw [List.foldl_cons, ih hl, alert_limitBay, or_assoc]
    refine or_congr .rfl ⟨?_, ?_⟩
    · rintro (⟨he, hs⟩ | ⟨b, hb, he, hs⟩)
      · exact ⟨x, List.mem_cons_self, he, hs⟩
      · exact ⟨b, List.mem_cons_of_mem x hb, he, by rw [hrest b hb] at hs; exact hs⟩
    · rintro ⟨b, hb, he, hs⟩
      rcases List.mem_cons.mp hb with rfl | hb
      · exact .inl ⟨he, hs⟩
      · exact .inr ⟨b, hb, he, by rw [hrest b hb]; exact hs⟩

/-! ## Every bay in one change -/

/-- A changed loss limit before the end of its change. -/
def limited (s : State) : State := withFreeOrder (forBays (limitBay s.run.settings.lossLimit)) s

theorem applyLossLimit_eq (s : State) : applyLossLimit s = settle (limited s) := rfl

theorem alert_limited (s : State) (e : Element) : e ∈ (catAt (limited s).alert .link).pending
    ↔ e ∈ (catAt s.alert .link).pending ∨ ∃ b, e = b.succ ∧ losesLink s.run.settings.lossLimit (bayAt s b) := by
  obtain ⟨-, -, -, halert, -, -⟩ := withFreeOrder_frame (forBays (limitBay s.run.settings.lossLimit)) s
  have hfold := alert_limitBays s.run.settings.lossLimit allBays (List.nodup_finRange 40) s e
  rw [limited, halert]
  refine hfold.trans ?_
  exact or_congr .rfl ⟨fun ⟨b, _, h⟩ => ⟨b, h⟩, fun ⟨b, h⟩ => ⟨b, mem_allBays b, h⟩⟩

/-- Each bay's part in a changed loss limit is its own. -/
theorem limited_split (s : State) (b : Bay) : ∃ u, SameFor b s u ∧ u.run = s.run
    ∧ bayAt (limited s) b = bayAt (limitBay s.run.settings.lossLimit b u) b
    ∧ Undisturbed b (limitBay s.run.settings.lossLimit b u) (limited s) := by
  obtain ⟨u, h1, h2, h3, h4⟩ := foldBays_split (limitBay_actsOn s.run.settings.lossLimit) allBays (List.nodup_finRange 40)
    (mem_allBays b) s
  have hfree := undisturbed_withFreeOrder (forBays (limitBay s.run.settings.lossLimit)) s b
  refine ⟨u, h1, h2, ?_, h4.trans hfree⟩
  rw [limited, bayAt_congr (withFreeOrder_bays _ s)]
  exact h3.record

theorem endBusiness_queue_of_not (h : ¬ endsAtOnce s b) (r : StopReason) :
    (endBusiness b r s).arb.queue = s.arb.queue := by
  unfold endBusiness
  split
  · rfl
  · next hs => exact absurd (.inl hs) h
  · next hs =>
    rw [if_neg fun k => h (.inr (.inr ⟨hs, (startUnsent_iff s b).mp k⟩))]
    rfl
  · rw [stopEpisode_arb]
  · split <;> rfl
  · next hs => exact absurd (.inr (.inl hs)) h
  · rfl

section
variable (h : losesLink s.run.settings.lossLimit (bayAt s b))
include h

/-- The defrost business of a bay that loses its link ends by the table of R145. -/
theorem businessEnded_limited : businessEnded .link .abortedLink s (limited s) b := by
  obtain ⟨u, hsame, hrun, -, hafter⟩ := limited_split s b
  have hlosing : limitBay s.run.settings.lossLimit b u = becomeLost b (lossWritten s.run.settings.lossLimit b u) :=
    limitBay_losing (by rw [hsame.record]; exact h)
  rw [hlosing, becomeLost_eq] at hafter
  refine businessEnded_pre_sameFor ?_ hsame hrun
  have hbay : bayAt (lostTold b (lossWritten s.run.settings.lossLimit b u)) b
      = loseDoorOf { bayAt u b with missCount := s.run.settings.lossLimit, link := .lost } := by
    rw [bayAt_lostTold, bayAt_lossWritten]
  refine businessEnded_pre (businessEnded_post (businessEnded_endBusiness b .link _) hafter) rfl (fun _ _ _ => .rfl)
    (fun _ _ => .rfl) ?_ ?_ ?_ <;> rw [hbay] <;> rfl

theorem record_limited : ((bayAt s b).occupancy = .departing ∧ endsAtOnce s b → bayAt (limited s) b = emptiedRecord (bayAt s b))
    ∧ (¬ ((bayAt s b).occupancy = .departing ∧ endsAtOnce s b) → ∃ d, bayAt (limited s) b
        = { loseDoorOf { bayAt s b with missCount := s.run.settings.lossLimit, link := .lost } with defrost := d }) := by
  refine ⟨fun hgone => ?_, fun hgone => ?_⟩
  · obtain ⟨-, honce, -⟩ := businessEnded_limited h
    exact (honce hgone.2).2.1 hgone.1
  · obtain ⟨u, hsame, hrun, hrecord, -⟩ := limited_split s b
    have hlosing : limitBay s.run.settings.lossLimit b u = becomeLost b (lossWritten s.run.settings.lossLimit b u) :=
      limitBay_losing (by rw [hsame.record]; exact h)
    have hbay := bayAt_lossWritten s.run.settings.lossLimit b u
    have hgone' : ¬ ((bayAt (lossWritten s.run.settings.lossLimit b u) b).occupancy = .departing
        ∧ endsAtOnce (lossWritten s.run.settings.lossLimit b u) b) := by
      have hstart : startWaits (lossWritten s.run.settings.lossLimit b u) b ↔ startWaits s b := hsame.startWaits
      rw [endsAtOnce, hbay, hstart, hsame.record]
      exact hgone
    obtain ⟨d, hd⟩ := record_becomeLost hgone'
    exact ⟨d, by rw [hrecord, hlosing, hd, hbay, hsame.record]⟩

/-- After it the bay waits for no current, so the pass leaves it (R116, R129). -/
theorem noPassFor_limited (hq : (bayAt s b).defrost.state ≠ .queued → ∀ q ∈ s.arb.queue, q.bay ≠ b) : NoPassFor (limited s) b := by
  have hended := businessEnded_limited h
  obtain ⟨-, honce, -⟩ := businessEnded_limited h
  by_cases hend : endsAtOnce s b
  · exact noPassFor_of_inNoCollection (honce hend).1
  · obtain ⟨u, hsame, -, -, hafter⟩ := limited_split s b
    have hlosing : limitBay s.run.settings.lossLimit b u = becomeLost b (lossWritten s.run.settings.lossLimit b u) :=
      limitBay_losing (by rw [hsame.record]; exact h)
    have hstart : ¬ endsAtOnce (lostTold b (lossWritten s.run.settings.lossLimit b u)) b := by
      have hstart : startWaits (lostTold b (lossWritten s.run.settings.lossLimit b u)) b ↔ startWaits s b := hsame.startWaits
      rw [endsAtOnce, hstart, bayAt_lostTold, bayAt_lossWritten, hsame.record]
      exact hend
    refine .inr (.inr ⟨fun q hx hb => ?_, .inl (businessEnded_notWaiting hended).2⟩)
    have hx := (hafter.queue q hb).mp hx
    rw [hlosing, becomeLost_eq, endBusiness_queue_of_not hstart] at hx
    exact hq (fun k => hend (.inl k)) q ((hsame.mem_queue hb).mp hx) hb

end

/-- A bay that does not lose its link keeps its defrost record and its place in the queue. -/
theorem kept_limited (h : (bayAt s b).link = .lost ∨ (bayAt s b).missCount < s.run.settings.lossLimit) :
    (bayAt (limited s) b).defrost = (bayAt s b).defrost
    ∧ ∀ q, q.bay = b → (q ∈ (limited s).arb.queue ↔ q ∈ s.arb.queue) := by
  obtain ⟨u, hsame, -, hrecord, hafter⟩ := limited_split s b
  have hkept : (bayAt (limitBay s.run.settings.lossLimit b u) b).defrost = (bayAt u b).defrost
      ∧ (limitBay s.run.settings.lossLimit b u).arb.queue = u.arb.queue := by
    by_cases hlost : (bayAt u b).link = .lost
    · rw [limitBay_lost hlost, bayAt_modBay_same]
      exact ⟨rfl, rfl⟩
    · rw [limitBay_within hlost (by rw [hsame.record] at hlost ⊢; exact h.resolve_left hlost)]
      exact ⟨rfl, rfl⟩
  obtain ⟨hdefrost, hqueue⟩ := hkept
  refine ⟨by rw [hrecord, hdefrost, hsame.record], fun q hq => ?_⟩
  rw [hafter.queue q hq, hqueue, hsame.mem_queue hq]

/-- What the change keeps of link and count where no link is lost (R35). -/
theorem link_limited (b : Bay) : ((bayAt s b).link ≠ .lost → (bayAt s b).missCount < s.run.settings.lossLimit →
      bayAt (limited s) b = bayAt s b)
    ∧ ((bayAt s b).link = .lost → bayAt (limited s) b = { bayAt s b with missCount := s.run.settings.lossLimit }) := by
  obtain ⟨u, hsame, -, hrecord, -⟩ := limited_split s b
  refine ⟨fun h1 h2 => ?_, fun h => ?_⟩ <;> rw [hrecord]
  · rw [limitBay_within (by rw [hsame.record]; exact h1) (by rw [hsame.record]; exact h2), hsame.record]
  · rw [limitBay_lost (by rw [hsame.record]; exact h), bayAt_modBay_same, hsame.record]

theorem limited_run (s : State) : (limited s).run = s.run := by
  obtain ⟨hrun, -⟩ := withFreeOrder_frame (forBays (limitBay s.run.settings.lossLimit)) s
  rw [limited, hrun]
  exact foldl_inv (P := fun t : State => t.run = s.run) (fun t x ht => (limitBay_actsOn _ x t).run.trans ht) allBays rfl

end Sys2Proof.Machine

namespace Sys2Proof.Proofs

open Sys2Proof.Machine Sys2Proof.Claims

/-- Settles O42: each bay takes its own part in the change, and the pass that ends it can only start bays that wait. -/
theorem lossLimitChange : Obligations.LossLimitChange := by
  intro s v1 v0 limit hne
  have hexec := exec_setSetting_stored s 2 v1 v0 (storeSetting_of_le (id := 2) (by decide) (by decide) (number v1 v0)
    s.run.settings) (clamped_outside (lowest_le_highest 2) (number v1 v0))
  obtain ⟨w, hw⟩ : ∃ w, w = withSettings (writeNumber 2 limit s.run.settings) (taking .office s) := ⟨_, rfl⟩
  have hexec : exec (.setSetting .office [2, v1, v0]) s = .next
      (writeReply .office ⟨doneUnless (number v1 v0 < lowest 2 ∨ highest 2 < number v1 v0), []⟩ (settle (limited w))) := by
    rw [hexec, ← applyLossLimit_eq, hw]
    exact congrArg (fun x => Host.Outcome.next (writeReply .office _ x)) (if_pos hne.symm)
  have hlimit : w.run.settings.lossLimit = limit := by rw [hw]; rfl
  have hstate : w.run.state = s.run.state := by rw [hw]; rfl
  have hholdoff : w.run.settings.holdoff = s.run.settings.holdoff := by rw [hw]; rfl
  have hbay (b : Bay) : bayAt w b = bayAt s b := by rw [hw]; rfl
  have harb : w.arb = s.arb := by rw [hw]; rfl
  have hloop : w.loop = s.loop := by rw [hw]; rfl
  have hlink : catAt w.alert .link = catAt s.alert .link := by rw [hw]; rfl
  have hlosing {b : Bay} (h1 : (bayAt s b).link ≠ .lost) (h2 : limit ≤ (bayAt s b).missCount) :
      losesLink w.run.settings.lossLimit (bayAt w b) := by rw [hlimit, hbay]; exact ⟨h1, h2⟩
  have hgone (b : Bay) : ((bayAt w b).occupancy = .departing ∧ endsAtOnce w b)
      ↔ ((bayAt s b).occupancy = .departing ∧ endsAtOnce s b) := by
    rw [endsAtOnce, startWaits, hbay, hloop]
  clear hw
  obtain ⟨t, ht⟩ : ∃ t, t = writeReply .office ⟨doneUnless (number v1 v0 < lowest 2 ∨ highest 2 < number v1 v0), []⟩
    (settle (limited w)) := ⟨_, rfl⟩
  have hended {b : Bay} (h : businessEnded .link .abortedLink w (settle (limited w)) b) :
      businessEnded .link .abortedLink w t b := by rw [ht]; exact businessEnded_writeReply h .office _
  have hrecord (b : Bay) : bayAt t b = bayAt (settle (limited w)) b := by rw [ht, bayAt_congr (writeReply_bays _ _ _)]
  have halert : t.alert = (limited w).alert := by rw [ht, writeReply_alert, settle_alert]
  have hrun : t.run = (settle (limited w)).run := by rw [ht, writeReply_run]
  refine ⟨t, by rw [hexec, ht], ?_, fun b => ⟨fun h1 h2 => ?_, fun h => ?_, fun h1 h2 hg => ?_, fun h1 h2 hg => ?_⟩,
    fun _ hlaw b => ⟨fun h1 h2 => ?_, fun h => ?_⟩, fun e => ?_⟩
  · rw [hrun, settle_run, limited_run]
    exact hlimit
  · rw [hrecord, (settle_keepsRecord _ b).1, (link_limited b).1 (by rw [hbay]; exact h1) (by rw [hbay, hlimit]; exact h2), hbay]
    exact ⟨rfl, rfl⟩
  · rw [hrecord, (settle_keepsRecord _ b).1, (link_limited b).2 (by rw [hbay]; exact h), hbay]
    exact ⟨h, hlimit⟩
  · rw [hrecord, ← hbay]
    exact settle_emptied ((record_limited (hlosing h1 h2)).1 ((hgone b).mpr hg))
  · obtain ⟨d, hd⟩ := (record_limited (hlosing h1 h2)).2 fun k => hg ((hgone b).mp k)
    have hwaits := businessEnded_notWaiting (businessEnded_limited (hlosing h1 h2))
    rw [hlimit, hbay] at hd
    rw [hrecord]
    refine ⟨?_, ?_, ?_, ?_⟩
    · rw [(settle_keepsRecord _ b).1, hd]
      rfl
    · rw [(settle_keepsRecord _ b).1, hd]
      rfl
    · rcases (settle_keepsRecord (limited w) b).2 with k | k <;> rw [k, hd] <;> rfl
    · rcases settle_defrost (limited w) b with k | ⟨-, k⟩
      · rw [k]
        exact hwaits
      · rw [k.state]
        exact ⟨nofun, nofun⟩
  · have hnopass := noPassFor_limited (hlosing h1 h2) fun hd q hx hb => by
      rw [hbay] at hd
      rw [harb] at hx
      exact hd ((hlaw.2 b).1.mpr (hb ▸ List.mem_map_of_mem (f := fun q => q.bay) hx))
    refine businessEnded_pre (hended (businessEnded_post (businessEnded_limited (hlosing h1 h2)) (undisturbed_settle hnopass)))
      hholdoff (fun f _ _ => ?_) (fun _ _ => ?_) ?_ ?_ ?_
    · simp only [feederAt, harb]
    · rw [hloop]
    all_goals rw [hbay]
  · obtain ⟨hdefrost, hqueue⟩ := kept_limited (s := w) (b := b) (by rw [hbay, hlimit]; exact h)
    rw [hbay] at hdefrost
    rw [harb] at hqueue
    rw [hrecord]
    by_cases hwaits : (bayAt s b).defrost.state = .queued ∨ (bayAt s b).defrost.state = .shed
    · rcases settle_defrost (limited w) b with k | ⟨hr, k⟩
      · exact .inl (k.trans hdefrost)
      · rw [limited_run, hstate] at hr
        exact .inr ⟨hr, k.state, hwaits⟩
    · obtain ⟨hq, hs⟩ := not_or.mp hwaits
      refine .inl ((settle_kept (.inr (.inr ⟨fun q hx hb => hq ?_, .inl (by rw [hdefrost]; exact hs)⟩))).trans hdefrost)
      exact (hlaw.2 b).1.mpr (hb ▸ List.mem_map_of_mem (f := fun q => q.bay) ((hqueue q hb).mp hx))
  · have h := alert_limited w e
    rw [hlimit, hlink] at h
    simp only [hbay] at h
    rw [halert]
    exact h

end Sys2Proof.Proofs
end

section
/-! FEEDER BUDGET from a station and by a general call (O9, O50). -/

namespace Sys2Proof.Machine

open Sys2Proof.Claims

variable {f g : FeederIx} {s t u x : State} {v : FeederIx → Nat}

/-! ## Budgets stored -/

/-- The four budgets written, nothing else changed. -/
def budgetsWritten (v : FeederIx → Nat) (s : State) : State :=
  { s with arb := { s.arb with feeders := Vector.ofFn fun f => { feederAt s f with budget := v f } } }

theorem feederAt_budgetsWritten (v : FeederIx → Nat) (s : State) (f : FeederIx) :
    feederAt (budgetsWritten v s) f = { feederAt s f with budget := v f } := by simp [feederAt, budgetsWritten]

theorem eq_budgetsWritten (h : t = { s with arb := { s.arb with feeders := t.arb.feeders } })
    (hf : ∀ f, feederAt t f = { feederAt s f with budget := v f }) : t = budgetsWritten v s := by
  have hfeeders : t.arb.feeders = (budgetsWritten v s).arb.feeders :=
    Vector.ext fun i hi => (hf ⟨i, hi⟩).trans (feederAt_budgetsWritten v s ⟨i, hi⟩).symm
  rw [h, hfeeders]
  rfl

theorem setBudget_eq (f : FeederIx) (n : Nat) (s : State) :
    setBudget f n s = budgetsWritten (fun g => if g = f then n else (feederAt s g).budget) s := by
  refine eq_budgetsWritten rfl fun g => ?_
  rw [setBudget, feederAt_setFeeder]
  by_cases h : g = f
  · subst h
    simp
  · simp [h]

theorem foldl_setBudget (v : FeederIx → Nat) (l : List FeederIx) (s : State) :
    l.foldl (fun t f => setBudget f (v f) t) s = budgetsWritten (fun f => if f ∈ l then v f else (feederAt s f).budget) s := by
  induction l generalizing s with
  | nil => exact eq_budgetsWritten rfl fun f => by simp
  | cons a l ih =>
    rw [List.foldl_cons, ih, setBudget_eq]
    refine eq_budgetsWritten rfl fun f => ?_
    rw [feederAt_budgetsWritten, feederAt_budgetsWritten]
    by_cases hl : f ∈ l <;> by_cases ha : f = a <;> simp [hl, ha]

/-! ## Walks and triggers, feeders 1 to 4 in turn -/

/-- What a feeder's changed budget brings (R111, R112). -/
def budgetStep (v : FeederIx → Nat) (u x : State) (f : FeederIx) : State :=
  if v f < (feederAt u f).budget then shedWalk f x
  else if (feederAt u f).budget < v f then { x with passDue := true } else x

/-- A change of budgets before the end of its change. -/
def budgetsTaken (v : FeederIx → Nat) (s : State) : State := allFeeders.foldl (budgetStep v s) (budgetsWritten v s)

theorem budgetChange_iff : budgetChange v u t ↔ settled (budgetsTaken v u) t := by
  rw [budgetsTaken, show allFeeders = [0, 1, 2, 3] from rfl]
  exact Iff.rfl

theorem budgetChanged_eq (h : (feederAt x f).budget = v f) (u : State) :
    budgetChanged f (feederAt u f).budget x = budgetStep v u x f := by
  unfold budgetChanged budgetStep
  dsimp only
  rw [h]
  by_cases hlt : v f < (feederAt u f).budget
  · rw [if_neg (by omega), if_pos hlt, if_pos hlt]
  · rw [if_neg hlt, if_neg hlt]
    rfl

theorem budgetStep_same (h : v f = (feederAt u f).budget) (x : State) : budgetStep v u x f = x := by
  unfold budgetStep
  rw [if_neg (by omega), if_neg (by omega)]

theorem budgetStep_keeps (v : FeederIx → Nat) (u x : State) (f : FeederIx) : Keeps x (budgetStep v u x f) := by
  unfold budgetStep
  split
  · exact shedWalk_keeps f x
  · split
    · exact owePass_keeps x
    · exact .refl x

theorem foldl_budgetChanged (l : List FeederIx) (h : ∀ f, (feederAt x f).budget = v f) :
    l.foldl (fun t f => budgetChanged f (feederAt u f).budget t) x = l.foldl (budgetStep v u) x := by
  induction l generalizing x with
  | nil => rfl
  | cons a l ih =>
    rw [List.foldl_cons, List.foldl_cons, budgetChanged_eq (h a)]
    exact ih fun f => ((budgetStep_keeps v u x a).budget f).trans (h f)

theorem budget_budgetsWritten (v : FeederIx → Nat) (s : State) (f : FeederIx) : (feederAt (budgetsWritten v s) f).budget = v f := by
  rw [feederAt_budgetsWritten]

theorem changeBudgets_eq (w : FeederIx → Nat) (s : State) :
    changeBudgets w s = budgetsTaken (fun f => (storedBudget (w f)).1) s := by
  have hall (f : FeederIx) : f ∈ allFeeders := List.mem_finRange f
  have hstored : allFeeders.foldl (fun t f => setBudget f (storedBudget (w f)).1 t) s
      = budgetsWritten (fun f => (storedBudget (w f)).1) s := by
    rw [foldl_setBudget (fun f => (storedBudget (w f)).1)]
    simp only [hall, if_true]
  unfold changeBudgets
  rw [hstored]
  exact foldl_budgetChanged allFeeders (budget_budgetsWritten _ s)

theorem foldl_idle {α : Type} {h : State → α → State} (l : List α) (hid : ∀ y ∈ l, ∀ x, h x y = x) (x : State) :
    l.foldl h x = x := by
  induction l with
  | nil => rfl
  | cons y l ih => rw [List.foldl_cons, hid y List.mem_cons_self, ih fun z hz => hid z (List.mem_cons_of_mem y hz)]

/-- A step that alone of those taken in turn does something. -/
theorem foldl_only {α : Type} {h : State → α → State} {a : α} (l : List α) (hl : l.Nodup) (ha : a ∈ l)
    (hid : ∀ y, y ≠ a → ∀ x, h x y = x) (x : State) : l.foldl h x = h x a := by
  induction l generalizing x with
  | nil => cases ha
  | cons y l ih =>
    obtain ⟨hy, hl⟩ := List.nodup_cons.mp hl
    rw [List.foldl_cons]
    rcases List.mem_cons.mp ha with rfl | hmem
    · exact foldl_idle l (fun z hz => hid z fun k => hy (k ▸ hz)) _
    · rw [hid y fun k => hy (k ▸ hmem)]
      exact ih hl hmem x

theorem changeBudget_eq (f : FeederIx) (n : Nat) (s : State) :
    changeBudget f n s = budgetsTaken (fun g => if g = f then (storedBudget n).1 else (feederAt s g).budget) s := by
  unfold changeBudget budgetsTaken
  rw [setBudget_eq, budgetChanged_eq (budget_budgetsWritten _ s f)]
  have hidle (g : FeederIx) (hg : g ≠ f) (x : State) :
      budgetStep (fun g => if g = f then (storedBudget n).1 else (feederAt s g).budget) s x g = x := budgetStep_same (if_neg hg) x
  exact (foldl_only allFeeders (List.nodup_finRange 4) (List.mem_finRange f) hidle _).symm

theorem budgetsTaken_keeps (v : FeederIx → Nat) (s : State) : Keeps (budgetsWritten v s) (budgetsTaken v s) :=
  Keeps.foldl (fun x f => budgetStep_keeps v s x f) allFeeders _

theorem budget_settled (v : FeederIx → Nat) (s : State) (f : FeederIx) : (feederAt (settle (budgetsTaken v s)) f).budget = v f := by
  rw [(settle_keeps _).budget, (budgetsTaken_keeps v s).budget, budget_budgetsWritten]

theorem budgetChange_settled (v : FeederIx → Nat) (s : State) :
    budgetChange (fun f => (feederAt (settle (budgetsTaken v s)) f).budget) s (settle (budgetsTaken v s)) := by
  rw [funext (budget_settled v s), budgetChange_iff]
  exact settled_settle _

theorem budgetChange_answered (v : FeederIx → Nat) (s : State) (st : Station) (r : Reply) :
    budgetChange (fun f => (feederAt (writeReply st r (settle (budgetsTaken v s))) f).budget) s
      (writeReply st r (settle (budgetsTaken v s))) := by
  have hbudget (f : FeederIx) : (feederAt (writeReply st r (settle (budgetsTaken v s))) f).budget = v f := budget_settled v s f
  rw [funext hbudget, budgetChange_iff]
  exact settled_writeReply_settle _ _ _

theorem storedBudget_eq (n : Nat) : storedBudget n = (min n 250, decide (250 < n)) :=
  Prod.ext (clampAbove_fst 250 n) (clampAbove_snd 250 n)

/-! ## The all-feeders form (R113) -/

/-- The budgets that an all-feeders write stores. -/
def fourStored (a b c d : Nat) (f : FeederIx) : Nat := min (fourBudgets a b c d f) 250

section
variable (a1 a0 b1 b0 c1 c0 d1 d0 : Byte) (s : State)

/-- The all-feeders form changes the budgets where one differs, and has no effect where none does (R111, R113). -/
theorem feederBudgetAllOwner_eq : feederBudgetAllOwner [a1, a0, b1, b0, c1, c0, d1, d0] s
    = (⟨doneUnless (250 < number a1 a0 ∨ 250 < number b1 b0 ∨ 250 < number c1 c0 ∨ 250 < number d1 d0), []⟩,
        if ∃ f, fourStored (number a1 a0) (number b1 b0) (number c1 c0) (number d1 d0) f ≠ (feederAt s f).budget
        then settle (budgetsTaken (fourStored (number a1 a0) (number b1 b0) (number c1 c0) (number d1 d0)) s) else s) := by
  have hclamped : doneOr (allFeeders.any fun f =>
        (storedBudget (fourBudgets (number a1 a0) (number b1 b0) (number c1 c0) (number d1 d0) f)).2)
      = ⟨doneUnless (250 < number a1 a0 ∨ 250 < number b1 b0 ∨ 250 < number c1 c0 ∨ 250 < number d1 d0), []⟩ := by
    refine doneOr_eq _ _ ?_
    rw [show allFeeders = [0, 1, 2, 3] from rfl]
    simp [storedBudget_eq, fourBudgets]
  have hdiffer : budgetsDiffer (fourBudgets (number a1 a0) (number b1 b0) (number c1 c0) (number d1 d0)) s = true
      ↔ ∃ f, fourStored (number a1 a0) (number b1 b0) (number c1 c0) (number d1 d0) f ≠ (feederAt s f).budget := by
    simp [budgetsDiffer, storedBudget_eq, fourStored, allFeeders]
  have hstored : changeBudgets (fourBudgets (number a1 a0) (number b1 b0) (number c1 c0) (number d1 d0)) s
      = budgetsTaken (fourStored (number a1 a0) (number b1 b0) (number c1 c0) (number d1 d0)) s := by
    rw [changeBudgets_eq]
    simp only [storedBudget_eq]
    rfl
  exact Prod.ext hclamped (if_congr hdiffer (congrArg settle hstored) rfl)

/-- The state after an all-feeders write: its budgets, and the change it is. -/
theorem allFeeders_stored {t : State} (h : t = (feederBudgetAllOwner [a1, a0, b1, b0, c1, c0, d1, d0] s).2) :
    (∀ f, (feederAt t f).budget = fourStored (number a1 a0) (number b1 b0) (number c1 c0) (number d1 d0) f)
    ∧ ((∀ f, (feederAt t f).budget = (feederAt s f).budget) → t = s)
    ∧ ((∃ f, (feederAt t f).budget ≠ (feederAt s f).budget) →
        t = settle (budgetsTaken (fourStored (number a1 a0) (number b1 b0) (number c1 c0) (number d1 d0)) s)) := by
  rw [feederBudgetAllOwner_eq] at h
  generalize fourStored (number a1 a0) (number b1 b0) (number c1 c0) (number d1 d0) = v at h
  dsimp only at h
  by_cases hv : ∃ f, v f ≠ (feederAt s f).budget
  · rw [if_pos hv] at h
    have hbudget (f : FeederIx) : (feederAt t f).budget = v f := by rw [h, budget_settled]
    refine ⟨hbudget, fun hsame => ?_, fun _ => h⟩
    obtain ⟨f, hf⟩ := hv
    exact absurd ((hbudget f).symm.trans (hsame f)) hf
  · rw [if_neg hv] at h
    subst h
    exact ⟨fun f => by_contra fun k => hv ⟨f, fun e => k e.symm⟩, fun _ => rfl, fun ⟨f, hf⟩ => absurd rfl hf⟩

end

end Sys2Proof.Machine

namespace Sys2Proof.Proofs

open Sys2Proof.Machine Sys2Proof.Claims

/-- Settles O50: each form is `budgetsTaken`, in the steps that `budgetChange` names. -/
theorem budgetsStored : Obligations.BudgetsStored := by
  intro s
  refine ⟨fun f v1 v0 => ?_, fun x v1 v0 hx => ?_, fun a1 a0 b1 b0 c1 c0 d1 d0 => ?_⟩
  · have hown : feederBudgetSingleOwner [feederByte f, v1, v0] (taking .feeder s)
        = (⟨doneUnless (250 < number v1 v0), []⟩, if min (number v1 v0) 250 = (feederAt s f).budget then taking .feeder s
            else settle (changeBudget f (number v1 v0) (taking .feeder s))) := by
      simp only [feederBudgetSingleOwner, withFeeder_feederByte]
      have hclamped := doneOr_eq _ (250 < number v1 v0) (congrArg Prod.snd (storedBudget_eq (number v1 v0)))
      refine Prod.ext hclamped (if_congr ?_ rfl rfl)
      show (storedBudget (number v1 v0)).1 = _ ↔ _
      rw [storedBudget_eq]
      rfl
    have hexec := exec_taken (i := .feederBudgetSingle .feeder [feederByte f, v1, v0]) (k := .feederBudgetSingle)
      (owner := feederBudgetSingleOwner [feederByte f, v1, v0]) (s := s) rfl rfl rfl
    rw [hown] at hexec
    dsimp only at hexec
    by_cases hsame : min (number v1 v0) 250 = (feederAt s f).budget
    · rw [if_pos hsame, writeReply_taking] at hexec
      exact ⟨_, hexec, by rw [slotAt_told], hsame.symm, fun _ _ => rfl, fun _ => rfl, fun k => absurd hsame k⟩
    · rw [if_neg hsame, changeBudget_eq] at hexec
      have hbudget (g : FeederIx) := budget_settled
        (fun g => if g = f then (storedBudget (number v1 v0)).1 else (feederAt (taking .feeder s) g).budget) (taking .feeder s) g
      refine ⟨_, hexec, by rw [slotAt_writeReply_plain], ?_, fun g hg => ?_, fun k => absurd k hsame, fun _ => ?_⟩
      · refine (hbudget f).trans ?_
        rw [if_pos rfl, storedBudget_eq]
      · refine (hbudget g).trans ?_
        rw [if_neg hg]
        rfl
      · exact budgetChange_answered _ _ _ _
  · refine exec_refused (k := .feederBudgetSingle) (owner := feederBudgetSingleOwner [x, v1, v0]) rfl rfl rfl ?_
    simp only [feederBudgetSingleOwner]
    exact withFeeder_of_noFeeder hx _ _
  · have hexec := exec_taken (i := .feederBudgetAll .feeder [a1, a0, b1, b0, c1, c0, d1, d0]) (k := .feederBudgetAll)
      (owner := feederBudgetAllOwner [a1, a0, b1, b0, c1, c0, d1, d0]) (s := s) rfl rfl rfl
    have hreply := congrArg Prod.fst (feederBudgetAllOwner_eq a1 a0 b1 b0 c1 c0 d1 d0 (taking .feeder s))
    obtain ⟨t, ht⟩ : ∃ t, t = (feederBudgetAllOwner [a1, a0, b1, b0, c1, c0, d1, d0] (taking .feeder s)).2 := ⟨_, rfl⟩
    obtain ⟨hbudget, hsame, hchange⟩ := allFeeders_stored a1 a0 b1 b0 c1 c0 d1 d0 (taking .feeder s) ht
    rw [← ht, hreply] at hexec
    refine ⟨_, hexec, by rw [slotAt_writeReply_plain], hbudget 0, hbudget 1, hbudget 2, hbudget 3, fun k b => ?_, fun k => ?_⟩
    · rw [bayAt_congr (writeReply_bays _ _ _), hsame k]
      rfl
    · rw [hchange k]
      exact budgetChange_answered _ _ _ _

/-- Settles O9: a write that `generalCallOk` passes is taken as the all-feeders form, but for its reply. -/
theorem generalCallActsOnBudgetsOnly : Obligations.GeneralCallActsOnBudgetsOnly := by
  refine ⟨fun bytes s h => ?_, fun a1 a0 b1 b0 c1 c0 d1 d0 s => ?_⟩
  · have hok : generalCallOk bytes = false := by
      cases bytes with
      | nil => rfl
      | cons kind args =>
        by_cases hk : kind = 0x23
        · have hlen : args.length ≠ 8 := fun k => h.elim (fun h => h (congrArg some hk)) fun h => h (by simp [k])
          simp [generalCallOk, argCount, hlen]
        · have hkind : decide (kind = kindCode .feederBudgetAll) = false := decide_eq_false hk
          simp [generalCallOk, hkind]
    show execGeneralCallWrite bytes s = _
    rw [execGeneralCallWrite, hok]
    rfl
  · obtain ⟨t, ht⟩ : ∃ t, t = (feederBudgetAllOwner [a1, a0, b1, b0, c1, c0, d1, d0] s).2 := ⟨_, rfl⟩
    obtain ⟨hbudget, hsame, hchange⟩ := allFeeders_stored a1 a0 b1 b0 c1 c0 d1 d0 s ht
    have hkeeps : t.port = s.port ∧ sameStations s.alert t.alert ∧ t.run.settings = s.run.settings := by
      by_cases k : ∃ f, (feederAt t f).budget ≠ (feederAt s f).budget
      · have h := (budgetsTaken_keeps (fourStored (number a1 a0) (number b1 b0) (number c1 c0) (number d1 d0)) s).trans
          (settle_keeps _)
        rw [← hchange k] at h
        exact ⟨h.port, h.stations, h.settings⟩
      · rw [hsame fun f => not_not.mp fun h => k ⟨f, h⟩]
        exact ⟨rfl, fun _ => ⟨rfl, rfl, rfl⟩, rfl⟩
    obtain ⟨hport, hstations, hsettings⟩ := hkeeps
    refine ⟨t, congrArg Host.Outcome.next ht.symm, hbudget 0, hbudget 1, hbudget 2, hbudget 3, hport, hstations, hsettings,
      hsame, fun k => ?_⟩
    rw [hchange k]
    exact budgetChange_settled _ _

end Sys2Proof.Proofs
end

section
/-! The shedding walk (O51). -/

namespace Sys2Proof.Machine

open Sys2Proof.Claims

variable {b c : Bay} {f : FeederIx} {s t u : State}

theorem admittedOn_iff : admittedOn s f b
    ↔ (bayAt s b).defrost.charge = .feeder f ∧ admittedState (bayAt s b).defrost = true := by
  have h : admittedState (bayAt s b).defrost = true ↔ (bayAt s b).defrost.state = .active
      ∨ ((bayAt s b).defrost.state = .starting ∧ (bayAt s b).defrost.shedPending = false) := by
    unfold admittedState
    cases (bayAt s b).defrost.state <;> simp
  rw [h]

theorem admittedOn_congr (h : bayAt t b = bayAt s b) : admittedOn t f b ↔ admittedOn s f b := by
  rw [admittedOn, h]

/-! ## A shed by the bay's defrost state (R141) -/

theorem shed_of_active (h : (bayAt s b).defrost.state = .active) (f : FeederIx) : shed f b s = shedRunning f b s := by
  unfold shed
  rw [h]

theorem shed_of_sent (h : (bayAt s b).defrost.state = .starting) (hw : ¬ startWaits s b) (f : FeederIx) :
    shed f b s = modDefrost b (fun d => { d with shedPending := true }) s := by
  unfold shed
  rw [h]
  exact if_neg fun k => hw ((startUnsent_iff s b).mp k)

theorem shed_of_unsent (h : (bayAt s b).defrost.state = .starting) (hw : startWaits s b) (f : FeederIx) :
    shed f b s = shedUnsent f b s := by
  unfold shed
  rw [h]
  exact if_pos ((startUnsent_iff s b).mpr hw)

theorem feederAt_placeStop (b : Bay) (s : State) (f : FeederIx) : feederAt (placeStop b s) f = feederAt s f := by
  simp only [feederAt, placeStop_arb]

/-- The START of an unsent bay is withdrawn and the bay leaves the active list, before its push. -/
def unsentWithdrawn (b : Bay) (s : State) : State := leaveActive b (placeStop b s)

theorem shedUnsent_room (h : (feederAt s f).stack.length < 8) (b : Bay) : shedUnsent f b s
    = owePass (modDefrost b (fun d => { d with state := .shed, reason := none, shedPending := false })
        (pushShed f b (unsentWithdrawn b s))) := if_pos (decide_eq_true h)

theorem shedUnsent_full (h : 8 ≤ (feederAt s f).stack.length) (b : Bay) :
    shedUnsent f b s = endEpisode b .abortedOverflow (refusePush f b (placeStop b s)) :=
  if_neg fun k => absurd (of_decide_eq_true k) (Nat.not_lt.mpr h)

theorem bayAt_shedUnsent_room (h : (feederAt s f).stack.length < 8) (b : Bay) : bayAt (shedUnsent f b s) b
    = { bayAt s b with defrost := { (bayAt s b).defrost with state := .shed, reason := none, shedPending := false } } := by
  have hbay : bayAt (pushShed f b (unsentWithdrawn b s)) b = bayAt s b := by
    rw [bayAt_congr (pushShed_bays f b _)]
    exact bayAt_congr (placeStop_bays b s) b
  rw [shedUnsent_room h, ← hbay]
  exact bayAt_modDefrost_same b (fun d => { d with state := .shed, reason := none, shedPending := false }) _

theorem bayAt_shedUnsent_full (h : 8 ≤ (feederAt s f).stack.length) (b : Bay) : bayAt (shedUnsent f b s) b
    = if (bayAt s b).occupancy = .departing then emptiedRecord (bayAt s b)
      else recordAfter s.run.settings.holdoff .abortedOverflow (bayAt s b) := by
  have hbay : bayAt (refusePush f b (placeStop b s)) b = bayAt s b := by
    rw [bayAt_congr (refusePush_bays f b _), bayAt_congr (placeStop_bays b s)]
  have hrun : (refusePush f b (placeStop b s)).run = s.run := ((placeStop_actsOn b _ s).trans (refusePush_actsOn f b _)).run
  rw [shedUnsent_full h, bayAt_endEpisode, hbay, hrun]

theorem bayAt_shedRunning (f : FeederIx) (b : Bay) (s : State) : bayAt (shedRunning f b s) b
    = stoppedRecord (if (feederAt s f).stack.length < 8 then .shed else .overflow) (bayAt s b) := by
  by_cases h : (feederAt s f).stack.length < 8
  · rw [if_pos h, shedRunning_room h, bayAt_stopEpisode, if_pos rfl, bayAt_congr (pushShed_bays f b s)]
  · rw [if_neg h, shedRunning_full (Nat.not_lt.mp h), bayAt_stopEpisode, if_pos rfl, bayAt_congr (refusePush_bays f b s)]

/-- A shed takes its bay off the admitted current (R112, R141). -/
theorem not_admittedOn_shed (h : admittedOn s f b) : ¬ admittedOn (shed f b s) f b := by
  have hstate {x : DefrostState} (hx : (bayAt (shed f b s) b).defrost.state = x) (h1 : x ≠ .active) (h2 : x ≠ .starting) :
      ¬ admittedOn (shed f b s) f b := fun k => by
    rw [admittedOn, hx] at k
    exact k.2.elim h1 fun k => h2 k.1
  rcases h.2 with ha | ⟨hs, -⟩
  · refine hstate (x := .stopping) ?_ nofun nofun
    rw [shed_of_active ha, bayAt_shedRunning]
    rfl
  · by_cases hw : startWaits s b
    · rw [shed_of_unsent hs hw] at hstate ⊢
      by_cases hroom : (feederAt s f).stack.length < 8
      · exact hstate (x := .shed) (by rw [bayAt_shedUnsent_room hroom]) nofun nofun
      · refine hstate (x := .idle) ?_ nofun nofun
        rw [bayAt_shedUnsent_full (Nat.not_lt.mp hroom)]
        split <;> rfl
    · rw [admittedOn, shed_of_sent hs hw, bayAt_modDefrost_same]
      rintro ⟨-, k | ⟨-, k⟩⟩
      · exact nomatch hs.symm.trans k
      · exact nomatch k

/-! ## The walk -/

theorem walkStep_cases (f : FeederIx) (s : State) (b : Bay) :
    (admitted s f ≤ (feederAt s f).budget ∧ walkStep f s b = s)
    ∨ ((feederAt s f).budget < admitted s f ∧ admittedOn s f b ∧ walkStep f s b = shed f b s)
    ∨ (¬ admittedOn s f b ∧ walkStep f s b = s) := by
  unfold walkStep
  dsimp only
  by_cases hfit : admitted s f ≤ (feederAt s f).budget
  · exact .inl ⟨hfit, if_pos hfit⟩
  · rw [if_neg hfit]
    by_cases ha : admittedOn s f b
    · exact .inr (.inl ⟨Nat.not_le.mp hfit, ha, if_pos (admittedOn_iff.mp ha)⟩)
    · exact .inr (.inr ⟨ha, if_neg fun k => ha (admittedOn_iff.mpr k)⟩)

theorem walk_idle (h : admitted s f ≤ (feederAt s f).budget) (l : List Bay) : l.foldl (walkStep f) s = s := by
  induction l with
  | nil => rfl
  | cons b l ih =>
    have hstep : walkStep f s b = s := by
      unfold walkStep
      dsimp only
      rw [if_pos h]
    rw [List.foldl_cons, hstep, ih]

/-- The walk changes the record of a bay it comes to, if that is admitted on the feeder. -/
theorem walk_record (l : List Bay) (s : State) (h : c ∉ l ∨ ¬ admittedOn s f c) :
    bayAt (l.foldl (walkStep f) s) c = bayAt s c := by
  induction l generalizing s with
  | nil => rfl
  | cons b l ih =>
    have hstep : bayAt (walkStep f s b) c = bayAt s c := by
      rcases walkStep_cases f s b with ⟨-, k⟩ | ⟨-, ha, k⟩ | ⟨-, k⟩ <;> rw [k]
      refine (shed_actsOn f b s).records c ?_
      rintro rfl
      exact h.elim (fun hc => hc List.mem_cons_self) fun hn => hn ha
    rw [List.foldl_cons, ih, hstep]
    exact h.imp (fun hc hl => hc (List.mem_cons_of_mem b hl)) fun hn => by rw [admittedOn_congr hstep]; exact hn

/-- The walk ends within the budget, or has left no bay of its list admitted. -/
theorem walk_ends (l : List Bay) (hl : l.Nodup) (s : State) : admitted (l.foldl (walkStep f) s) f ≤ (feederAt s f).budget
    ∨ ∀ b ∈ l, ¬ admittedOn (l.foldl (walkStep f) s) f b := by
  induction l generalizing s with
  | nil => exact .inr nofun
  | cons b l ih =>
    obtain ⟨hb, hl⟩ := List.nodup_cons.mp hl
    have hstep (hn : ¬ admittedOn (walkStep f s b) f b) : admitted (l.foldl (walkStep f) (walkStep f s b)) f ≤ (feederAt s f).budget
        ∨ ∀ c ∈ b :: l, ¬ admittedOn (l.foldl (walkStep f) (walkStep f s b)) f c := by
      have h := ih hl (walkStep f s b)
      rw [(walkStep_keeps f s b).budget] at h
      refine h.imp id fun hall c hc => ?_
      rcases List.mem_cons.mp hc with rfl | hc
      · rw [admittedOn_congr (walk_record l _ (.inl hb))]
        exact hn
      · exact hall c hc
    rw [List.foldl_cons]
    rcases walkStep_cases f s b with ⟨hfit, k⟩ | ⟨-, ha, k⟩ | ⟨hn, k⟩
    · rw [k, walk_idle hfit]
      exact .inl hfit
    · exact hstep (by rw [k]; exact not_admittedOn_shed ha)
    · exact hstep (by rw [k]; exact hn)

theorem admitted_of_none (h : ∀ b, ¬ admittedOn s f b) : admitted s f = 0 := by
  refine List.sum_eq_zero fun n hn => ?_
  obtain ⟨b, -, rfl⟩ := List.mem_map.mp hn
  exact if_neg fun k => h b (admittedOn_iff.mpr k)

end Sys2Proof.Machine

namespace Sys2Proof.Proofs

open Sys2Proof.Machine Sys2Proof.Claims

/-- Settles O51, by `walk_ends` on the whole active list and on its newer part. -/
theorem shedWalkTakesNewestFirst : Obligations.ShedWalkTakesNewestFirst := by
  intro s f hactive hnodup t
  have hbudget : (feederAt t f).budget = (feederAt s f).budget := (shedWalk_keeps f s).budget f
  have hkept (b : Bay) (hn : ¬ admittedOn s f b) : bayAt t b = bayAt s b := walk_record _ s (.inr hn)
  refine ⟨?_, hbudget, fun hfit => walk_idle hfit _, fun b hn => by rw [hkept b hn], fun older newer b hsplit ha hn c hc => ?_⟩
  · rw [hbudget]
    rcases walk_ends (f := f) s.arb.active.reverse (List.nodup_reverse.mpr hnodup) s with h | h
    · exact h
    · have hnone (b : Bay) : ¬ admittedOn t f b := by
        by_cases hb : admittedOn s f b
        · exact h b (List.mem_reverse.mpr (hactive b hb))
        · rw [admittedOn_congr (hkept b hb)]
          exact hb
      exact (admitted_of_none hnone).le.trans (Nat.zero_le _)
  · have ht : t = (b :: older.reverse).foldl (walkStep f) (newer.reverse.foldl (walkStep f) s) := by
      show s.arb.active.reverse.foldl (walkStep f) s = _
      rw [hsplit, List.reverse_append, List.reverse_cons, List.append_assoc, List.foldl_append]
      rfl
    rw [hsplit] at hnodup
    have hnewer : (b :: newer).Nodup := hnodup.of_append_right
    obtain ⟨hb, hnewer⟩ := List.nodup_cons.mp hnewer
    have hmid : bayAt (newer.reverse.foldl (walkStep f) s) b = bayAt s b :=
      walk_record _ s (.inl fun k => hb (List.mem_reverse.mp k))
    have hfull : ¬ admitted (newer.reverse.foldl (walkStep f) s) f ≤ (feederAt s f).budget := by
      intro hfit
      rw [ht, walk_idle (by rw [(Keeps.foldl (walkStep_keeps f) _ s).budget]; exact hfit), admittedOn_congr hmid] at hn
      exact hn ha
    have hnone := (walk_ends (f := f) newer.reverse (List.nodup_reverse.mpr hnewer) s).resolve_left hfull c
      (List.mem_reverse.mpr hc)
    rw [ht, admittedOn_congr (walk_record _ _ (.inr hnone))]
    exact hnone

end Sys2Proof.Proofs
end

section
/-! What an answered poll makes of an episode (O55). -/

namespace Sys2Proof.Machine

open Sys2Proof.Claims

variable {b c : Bay} {f g : FeederIx} {s t u w : State} {snap : Snapshot} {i : Instr}

/-! ## A stack whose top the pass cannot resume -/

/-- The bay on top of a feeder's stack cannot be resumed: it is not SHED, or it stands on that stack alone and does not fit
(R121). -/
structure TopHeld (f : FeederIx) (b : Bay) (s : State) : Prop where
  top : ∃ e rest, (feederAt s f).stack = e :: rest ∧ e.bay = b
  held : (bayAt s b).defrost.state ≠ .shed ∨ ((∀ g, g ≠ f → ∀ e ∈ (feederAt s g).stack, e.bay ≠ b)
    ∧ (feederAt s f).budget < committed s f + (bayAt s b).defrost.draw)

/-- What the pass leaves of a feeder whose top it cannot resume, and of the bay there. -/
structure HeldOver (f : FeederIx) (b : Bay) (s t : State) : Prop where
  same : SameFor b s t
  feeder : feederAt t f = feederAt s f
  rises : committed s f ≤ committed t f

theorem HeldOver.refl (f : FeederIx) (b : Bay) (s : State) : HeldOver f b s s := ⟨.refl b s, rfl, le_rfl⟩

theorem HeldOver.trans (h : HeldOver f b s t) (k : HeldOver f b t u) : HeldOver f b s u :=
  ⟨h.same.trans k.same, k.feeder.trans h.feeder, h.rises.trans k.rises⟩

theorem TopHeld.over (h : TopHeld f b s) (k : HeldOver f b s t) : TopHeld f b t := by
  refine ⟨by rw [k.feeder]; exact h.top, ?_⟩
  rw [k.same.record, k.feeder]
  refine h.held.imp id fun ⟨halone, hfull⟩ => ⟨fun g hg e he hb => ?_, lt_of_lt_of_le hfull (Nat.add_le_add_right k.rises _)⟩
  exact halone g hg e ((k.same.mem_stack g hb).mp he) hb

theorem committed_resumeTop {top : ShedEntry} {rest : List ShedEntry} (hstack : (feederAt s g).stack = top :: rest)
    (hshed : (bayAt s top.bay).defrost.state = .shed) (f : FeederIx) :
    committed s f ≤ committed (resumeTop g top.bay rest s) f := by
  have hothers : KeepsOthers top.bay s (resumeTop g top.bay rest s) := (resumeTop_actsOn hstack fun _ => False).records
  rw [committed_of_joined hothers (by rw [hshed]; rfl) (by rw [bayAt_resumeTop_same]; rfl)]
  exact Nat.le_add_right _ _

theorem heldOver_resumeFeeder (g : FeederIx) (n : Nat) (h : TopHeld f b s) : HeldOver f b s (resumeFeeder g n s) := by
  induction n generalizing s with
  | zero => exact .refl f b s
  | succ n ih =>
    rcases resumeFeeder_succ g n s with k | ⟨top, rest, hstack, hshed, hfit, k⟩ <;> rw [k]
    · exact .refl f b s
    · have hne : g ≠ f ∧ top.bay ≠ b := by
        have htop : g = f → top.bay = b := by
          rintro rfl
          obtain ⟨e, rest', hs, he⟩ := h.top
          rw [hstack] at hs
          obtain ⟨rfl, -⟩ := List.cons.inj hs
          exact he
        rcases h.held with hstate | ⟨halone, hfull⟩
        · have hb : top.bay ≠ b := fun hb => hstate (hb ▸ hshed)
          exact ⟨fun hg => hb (htop hg), hb⟩
        · have hg : g ≠ f := fun hg => by
            rw [htop hg, hg] at hfit
            omega
          exact ⟨hg, halone g hg top (by rw [hstack]; exact List.mem_cons_self)⟩
      have hstep : HeldOver f b s (resumeTop g top.bay rest s) :=
        ⟨sameFor_resumeTop hstack hne.2, by rw [feederAt_resumeTop, if_neg hne.1.symm], committed_resumeTop hstack hshed f⟩
      exact hstep.trans (ih (h.over hstep))

theorem heldOver_foldl (l : List FeederIx) (h : TopHeld f b s) :
    HeldOver f b s (l.foldl (fun s g => resumeFeeder g (feederAt s g).stack.length s) s) := by
  induction l generalizing s with
  | nil => exact .refl f b s
  | cons g l ih =>
    have hstep := heldOver_resumeFeeder g (feederAt s g).stack.length h
    exact hstep.trans (ih (h.over hstep))

theorem heldOver_resumeAll (h : TopHeld f b s) : HeldOver f b s (resumeAll s) := heldOver_foldl allFeeders h

theorem feederAt_grant (x : Bay) (ch : Charge) (s : State) (f : FeederIx) : feederAt (grant x ch s) f = feederAt s f := rfl

/-- The walk of the queue touches no feeder (R122 to R124). -/
theorem feederAt_walkQueue (l : List QueueEntry) (v : QueueWalk) (f : FeederIx) :
    feederAt (l.foldl walkEntry v).state f = feederAt v.state f := by
  induction l generalizing v with
  | nil => rfl
  | cons q l ih =>
    rw [List.foldl_cons, ih]
    rcases walkEntry_cases v q with h | ⟨g, -, -, -, -, h⟩ | ⟨-, -, h⟩ | ⟨g, -, -, -, -, h⟩ <;> rw [h]
    · rfl
    · rfl
    · exact feederAt_grant _ _ _ _
    · exact feederAt_grant _ _ _ _

theorem feederAt_grantQueue (s : State) (f : FeederIx) : feederAt (grantQueue s) f = feederAt s f := by
  rw [grantQueue_eq]
  exact feederAt_walkQueue s.arb.queue ⟨s, [], []⟩ f

theorem heldOver_grantPass (h : TopHeld f b s) (hq : ∀ q ∈ s.arb.queue, q.bay ≠ b) :
    SameFor b s (grantPass s) ∧ feederAt (grantPass s) f = feederAt s f := by
  have hresume := heldOver_resumeAll h
  have hgrant := sameFor_grantQueue (hresume.same.waits.mpr hq)
  exact ⟨hresume.same.trans hgrant, (feederAt_grantQueue (resumeAll s) f).trans hresume.feeder⟩

/-- The end of a change leaves a bay that waits in no queue and holds the top of a stack, and the stack. -/
theorem settle_topHeld (h : TopHeld f b s) (hq : ∀ q ∈ s.arb.queue, q.bay ≠ b) :
    Undisturbed b s (settle s) ∧ feederAt (settle s) f = feederAt s f := by
  have hpass : SameFor b s (runPass s) ∧ feederAt (runPass s) f = feederAt s f := by
    rcases runPass_cases s with ⟨-, e⟩ | ⟨-, -, e⟩ | ⟨-, -, e⟩ <;> rw [e]
    · exact ⟨.refl b s, rfl⟩
    · have hclear : TopHeld f b { s with passDue := false } := ⟨h.top, h.held⟩
      obtain ⟨hsame, hfeeder⟩ := heldOver_grantPass hclear hq
      have hkept : SameFor b s { s with passDue := false } := .of_eq rfl rfl rfl
      exact ⟨hkept.trans hsame, hfeeder⟩
    · exact ⟨.of_eq rfl rfl rfl, rfl⟩
  have harb : (settle s).arb = (runPass s).arb := by rw [settle, haltTest_arb, serveLoop_arb, endRound_arb]
  exact ⟨undisturbed_settle_of hpass.1, by rw [feederAt, harb]; exact hpass.2⟩

/-! ## The overflow flag -/

/-- A feeder's overflow flag stays. -/
def SameOverflow (s t : State) : Prop := ∀ f, (feederAt t f).overflow = (feederAt s f).overflow

theorem SameOverflow.trans (h : SameOverflow s t) (k : SameOverflow t u) : SameOverflow s u := fun f => (k f).trans (h f)

theorem sameOverflow_resumeFeeder (g : FeederIx) (n : Nat) (s : State) : SameOverflow s (resumeFeeder g n s) := by
  induction n generalizing s with
  | zero => exact fun _ => rfl
  | succ n ih =>
    rcases resumeFeeder_succ g n s with k | ⟨top, rest, -, -, -, k⟩ <;> rw [k]
    · exact fun _ => rfl
    · refine SameOverflow.trans (fun f => ?_) (ih _)
      rw [feederAt_resumeTop]
      split
      · next h => rw [h]
      · rfl

theorem sameOverflow_settle (s : State) : SameOverflow s (settle s) := by
  have hresume (u : State) : SameOverflow u (resumeAll u) :=
    foldl_rel (R := SameOverflow) (fun _ _ => rfl) (fun _ _ _ => SameOverflow.trans) (fun s g => sameOverflow_resumeFeeder g _ s)
      allFeeders u
  have harb : (settle s).arb = (runPass s).arb := by rw [settle, haltTest_arb, serveLoop_arb, endRound_arb]
  intro f
  rw [feederAt, harb]
  show (feederAt (runPass s) f).overflow = _
  rcases runPass_cases s with ⟨-, e⟩ | ⟨-, -, e⟩ | ⟨-, -, e⟩ <;> rw [e]
  · rw [grantPass, feederAt_grantQueue]
    exact hresume _ f
  · rfl

/-! ## The steps of a poll and its check -/

theorem shed_occupancy (f : FeederIx) (b : Bay) (s : State) :
    (bayAt (shed f b s) b).occupancy = (bayAt s b).occupancy ∨ (bayAt (shed f b s) b).occupancy = .vacant := by
  rcases shed_cases f b s with ⟨-, -, h⟩ | ⟨-, h⟩ | ⟨-, h⟩ | h <;> rw [h]
  · by_cases hroom : (feederAt s f).stack.length < 8
    · rw [bayAt_shedUnsent_room hroom]
      exact .inl rfl
    · rw [bayAt_shedUnsent_full (Nat.not_lt.mp hroom)]
      split
      · exact .inr rfl
      · exact .inl rfl
  · rw [bayAt_modDefrost_same]
    exact .inl rfl
  · rw [bayAt_shedRunning]
    exact .inl rfl
  · exact .inl rfl

theorem sourceStep_occupancy (b : Bay) (src : Source) (s : State) :
    (bayAt (sourceStep b src s) b).occupancy = (bayAt s b).occupancy ∨ (bayAt (sourceStep b src s) b).occupancy = .vacant := by
  rcases sourceStep_cases b src s with h | ⟨-, -, h⟩ | ⟨f, -, -, -, h⟩ <;> rw [h]
  · exact .inl rfl
  · rw [chargeToSelf, bayAt_congr (owePassIf_bays _ _), bayAt_modDefrost_same]
    exact .inl rfl
  · have hcharged : (bayAt (modDefrost b (fun d => { d with charge := .feeder f }) s) b).occupancy = (bayAt s b).occupancy := by
      rw [bayAt_modDefrost_same]
    rcases chargeToFeeder_cases b f s with k | k <;> rw [k]
    · exact .inl hcharged
    · rw [← hcharged]
      exact shed_occupancy f b _

/-- A DEPARTING bay is not checked (R45, R58). -/
theorem pollSteps_departing (h : (bayAt s b).occupancy = .departing) (snap : Snapshot) :
    (bayAt (pollSteps b snap s) b).occupancy ≠ .parked := by
  by_cases hm : endsByMode (bayAt s b) snap.mode
  · rw [record_pollSteps_emptied h hm]
    nofun
  · have hmode : modeStep b snap.mode (pollNoted b snap s) = pollNoted b snap s :=
      modeStep_of_not (by rw [bayAt_pollNoted]; exact hm)
    have hsteps : pollSteps b snap s = sourceStep b snap.source (pollNoted b snap s) := congrArg (sourceStep b snap.source) hmode
    have hocc : (bayAt (pollNoted b snap s) b).occupancy = .departing := by
      rw [bayAt_pollNoted, answeredRecord, h]
      rfl
    rw [hsteps]
    rcases sourceStep_occupancy b snap.source (pollNoted b snap s) with k | k <;> rw [k]
    · rw [hocc]
      nofun
    · nofun

/-- The state after the steps of a poll that is ending. -/
def polledState (b : Bay) (snap : Snapshot) (s : State) : State := pollSteps b snap (pollGap b snap s)

theorem pollTaken_of_departing (h : (bayAt s b).occupancy = .departing) (snap : Snapshot) :
    pollTaken b snap s = polledState b snap s :=
  pollTaken_unchecked fun k => pollSteps_departing (s := pollGap b snap s) h snap k.1

theorem pollTaken_cases (hw : awaits s b .poll false) (hi : endsWith ⟨b, .poll, .awaiting, false⟩ (.telemetry snap) i)
    (hp : isPolled s b) : pollTaken b snap s = polledState b snap s
      ∨ (checkedBy s b snap i ∧ pollTaken b snap s = demandTested b (checkStages b snap (polledState b snap s))) := by
  by_cases hd : (bayAt s b).occupancy = .departing
  · exact .inl (pollTaken_of_departing hd snap)
  · by_cases hr : s.run.state = .running
    · have hocc : (bayAt s b).occupancy = .arriving ∨ (bayAt s b).occupancy = .parked := by tauto
      have hstarts : startsCheck (polledState b snap s) b = true := by
        obtain ⟨d, hsteps⟩ := record_polled ⟨hw, hi, hocc, hr⟩
        rw [startsCheck, polledState, hsteps, Bool.and_eq_true, isRunning_iff, pollSteps_run]
        exact ⟨decide_eq_true (polledRecord_occupancy hocc snap), hr⟩
      exact .inr ⟨⟨hw, hi, hocc, hr⟩, if_pos hstarts⟩
    · exact .inl (pollTaken_unchecked fun k => hr k.2)

/-- What a check does after the steps of a poll concerns the bay alone, and loses no raise. -/
theorem pollTaken_after (b : Bay) (snap : Snapshot) (s : State) :
    KeepsOthers b (polledState b snap s) (pollTaken b snap s) ∧ Keeps (polledState b snap s) (pollTaken b snap s) := by
  have h : pollTaken b snap s = if startsCheck (polledState b snap s) b then check b snap (polledState b snap s)
    else polledState b snap s := rfl
  rw [h]
  split
  · exact ⟨check_others b snap _, check_keeps b snap _⟩
  · exact ⟨.refl b _, .refl _⟩

theorem raised_pollTaken {x : Category} {e : Element} (h : e ∈ (catAt (polledState b snap s).alert x).pending) :
    e ∈ (catAt (settle (pollTaken b snap s)).alert x).pending := by
  rw [settle_alert]
  exact (pollTaken_after b snap s).2.raised x e h

section
variable (hw : awaits s b .poll false) (hi : endsWith ⟨b, .poll, .awaiting, false⟩ (.telemetry snap) i) (hp : isPolled s b)
include hw hi hp

/-- Where the poll leaves an episode going, and the check opens no door on it, the rest of the change leaves the business. -/
theorem pollTaken_keeps (hidle : (bayAt (polledState b snap s) b).defrost.state ≠ .idle)
    (hquiet : ((bayAt (settle (pollTaken b snap s)) b).door.confirmed = .opened → (bayAt s b).door.confirmed = .opened)
      ∨ (bayAt (polledState b snap s) b).defrost.state = .hung) :
    KeepsBusiness b (polledState b snap s) (pollTaken b snap s) := by
  rcases pollTaken_cases hw hi hp with h | ⟨hchecked, h⟩
  · rw [h]
    exact ⟨rfl, rfl, rfl, rfl, rfl, rfl⟩
  · have hnext : settle (pollTaken b snap s) = checkedNext b snap s := by rw [h]; rfl
    obtain ⟨d, hd⟩ := record_polled hchecked
    have hdoor : (bayAt (polledState b snap s) b).door = (bayAt s b).door := by rw [polledState, hd]; rfl
    have hstages : KeepsBusiness b (polledState b snap s) (checkStages b snap (polledState b snap s)) := by
      refine checkStages_quiet (hquiet.imp (fun k => ?_) .inr)
      rw [hnext, door_checkedNext hchecked] at k
      rw [hdoor]
      exact k
    have htest : demandTest (checkStages b snap (polledState b snap s)) b = false :=
      Bool.eq_false_iff.mpr fun k => hidle (hstages.defrost ▸ ((demandTest_iff _ b).mp k).2.1)
    rw [h, demandTested, htest]
    exact hstages

/-- After the end of an episode the demand test may queue the bay, and the pass grant it; the end's marks stay. -/
theorem ended_pollTaken (hidle : (bayAt (polledState b snap s) b).defrost.state = .idle) :
    ((bayAt (pollTaken b snap s) b).defrost = (bayAt (polledState b snap s) b).defrost
      ∨ (bayAt (pollTaken b snap s) b).defrost
        = { (bayAt (polledState b snap s) b).defrost with state := .queued, origin := some .estimate })
    ∧ ∀ f, feederAt (pollTaken b snap s) f = feederAt (polledState b snap s) f := by
  rcases pollTaken_cases hw hi hp with h | ⟨-, h⟩ <;> rw [h]
  · exact ⟨.inl rfl, fun _ => rfl⟩
  · have hstages := checkStages_quiet (s := polledState b snap s) (snap := snap) (.inr (.inl hidle))
    have hfeeder (f : FeederIx) : feederAt (checkStages b snap (polledState b snap s)) f = feederAt (polledState b snap s) f := by
      simp only [feederAt, hstages.arb]
    unfold demandTested
    split
    · rw [bayAt_joinQueue, hstages.defrost]
      exact ⟨.inr rfl, hfeeder⟩
    · exact ⟨.inl hstages.defrost, hfeeder⟩

end

/-- What stays of an ended episode while a new demand may follow (R131, R139). -/
structure EndKept (d e : Defrost) : Prop where
  outcome : e.outcome = d.outcome
  count : e.count = d.count
  holdoff : e.holdoff = d.holdoff
  reason : e.reason = none
  state : e.state = .idle ∨ e.state = .queued ∨ e.state = .starting

theorem endKept_settled (hw : awaits s b .poll false) (hi : endsWith ⟨b, .poll, .awaiting, false⟩ (.telemetry snap) i)
    (hp : isPolled s b) (hidle : (bayAt (polledState b snap s) b).defrost.state = .idle)
    (hreason : (bayAt (polledState b snap s) b).defrost.reason = none) :
    EndKept (bayAt (polledState b snap s) b).defrost (bayAt (settle (pollTaken b snap s)) b).defrost := by
  obtain ⟨htaken, -⟩ := ended_pollTaken hw hi hp hidle
  have hkept : EndKept (bayAt (polledState b snap s) b).defrost (bayAt (pollTaken b snap s) b).defrost := by
    rcases htaken with k | k <;> rw [k]
    · exact ⟨rfl, rfl, rfl, hreason, .inl hidle⟩
    · exact ⟨rfl, rfl, rfl, hreason, .inr (.inl rfl)⟩
  rcases settle_defrost (pollTaken b snap s) b with k | ⟨-, k⟩
  · rw [k]
    exact hkept
  · exact ⟨k.outcome.trans hkept.outcome, k.count.trans hkept.count, k.holdoff.trans hkept.holdoff, k.reason, .inr (.inr k.state)⟩

/-- The poll's mode ends the episode of a bay that is not DEPARTING. -/
theorem defrost_polled_ended {o : DefrostOutcome} (ho : (bayAt s b).occupancy ≠ .departing)
    (h : modeStep b snap.mode (pollNoted b snap (pollGap b snap s)) = endEpisode b o (pollNoted b snap (pollGap b snap s))) :
    (bayAt (polledState b snap s) b).defrost = afterOutcome s.run.settings.holdoff o (bayAt s b).defrost := by
  have hnoted := bayAt_pollNoted b snap (pollGap b snap s)
  have hocc : (bayAt (pollNoted b snap (pollGap b snap s)) b).occupancy ≠ .departing := by
    rw [hnoted, answeredRecord]
    show (if (bayAt s b).occupancy = .arriving then _ else (bayAt s b).occupancy) ≠ _
    split
    · nofun
    · exact ho
  have hrun : (pollNoted b snap (pollGap b snap s)).run = s.run := by rw [pollNoted, owePassIf_eq]; rfl
  have hended := record_endEpisode hocc o
  have hsource : polledState b snap s = endEpisode b o (pollNoted b snap (pollGap b snap s)) := by
    have hidle : sourceStep b snap.source (endEpisode b o (pollNoted b snap (pollGap b snap s)))
        = endEpisode b o (pollNoted b snap (pollGap b snap s)) := by
      refine sourceStep_of_not_moves fun k => ?_
      rw [moves, hended] at k
      rcases k with ⟨k | k | k | ⟨k, -⟩, -⟩ <;> cases k
    rw [← hidle, ← h]
    rfl
  rw [hsource, hended, hnoted, hrun]
  rfl

/-! ## The charge follows the run source (R148) -/

/-- The charge is moved to a feeder. -/
def chargedTo (f : FeederIx) (b : Bay) (s : State) : State := modDefrost b (fun d => { d with charge := .feeder f }) s

theorem bayAt_chargedTo (f : FeederIx) (b : Bay) (s : State) : bayAt (chargedTo f b s) b
    = { bayAt s b with defrost := { (bayAt s b).defrost with charge := .feeder f } } :=
  bayAt_modDefrost_same b (fun d => { d with charge := .feeder f }) s

theorem chargeFollows_of_moves (h : moves s b snap) : chargeFollows s b = true := by
  unfold chargeFollows
  rcases h.1 with k | k | k | ⟨k, hs⟩ <;> rw [k]
  show (!onStack s b) = true
  rw [Bool.not_eq_true', Bool.eq_false_iff, ne_eq, onStack_iff]
  exact hs

theorem sourceStep_diesel (h : moves s b snap) (hsrc : snap.source = .diesel) :
    sourceStep b snap.source s = chargeToSelf b s := by
  obtain ⟨f, hc⟩ : ∃ f : FeederIx, (bayAt s b).defrost.charge = .feeder f := by
    rcases h.2 with ⟨-, k⟩ | ⟨k, -⟩
    · exact k
    · exact nomatch hsrc.symm.trans k
  unfold sourceStep
  rw [if_pos (chargeFollows_of_moves h), hsrc, hc]

theorem sourceStep_shore (h : moves s b snap) (hsrc : snap.source = .shore) (hf : (bayAt s b).feeder = some f) :
    sourceStep b snap.source s = chargeToFeeder b f s := by
  have hc : (bayAt s b).defrost.charge = .self := by
    rcases h.2 with ⟨k, -⟩ | ⟨-, k, -⟩
    · exact nomatch hsrc.symm.trans k
    · exact k
  unfold sourceStep
  rw [if_pos (chargeFollows_of_moves h), hsrc, hc]
  dsimp only
  rw [hf]

theorem chargeToFeeder_kept (h : committed s f + (bayAt s b).defrost.draw ≤ (feederAt s f).budget
    ∨ (bayAt s b).defrost.state = .stopping ∨ (bayAt s b).defrost.state = .hung) : chargeToFeeder b f s = chargedTo f b s := by
  have hfit {x : DefrostState} (hs : (bayAt s b).defrost.state = x) (h1 : x ≠ .stopping) (h2 : x ≠ .hung) :
      decide (committed s f + (bayAt s b).defrost.draw ≤ (feederAt s f).budget) = true :=
    decide_eq_true (h.resolve_right fun k => k.elim (fun k => h1 (hs.symm.trans k)) fun k => h2 (hs.symm.trans k))
  unfold chargeToFeeder
  dsimp only
  split
  · next hs =>
    rw [if_pos (hfit hs nofun nofun)]
    rfl
  · next hs =>
    rw [if_pos (hfit hs nofun nofun)]
    rfl
  · rfl

theorem chargeToFeeder_shed (h : ¬ committed s f + (bayAt s b).defrost.draw ≤ (feederAt s f).budget)
    (hs : (bayAt s b).defrost.state = .starting ∨ (bayAt s b).defrost.state = .active) :
    chargeToFeeder b f s = shed f b (chargedTo f b s) := by
  have hfull : ¬ decide (committed s f + (bayAt s b).defrost.draw ≤ (feederAt s f).budget) = true :=
    fun k => h (of_decide_eq_true k)
  unfold chargeToFeeder
  dsimp only
  split
  · rw [if_neg hfull]
    rfl
  · rw [if_neg hfull]
    rfl
  · next h1 h2 => exact (hs.elim h1 h2).elim

theorem bayAt_chargeToSelf (b : Bay) (s : State) : bayAt (chargeToSelf b s) b
    = { bayAt s b with defrost := { (bayAt s b).defrost with charge := .self, shedPending := false } } := by
  rw [chargeToSelf, bayAt_congr (owePassIf_bays _ _), bayAt_modDefrost_same]

theorem chargeToSelf_arb (b : Bay) (s : State) : (chargeToSelf b s).arb = s.arb := by
  rw [chargeToSelf, owePassIf_eq]
  rfl

/-- The charge of a HUNG bay follows the run source and nothing else of it changes but shed-pending (R148). -/
theorem sourceStep_of_hung (h : (bayAt s b).defrost.state = .hung) (src : Source) : ∃ x p,
    (bayAt (sourceStep b src s) b).defrost = { (bayAt s b).defrost with charge := x, shedPending := p }
    ∧ (sourceStep b src s).arb = s.arb := by
  rcases sourceStep_cases b src s with k | ⟨-, -, k⟩ | ⟨f, -, -, -, k⟩ <;> rw [k]
  · exact ⟨_, _, rfl, rfl⟩
  · rw [bayAt_chargeToSelf, chargeToSelf_arb]
    exact ⟨.self, false, rfl, rfl⟩
  · rw [chargeToFeeder_kept (.inr (.inr h)), bayAt_chargedTo]
    exact ⟨.feeder f, _, rfl, rfl⟩

/-! ## Pushes -/

theorem pushShed_arb (f : FeederIx) (b : Bay) (s : State) :
    (pushShed f b s).arb = { s.arb with feeders := (pushShed f b s).arb.feeders } := by
  unfold pushShed
  dsimp only
  split <;> rfl

theorem feederAt_pushShed_ne (h : g ≠ f) (b : Bay) (s : State) : feederAt (pushShed f b s) g = feederAt s g := by
  unfold pushShed
  dsimp only
  split
  · exact (feederAt_setFeeder f g _ s).trans (if_neg h)
  · exact (feederAt_setFeeder f g _ s).trans (if_neg h)

theorem feederAt_unsentWithdrawn (b : Bay) (s : State) (f : FeederIx) : feederAt (unsentWithdrawn b s) f = feederAt s f :=
  feederAt_placeStop b s f

/-- The collections after the shed of an unsent START that finds room (R141). -/
theorem shedUnsent_room_arb (h : (feederAt s f).stack.length < 8) (b : Bay) :
    (shedUnsent f b s).arb.queue = s.arb.queue ∧ b ∉ (shedUnsent f b s).arb.active
    ∧ (feederAt (shedUnsent f b s) f).stack = ⟨b, none⟩ :: (feederAt s f).stack
    ∧ ∀ g, g ≠ f → feederAt (shedUnsent f b s) g = feederAt s g := by
  rw [shedUnsent_room h]
  have harb := pushShed_arb f b (unsentWithdrawn b s)
  have hwithdrawn : (unsentWithdrawn b s).arb = { s.arb with active := s.arb.active.filter fun x => decide (x ≠ b) } := by
    have h : (unsentWithdrawn b s).arb
        = { (placeStop b s).arb with active := (placeStop b s).arb.active.filter fun x => decide (x ≠ b) } := rfl
    rw [h, placeStop_arb]
  refine ⟨?_, ?_, ?_, fun g hg => ?_⟩
  · show (pushShed f b (unsentWithdrawn b s)).arb.queue = _
    rw [harb, hwithdrawn]
  · show b ∉ (pushShed f b (unsentWithdrawn b s)).arb.active
    rw [harb, hwithdrawn]
    simp
  · show (feederAt (pushShed f b (unsentWithdrawn b s)) f).stack = _
    rw [feederAt_pushShed, feederAt_unsentWithdrawn]
  · show feederAt (pushShed f b (unsentWithdrawn b s)) g = _
    rw [feederAt_pushShed_ne hg, feederAt_unsentWithdrawn]

/-- A bay shed as its charge moves to a feeder where it does not fit holds the top of that stack (R121). -/
theorem topHeld_shedUnsent (hroom : (feederAt s f).stack.length < 8) (hself : (bayAt s b).defrost.charge = .self)
    (hfull : (feederAt s f).budget < committed s f + (bayAt s b).defrost.draw) (hstack : ¬ onAStack s b) :
    TopHeld f b (shedUnsent f b (chargedTo f b s)) := by
  have hcharged (g : FeederIx) : feederAt (chargedTo f b s) g = feederAt s g := rfl
  have hroom' : (feederAt (chargedTo f b s) f).stack.length < 8 := hroom
  obtain ⟨-, -, hpushed, hrest⟩ := shedUnsent_room_arb hroom' b
  have hrecord := bayAt_shedUnsent_room hroom' b
  rw [bayAt_chargedTo] at hrecord
  have hothers : KeepsOthers b s (shedUnsent f b (chargedTo f b s)) :=
    (modDefrost_others b _ s).trans (shedUnsent_others f b _)
  have hcommitted : committed (shedUnsent f b (chargedTo f b s)) f = committed s f := by
    have h := committed_of_others hothers f
    have h0 : committedDraw f (bayAt s b).defrost = 0 := if_neg fun k => by rw [hself] at k; exact nomatch k.1
    have h1 : committedDraw f (bayAt (shedUnsent f b (chargedTo f b s)) b).defrost = 0 :=
      if_neg fun k => by rw [hrecord] at k; exact nomatch k.2
    omega
  have hbudget : (feederAt (shedUnsent f b (chargedTo f b s)) f).budget = (feederAt s f).budget :=
    (shedUnsent_keeps f b _).budget f
  refine ⟨⟨_, _, hpushed, rfl⟩, .inr ⟨fun g hg e he hb => hstack ⟨g, e, ?_, hb⟩, ?_⟩⟩
  · rw [hrest g hg] at he
    exact he
  · rw [hcommitted, hbudget, hrecord]
    exact hfull

/-! ## A poll that leaves the episode going -/

/-- The state after an answered poll's record is written, the mode leaving the episode: what the source step acts on. -/
structure PollNoted (b : Bay) (snap : Snapshot) (s v : State) : Prop where
  record : bayAt v b = answeredRecord snap (bayAt s b)
  others : KeepsOthers b s v
  arb : v.arb = s.arb
  orders : v.loop.orders = s.loop.orders
  run : v.run = s.run

theorem PollNoted.feederAt (h : PollNoted b snap s u) (f : FeederIx) : feederAt u f = feederAt s f := by
  simp only [Machine.feederAt, h.arb]

theorem PollNoted.committed (h : PollNoted b snap s u) (f : FeederIx) : committed u f = committed s f := by
  refine committed_congr (fun c => ?_) f
  by_cases hc : c = b
  · rw [hc, h.record]
    rfl
  · rw [h.others c hc]

theorem PollNoted.startWaits (h : PollNoted b snap s u) : startWaits u b ↔ startWaits s b := by
  unfold Claims.startWaits
  rw [h.orders]

theorem PollNoted.moves (h : PollNoted b snap s u) : moves u b snap ↔ moves s b snap := by
  unfold Claims.moves Claims.onAStack
  rw [h.record]
  simp only [h.feederAt]
  exact .rfl

/-- Where the mode ends nothing, the poll's steps are its source step. -/
theorem polledState_noted (hm : ¬ endsByMode (bayAt s b) snap.mode) :
    ∃ v, PollNoted b snap s v ∧ polledState b snap s = sourceStep b snap.source v := by
  refine ⟨pollNoted b snap (pollGap b snap s), ⟨bayAt_pollNoted b snap _, fun c hc => ?_, pollNoted_arb b snap _, ?_, ?_⟩, ?_⟩
  · exact ((modBay_actsOn b (fun _ => False) (answeredRecord snap) (pollGap b snap s)).trans
      (owePassIf_actsOn b _ _ _)).records c hc
  · rw [pollNoted_loop]
    rfl
  · rw [pollNoted, owePassIf_eq]
    rfl
  · have hmode : modeStep b snap.mode (pollNoted b snap (pollGap b snap s)) = pollNoted b snap (pollGap b snap s) :=
      modeStep_of_not (by rw [bayAt_pollNoted]; exact hm)
    exact congrArg (sourceStep b snap.source) hmode

theorem defrost_loseDoorOf (r : BayRecord) : (loseDoorOf r).defrost = r.defrost := rfl

/-- The bay's defrost record after a change of its business that the rest of the poll's change leaves. -/
theorem settled_taken (k : KeepsBusiness b (polledState b snap s) (pollTaken b snap s))
    (hq : ∀ q ∈ (polledState b snap s).arb.queue, q.bay ≠ b) (hs : (bayAt (polledState b snap s) b).defrost.state ≠ .shed) :
    (bayAt (settle (pollTaken b snap s)) b).defrost = (bayAt (polledState b snap s) b).defrost
    ∧ Undisturbed b (pollTaken b snap s) (settle (pollTaken b snap s)) := by
  have hnopass : NoPassFor (pollTaken b snap s) b := .inr (.inr ⟨by rw [k.arb]; exact hq, .inl (by rw [k.defrost]; exact hs)⟩)
  exact ⟨(settle_kept hnopass).trans k.defrost, undisturbed_settle hnopass⟩

/-- The same for a bay that holds the top of a stack, with the stack. -/
theorem settled_taken_held (k : KeepsBusiness b (polledState b snap s) (pollTaken b snap s))
    (hq : ∀ q ∈ (polledState b snap s).arb.queue, q.bay ≠ b) (h : TopHeld f b (polledState b snap s)) :
    (bayAt (settle (pollTaken b snap s)) b).defrost = (bayAt (polledState b snap s) b).defrost
    ∧ feederAt (settle (pollTaken b snap s)) f = feederAt (polledState b snap s) f
    ∧ Undisturbed b (pollTaken b snap s) (settle (pollTaken b snap s)) := by
  have hfeeder (g : FeederIx) : feederAt (pollTaken b snap s) g = feederAt (polledState b snap s) g := by
    simp only [feederAt, k.arb]
  have hcommitted : committed (pollTaken b snap s) f = committed (polledState b snap s) f := by
    refine committed_congr (fun c => ?_) f
    by_cases hc : c = b
    · rw [hc, k.defrost]
    · rw [(pollTaken_after b snap s).1 c hc]
  have htaken : TopHeld f b (pollTaken b snap s) := by
    refine ⟨by rw [hfeeder]; exact h.top, ?_⟩
    rw [k.defrost, hfeeder, hcommitted]
    simp only [hfeeder]
    exact h.held
  obtain ⟨hsettled, hstack⟩ := settle_topHeld htaken (by rw [k.arb]; exact hq)
  refine ⟨Eq.trans ?_ k.defrost, hstack.trans (hfeeder f), hsettled⟩
  rcases hsettled.record with e | e <;> rw [e]
  exact defrost_loseDoorOf _

end Sys2Proof.Machine

namespace Sys2Proof.Proofs

open Sys2Proof.Machine Sys2Proof.Claims

/-- The bay's state once its SELF charge has been moved to a feeder, before its shed. -/
structure ChargeMoved (b : Bay) (snap : Snapshot) (f : FeederIx) (s u : State) : Prop where
  record : bayAt u b = { answeredRecord snap (bayAt s b) with defrost := { (bayAt s b).defrost with charge := .feeder f } }
  arb : u.arb = s.arb
  waits : startWaits u b ↔ startWaits s b

theorem chargeMoved {s v : State} {b : Bay} {snap : Snapshot} (hv : PollNoted b snap s v) (f : FeederIx) :
    ChargeMoved b snap f s (chargedTo f b v) := by
  refine ⟨?_, hv.arb, hv.startWaits⟩
  rw [bayAt_chargedTo, hv.record]
  rfl

section
variable {s u v : State} {b : Bay} {snap : Snapshot} {i : Instr} {f : FeederIx}

theorem ChargeMoved.feederAt (h : ChargeMoved b snap f s u) (g : FeederIx) : feederAt u g = feederAt s g := by
  simp only [Machine.feederAt, h.arb]

theorem ChargeMoved.state (h : ChargeMoved b snap f s u) : (bayAt u b).defrost.state = (bayAt s b).defrost.state := by
  rw [h.record]

theorem ChargeMoved.departing (h : ChargeMoved b snap f s u) :
    (bayAt u b).occupancy = .departing ↔ (bayAt s b).occupancy = .departing := by
  rw [h.record, answeredRecord]
  show (if (bayAt s b).occupancy = .arriving then _ else (bayAt s b).occupancy) = _ ↔ _
  split
  · next k =>
    rw [k]
    exact ⟨nofun, nofun⟩
  · rfl

variable (hw : awaits s b .poll false) (hi : endsWith ⟨b, .poll, .awaiting, false⟩ (.telemetry snap) i) (hp : isPolled s b)
  (hu : ChargeMoved b snap f s u) (hsteps : polledState b snap s = shed f b u)
include hw hi hp hu hsteps

/-- A START already sent: the shed waits for its answer (R141). -/
theorem sent_shed_by_poll (hq : ∀ q ∈ s.arb.queue, q.bay ≠ b)
    (hdoor : (bayAt (settle (pollTaken b snap s)) b).door.confirmed = .opened → (bayAt s b).door.confirmed = .opened)
    (hs : (bayAt s b).defrost.state = .starting) (hsent : ¬ startWaits s b) : (bayAt (settle (pollTaken b snap s)) b).defrost
      = { (bayAt s b).defrost with charge := .feeder f, shedPending := true } := by
  rw [shed_of_sent (hu.state.trans hs) fun k => hsent (hu.waits.mp k)] at hsteps
  have hpolled : (bayAt (polledState b snap s) b).defrost
      = { (bayAt s b).defrost with charge := .feeder f, shedPending := true } := by
    rw [hsteps, bayAt_modDefrost_same, hu.record]
  have hqueue : (polledState b snap s).arb.queue = s.arb.queue := by
    rw [hsteps]
    exact congrArg Arbiter.queue hu.arb
  have hkeeps := pollTaken_keeps hw hi hp (by rw [hpolled]; exact fun k => nomatch hs.symm.trans k) (.inl hdoor)
  rw [(settled_taken hkeeps (by rw [hqueue]; exact hq) (by rw [hpolled]; exact fun k => nomatch hs.symm.trans k)).1, hpolled]

/-- A START withdrawn: the bay is SHED on top of the stack it does not fit, so the pass leaves it there (R121, R141). -/
theorem unsent_shed_by_poll (hq : ∀ q ∈ s.arb.queue, q.bay ≠ b)
    (hdoor : (bayAt (settle (pollTaken b snap s)) b).door.confirmed = .opened → (bayAt s b).door.confirmed = .opened)
    (hs : (bayAt s b).defrost.state = .starting) (hunsent : startWaits s b) (hroom : (feederAt s f).stack.length < 8)
    (hheld : TopHeld f b (shedUnsent f b u)) :
    (bayAt (settle (pollTaken b snap s)) b).defrost
      = { (bayAt s b).defrost with charge := .feeder f, state := .shed, reason := none, shedPending := false }
    ∧ (feederAt (settle (pollTaken b snap s)) f).stack = ⟨b, none⟩ :: (feederAt s f).stack
    ∧ b ∉ (settle (pollTaken b snap s)).arb.active := by
  have hroom' : (feederAt u f).stack.length < 8 := by rw [hu.feederAt]; exact hroom
  rw [shed_of_unsent (hu.state.trans hs) (hu.waits.mpr hunsent)] at hsteps
  have hpolled : (bayAt (polledState b snap s) b).defrost
      = { (bayAt s b).defrost with charge := .feeder f, state := .shed, reason := none, shedPending := false } := by
    rw [hsteps, bayAt_shedUnsent_room hroom', hu.record]
  obtain ⟨hqueue, hactive, hpushed, -⟩ := shedUnsent_room_arb hroom' b
  rw [← hsteps, hu.arb] at hqueue
  rw [← hsteps] at hactive
  rw [← hsteps, hu.feederAt] at hpushed
  rw [← hsteps] at hheld
  have hkeeps := pollTaken_keeps hw hi hp (by rw [hpolled]; nofun) (.inl hdoor)
  obtain ⟨h1, h2, h3⟩ := settled_taken_held hkeeps (by rw [hqueue]; exact hq) hheld
  exact ⟨h1.trans hpolled, by rw [h2, hpushed], fun k => hactive (hkeeps.arb ▸ h3.active.mp k)⟩

/-- A START withdrawn and the stack full: the episode ends ABORTED-OVERFLOW (R142). -/
theorem unsent_overflow_by_poll (hs : (bayAt s b).defrost.state = .starting) (hunsent : startWaits s b)
    (hno : 8 ≤ (feederAt s f).stack.length) :
    ((bayAt s b).occupancy ≠ .departing → (bayAt (settle (pollTaken b snap s)) b).defrost.outcome = some .abortedOverflow)
    ∧ ((bayAt s b).occupancy = .departing → bayAt (settle (pollTaken b snap s)) b = emptiedRecord (bayAt s b))
    ∧ (feederAt (settle (pollTaken b snap s)) f).overflow = true
    ∧ b.succ ∈ (catAt (settle (pollTaken b snap s)).alert .power).pending := by
  have hno' : 8 ≤ (feederAt u f).stack.length := by rw [hu.feederAt]; exact hno
  rw [shed_of_unsent (hu.state.trans hs) (hu.waits.mpr hunsent)] at hsteps
  have hbay := bayAt_shedUnsent_full hno' b
  rw [← hsteps] at hbay
  rw [shedUnsent_full hno'] at hsteps
  have hidle : (bayAt (polledState b snap s) b).defrost.state = .idle ∧ (bayAt (polledState b snap s) b).defrost.reason = none := by
    rw [hbay]
    split <;> exact ⟨rfl, rfl⟩
  have hflag : (feederAt (polledState b snap s) f).overflow = true := by
    rw [hsteps, feederAt, endEpisode_arb]
    show (feederAt (leaveStacks b _) f).overflow = true
    rw [feederAt_leaveStacks]
    exact congrArg Feeder.overflow (feederAt_refusePush f b _)
  refine ⟨fun hd => ?_, fun hd => ?_, ?_, raised_pollTaken ?_⟩
  · rw [(endKept_settled hw hi hp hidle.1 hidle.2).outcome, hbay, if_neg fun k => hd (hu.departing.mp k)]
    rfl
  · rw [pollTaken_of_departing hd]
    refine settle_emptied ?_
    rw [hbay, if_pos (hu.departing.mpr hd), hu.record]
    rfl
  · rw [sameOverflow_settle, (ended_pollTaken hw hi hp hidle.1).2, hflag]
  · rw [hsteps]
    exact (endEpisode_keeps b _ _).raised _ _ (refusePush_power f b _)

/-- An ACTIVE bay is pushed and stopped with reason SHED, and its entry waits for STOPPED (R141). -/
theorem active_shed_by_poll (hq : ∀ q ∈ s.arb.queue, q.bay ≠ b)
    (hdoor : (bayAt (settle (pollTaken b snap s)) b).door.confirmed = .opened → (bayAt s b).door.confirmed = .opened)
    (ha : (bayAt s b).defrost.state = .active) (hroom : (feederAt s f).stack.length < 8) :
    (bayAt (settle (pollTaken b snap s)) b).defrost
      = { (bayAt s b).defrost with charge := .feeder f, state := .stopping, reason := some .shed, shedPending := false }
    ∧ (feederAt (settle (pollTaken b snap s)) f).stack = ⟨b, none⟩ :: (feederAt s f).stack
    ∧ b ∉ (settle (pollTaken b snap s)).arb.active ∧ (noOrder s b → stopOnItsWay (settle (pollTaken b snap s)) b) := by
  have hroom' : (feederAt u f).stack.length < 8 := by rw [hu.feederAt]; exact hroom
  rw [shed_of_active (hu.state.trans ha)] at hsteps
  have hpolled : (bayAt (polledState b snap s) b).defrost
      = { (bayAt s b).defrost with charge := .feeder f, state := .stopping, reason := some .shed, shedPending := false } := by
    rw [hsteps, bayAt_shedRunning, if_pos hroom', hu.record]
    rfl
  rw [shedRunning_room hroom'] at hsteps
  have hpushed : (feederAt (polledState b snap s) f).stack = ⟨b, none⟩ :: (feederAt s f).stack := by
    rw [hsteps, feederAt_stopEpisode, feederAt_pushShed, hu.feederAt]
  have hpolledArb : (polledState b snap s).arb.queue = s.arb.queue ∧ b ∉ (polledState b snap s).arb.active := by
    rw [hsteps, stopEpisode_arb, pushShed_arb, hu.arb]
    exact ⟨rfl, by simp⟩
  have hkeeps := pollTaken_keeps hw hi hp (by rw [hpolled]; nofun) (.inl hdoor)
  obtain ⟨h1, h2, h3⟩ := settled_taken_held hkeeps (by rw [hpolledArb.1]; exact hq)
    ⟨⟨_, _, hpushed, rfl⟩, .inl (by rw [hpolled]; nofun)⟩
  refine ⟨h1.trans hpolled, by rw [h2, hpushed], fun k => hpolledArb.2 (hkeeps.arb ▸ h3.active.mp k), fun hn => h3.stop (.inl ?_)⟩
  rw [hkeeps.loop, hsteps, stopEpisode_loop]
  refine stop_mem_placeStop ?_
  rw [startWaits, pushShed_loop]
  exact fun k => not_startWaits_of_noOrder hn (hu.waits.mp k)

/-- An ACTIVE bay finds the stack full: it is stopped with reason OVERFLOW (R142). -/
theorem active_overflow_by_poll (hq : ∀ q ∈ s.arb.queue, q.bay ≠ b)
    (hdoor : (bayAt (settle (pollTaken b snap s)) b).door.confirmed = .opened → (bayAt s b).door.confirmed = .opened)
    (ha : (bayAt s b).defrost.state = .active) (hno : 8 ≤ (feederAt s f).stack.length) :
    (bayAt (settle (pollTaken b snap s)) b).defrost
      = { (bayAt s b).defrost with charge := .feeder f, state := .stopping, reason := some .overflow, shedPending := false }
    ∧ (feederAt (settle (pollTaken b snap s)) f).overflow = true
    ∧ b.succ ∈ (catAt (settle (pollTaken b snap s)).alert .power).pending
    ∧ b ∉ (settle (pollTaken b snap s)).arb.active ∧ (noOrder s b → stopOnItsWay (settle (pollTaken b snap s)) b) := by
  have hno' : 8 ≤ (feederAt u f).stack.length := by rw [hu.feederAt]; exact hno
  rw [shed_of_active (hu.state.trans ha)] at hsteps
  have hpolled : (bayAt (polledState b snap s) b).defrost
      = { (bayAt s b).defrost with charge := .feeder f, state := .stopping, reason := some .overflow, shedPending := false } := by
    rw [hsteps, bayAt_shedRunning, if_neg (Nat.not_lt.mpr hno'), hu.record]
    rfl
  rw [shedRunning_full hno'] at hsteps
  have hpolledArb : (polledState b snap s).arb.queue = s.arb.queue ∧ b ∉ (polledState b snap s).arb.active := by
    rw [hsteps, stopEpisode_arb]
    refine ⟨?_, by simp⟩
    show u.arb.queue = _
    rw [hu.arb]
  have hkeeps := pollTaken_keeps hw hi hp (by rw [hpolled]; nofun) (.inl hdoor)
  obtain ⟨h1, h3⟩ := settled_taken hkeeps (by rw [hpolledArb.1]; exact hq) (by rw [hpolled]; nofun)
  have hflag : (feederAt (pollTaken b snap s) f).overflow = true := by
    rw [feederAt, hkeeps.arb]
    show (feederAt (polledState b snap s) f).overflow = true
    rw [hsteps, feederAt_stopEpisode, feederAt_refusePush]
  refine ⟨h1.trans hpolled, by rw [sameOverflow_settle, hflag], raised_pollTaken ?_,
    fun k => hpolledArb.2 (hkeeps.arb ▸ h3.active.mp k), fun hn => h3.stop (.inl ?_)⟩
  · rw [hsteps, stopEpisode_alert]
    exact refusePush_power f b _
  · rw [hkeeps.loop, hsteps, stopEpisode_loop]
    exact stop_mem_placeStop fun k => not_startWaits_of_noOrder hn (hu.waits.mp k)

end

/-- Settles O55: what the mode ends stays ended, and what the run source moves is left by the rest of the poll's change. -/
theorem pollModeEndsEpisodes : Obligations.PollModeEndsEpisodes := by
  intro s b snap i hw hi hp
  have hraised := (pollSteps_raises b snap (pollGap b snap s)).1
  have hended {o : DefrostOutcome} (ho : (bayAt s b).occupancy ≠ .departing)
      (h : modeStep b snap.mode (pollNoted b snap (pollGap b snap s)) = endEpisode b o (pollNoted b snap (pollGap b snap s))) :
      EndKept (afterOutcome s.run.settings.holdoff o (bayAt s b).defrost) (bayAt (settle (pollTaken b snap s)) b).defrost := by
    have hpolled := defrost_polled_ended ho h
    have hkept := endKept_settled hw hi hp (by rw [hpolled]; rfl) (by rw [hpolled]; rfl)
    rw [hpolled] at hkept
    exact hkept
  have hnoted := bayAt_pollNoted b snap (pollGap b snap s)
  have hdefrost : (bayAt (pollNoted b snap (pollGap b snap s)) b).defrost = (bayAt s b).defrost := by rw [hnoted]; rfl
  refine ⟨_, exec_answered hw hi, fun hd hm => ⟨?_, fun hf ha => ?_⟩, fun hd ha hm hf => ?_, fun hd ha hf => ?_,
    fun r o hd hh hm hr ho => ?_, fun hh hm hq => ?_, fun hq hgo hdoor => ?_⟩
  · rw [pollTaken_of_departing hd]
    exact settle_emptied (record_pollSteps_emptied (s := pollGap b snap s) hd hm)
  · exact raised_pollTaken ((hraised b.succ).mpr (.inr ⟨rfl, .inl ⟨ha, hf⟩⟩))
  · have h := hended hd (modeStep_of_complete (by rw [hdefrost]; exact ha) hm hf)
    exact ⟨h.outcome, h.count, h.holdoff, by rcases h.state with k | k | k <;> rw [k] <;> nofun, h.reason⟩
  · have h := hended hd (by rw [hf]; exact modeStep_of_fault (by rw [hdefrost]; exact ha))
    exact ⟨h.outcome, h.count, h.holdoff, by rcases h.state with k | k | k <;> rw [k] <;> nofun,
      raised_pollTaken ((hraised b.succ).mpr (.inr ⟨rfl, .inl ⟨ha, hf⟩⟩))⟩
  · obtain ⟨-, rfl⟩ := outcomeFor_some ho
    have h := hended hd (modeStep_of_hung (by rw [hdefrost]; exact hh) hm (by rw [hdefrost]; exact hr))
    exact ⟨h.outcome, by rcases h.state with k | k | k <;> rw [k] <;> nofun⟩
  · obtain ⟨v, hv, hsteps⟩ := polledState_noted (s := s) (b := b) (snap := snap) fun k => k.1 hm
    have hvdefrost : (bayAt v b).defrost = (bayAt s b).defrost := by rw [hv.record]; rfl
    obtain ⟨x, p, hpolled, harb⟩ := sourceStep_of_hung (s := v) (b := b) (by rw [hvdefrost]; exact hh) snap.source
    rw [← hsteps, hvdefrost] at hpolled
    rw [← hsteps, hv.arb] at harb
    have hhung : (bayAt (polledState b snap s) b).defrost.state = .hung := by rw [hpolled]; exact hh
    have hkeeps := pollTaken_keeps hw hi hp (by rw [hhung]; nofun) (.inr hhung)
    rw [(settled_taken hkeeps (by rw [harb]; exact hq) (by rw [hhung]; nofun)).1, hpolled]
    exact ⟨hh, rfl, rfl⟩
  · obtain ⟨v, hv, hsteps⟩ := polledState_noted (not_endsByMode hgo)
    have hvdefrost : (bayAt v b).defrost = (bayAt s b).defrost := by rw [hv.record]; rfl
    have hnotWaiting (hm : moves s b snap) {x : DefrostState} (hx : x = .idle ∨ x = .shed) : (bayAt s b).defrost.state ≠ x := by
      rintro rfl
      rcases hm.1 with k | k | k | ⟨k, -⟩ <;> rw [k] at hx <;> exact hx.elim nofun nofun
    have hkept {d : Defrost} (hpolled : (bayAt (polledState b snap s) b).defrost = d) (harb : (polledState b snap s).arb = s.arb)
        (h1 : d.state ≠ .idle) (h2 : d.state ≠ .shed) : (bayAt (settle (pollTaken b snap s)) b).defrost = d := by
      have hkeeps := pollTaken_keeps hw hi hp (by rw [hpolled]; exact h1) (.inl hdoor)
      rw [(settled_taken hkeeps (by rw [harb]; exact hq) (by rw [hpolled]; exact h2)).1, hpolled]
    refine ⟨fun ha hm => ?_, fun hm hsrc => ?_, fun f hf hm hsrc => ?_⟩
    · rw [sourceStep_of_not_moves (hv.moves.not.mpr hm)] at hsteps
      exact hkept (by rw [hsteps, hvdefrost]) (by rw [hsteps, hv.arb]) (by rw [ha]; nofun) (by rw [ha]; nofun)
    · rw [sourceStep_diesel (hv.moves.mpr hm) hsrc] at hsteps
      refine hkept ?_ (by rw [hsteps, chargeToSelf_arb, hv.arb]) (hnotWaiting hm (.inl rfl)) (hnotWaiting hm (.inr rfl))
      rw [hsteps, bayAt_chargeToSelf, hvdefrost]
    · rw [sourceStep_shore (hv.moves.mpr hm) hsrc (by rw [hv.record]; exact hf)] at hsteps
      have hself : (bayAt s b).defrost.charge = .self := by
        rcases hm.2 with ⟨k, -⟩ | ⟨-, k, -⟩
        · exact nomatch hsrc.symm.trans k
        · exact k
      have hfits : committed v f + (bayAt v b).defrost.draw ≤ (feederAt v f).budget
          ↔ committed s f + (bayAt s b).defrost.draw ≤ (feederAt s f).budget := by
        rw [hv.committed, hv.feederAt, hvdefrost]
      have hmoved := chargeMoved hv f
      have hshed (hfull : ¬ committed s f + (bayAt s b).defrost.draw ≤ (feederAt s f).budget)
          (hs : (bayAt s b).defrost.state = .starting ∨ (bayAt s b).defrost.state = .active) :
          polledState b snap s = shed f b (chargedTo f b v) := by
        rw [hsteps, chargeToFeeder_shed (hfits.not.mpr hfull) (by rw [hvdefrost]; exact hs)]
      refine ⟨fun h => ?_, fun hfull hs hsent => ?_, fun hfull hs hunsent hstack hroom => ?_, fun hfull hs hunsent hno => ?_,
        fun hfull ha hroom => ?_, fun hfull ha hno => ?_⟩
      · rw [chargeToFeeder_kept (by rw [hfits, hvdefrost]; exact h)] at hsteps
        exact hkept (by rw [hsteps, hmoved.record]) (by rw [hsteps, hmoved.arb]) (hnotWaiting hm (.inl rfl))
          (hnotWaiting hm (.inr rfl))
      · exact sent_shed_by_poll hw hi hp hmoved (hshed hfull (.inl hs)) hq hdoor hs hsent
      · refine unsent_shed_by_poll hw hi hp hmoved (hshed hfull (.inl hs)) hq hdoor hs hunsent hroom
          (topHeld_shedUnsent (by rw [hv.feederAt]; exact hroom) (by rw [hvdefrost]; exact hself)
            (Nat.not_le.mp (hfits.not.mpr hfull)) fun ⟨g, e, he, hb⟩ => hstack ⟨g, e, by rw [hv.feederAt] at he; exact he, hb⟩)
      · exact unsent_overflow_by_poll hw hi hp hmoved (hshed hfull (.inl hs)) hs hunsent hno
      · exact active_shed_by_poll hw hi hp hmoved (hshed hfull (.inr ha)) hq hdoor ha hroom
      · exact active_overflow_by_poll hw hi hp hmoved (hshed hfull (.inr ha)) hq hdoor ha hno

end Sys2Proof.Proofs
end

section
/-! What the laws of the defrost business read of one bay (`Standing`), and what each operation of a change makes of it: nothing
of another bay's, and of its own the update of section 9.1's collections, of the order queue and of the record that the
operation is named for. -/

namespace Sys2Proof.Machine

open Sys2Proof.Claims Sys2Proof.Safety

variable {b c : Bay} {f g : FeederIx} {s t u : State}

/-! ## Where a bay stands -/

/-- One bay as the laws of the defrost business read it: its record, how often it stands in the demand queue and in the active
list, the ends recorded on its shed-stack entries, its orders in the queue, its exchange in flight, and the run state. -/
structure Standing where
  record : BayRecord
  queued : Nat
  listed : Nat
  ends : FeederIx → List (Option StopReason)
  orders : List OrderKind
  flight : Option Exchange
  run : RunState

/-- A bay's exchange in flight. -/
def flightOf (b : Bay) (x : Option Exchange) : Option Exchange := x.filter fun e => decide (e.bay = b) && inFlight e

def standing (s : State) (b : Bay) : Standing where
  record := bayAt s b
  queued := (s.arb.queue.filter fun q => decide (q.bay = b)).length
  listed := (s.arb.active.filter fun x => decide (x = b)).length
  ends f := ((feederAt s f).stack.filter fun e => decide (e.bay = b)).map (·.ended)
  orders := (s.loop.orders.filter fun o => decide (o.bay = b)).map (·.kind)
  flight := flightOf b s.loop.exchange
  run := s.run.state

theorem mem_flightOf {x : Option Exchange} {e : Exchange} :
    e ∈ flightOf b x ↔ e ∈ x ∧ e.bay = b ∧ inFlight e = true := by simp [flightOf, Option.mem_def, Option.filter_eq_some_iff]

/-- An exchange that is or becomes voided for one bay is none of another's. -/
theorem VoidedAt.flightOf_eq {x y : Option Exchange} (h : VoidedAt b x y) (hc : c ≠ b) : flightOf c y = flightOf c x := by
  rcases h with rfl | ⟨e, rfl, rfl, -, rfl⟩
  · rfl
  · simp [flightOf, Option.filter, hc.symm]

/-- The standing reads the bay's own record and places, and the run state. -/
theorem SameFor.standing_eq (h : SameFor c s t) (hx : flightOf c t.loop.exchange = flightOf c s.loop.exchange)
    (hr : t.run.state = s.run.state) : standing t c = standing s c := by
  simp only [standing, h.record, h.queue, h.active, h.stack, h.orders, hx, hr]

theorem ActsOn.standing_eq {K : Category → Prop} (h : ActsOn b K s t) (hc : c ≠ b) : standing t c = standing s c :=
  (h.sameFor hc).standing_eq (h.exchange.flightOf_eq hc) (congrArg RunControl.state h.run)

/-! ## The operations on their own bay -/

theorem standing_modBay (b : Bay) (g : BayRecord → BayRecord) (s : State) :
    standing (modBay b g s) b = { standing s b with record := g (standing s b).record } := by
  have h : bayAt (modBay b g s) b = g (bayAt s b) := by rw [bayAt_modBay, if_pos rfl]
  simp only [standing, h]
  rfl

theorem standing_modDefrost (b : Bay) (g : Defrost → Defrost) (s : State) : standing (modDefrost b g s) b
    = { standing s b with record := { (standing s b).record with defrost := g (standing s b).record.defrost } } := standing_modBay b _ s

theorem standing_raiseAlert (k : Category) (e : Element) (s : State) (c : Bay) : standing (raiseAlert k e s) c = standing s c := rfl

theorem standing_owePass (s : State) (c : Bay) : standing (owePass s) c = standing s c := rfl

theorem standing_owePassIf (x : Bool) (s : State) (c : Bay) : standing (owePassIf x s) c = standing s c := by
  rcases owePassIf_cases x s with h | h <;> rw [h]
  rfl

theorem standing_leaveActive (b : Bay) (s : State) : standing (leaveActive b s) b = { standing s b with listed := 0 } := by
  have h : (s.arb.active.filter fun x => decide (x ≠ b)).filter (fun x => decide (x = b)) = [] := by
    rw [List.filter_filter, List.filter_eq_nil_iff]
    simp
  simp only [standing, leaveActive, h]
  rfl

theorem standing_joinActive (b : Bay) (s : State) :
    standing (joinActive b s) b = { standing s b with listed := (standing s b).listed + 1 } := by
  have h : ((s.arb.active ++ [b]).filter fun x => decide (x = b)).length
      = (s.arb.active.filter fun x => decide (x = b)).length + 1 := by simp
  simp only [standing, joinActive, h]
  rfl

theorem standing_leaveQueue (b : Bay) (s : State) : standing (leaveQueue b s) b = { standing s b with queued := 0 } := by
  have h : (s.arb.queue.filter fun q => decide (q.bay ≠ b)).filter (fun q => decide (q.bay = b)) = [] := by
    rw [List.filter_filter, List.filter_eq_nil_iff]
    simp
  simp only [standing, leaveQueue, h]
  rfl

theorem standing_leaveStacks (b : Bay) (s : State) : standing (leaveStacks b s) b = { standing s b with ends := fun _ => [] } := by
  have h (l : List ShedEntry) : (stackWithout b l).filter (fun e => decide (e.bay = b)) = [] := by
    rw [stackWithout, List.filter_filter, List.filter_eq_nil_iff]
    simp
  simp only [standing, feederAt_leaveStacks, h]
  rfl

theorem standing_recordEnd (b : Bay) (r : StopReason) (s : State) :
    standing (recordEnd b r s) b = { standing s b with ends := fun f => ((standing s b).ends f).map fun _ => some r } := by
  have h (l : List ShedEntry) : ((l.map fun e => if e.bay = b then { e with ended := some r } else e).filter
      fun e => decide (e.bay = b)).map (·.ended) = ((l.filter fun e => decide (e.bay = b)).map (·.ended)).map fun _ => some r := by
    induction l with
    | nil => rfl
    | cons e l ih =>
      by_cases he : e.bay = b
      · simpa [he] using ih
      · simpa [he] using ih
  simp only [standing, feederAt_recordEnd, h]
  rfl

theorem standing_setFeeder (f : FeederIx) (r : Feeder) (s : State) (c : Bay) : standing (setFeeder f r s) c = { standing s c with
    ends := fun g => if g = f then (r.stack.filter fun e => decide (e.bay = c)).map (·.ended) else (standing s c).ends g } := by
  have h (g : FeederIx) : ((feederAt (setFeeder f r s) g).stack.filter fun e => decide (e.bay = c)).map (·.ended)
      = if g = f then (r.stack.filter fun e => decide (e.bay = c)).map (·.ended) else (standing s c).ends g := by
    rw [feederAt_setFeeder]
    split <;> rfl
  simp only [standing, h]
  rfl

/-- A feeder record written with its stack kept. -/
theorem standing_setFeeder_kept {r : Feeder} (h : r.stack = (feederAt s f).stack) (c : Bay) :
    standing (setFeeder f r s) c = standing s c := by
  rw [standing_setFeeder, h]
  have hg : (fun g => if g = f then ((feederAt s f).stack.filter fun e => decide (e.bay = c)).map (·.ended)
      else (standing s c).ends g) = (standing s c).ends := by
    funext g
    split
    · next hg => rw [hg]; rfl
    · rfl
  rw [hg]

/-- The ends of the bay's entries after a push onto feeder f's stack. -/
def pushedEnds (f : FeederIx) (l : FeederIx → List (Option StopReason)) (g : FeederIx) : List (Option StopReason) :=
  if g = f then none :: l f else l g

theorem standing_pushShed (f : FeederIx) (b : Bay) (s : State) :
    standing (pushShed f b s) b = { standing s b with ends := pushedEnds f (standing s b).ends } := by
  have h (n : Bool) : standing (setFeeder f { feederAt s f with stack := ⟨b, none⟩ :: (feederAt s f).stack, nearFull := n } s) b
      = { standing s b with ends := pushedEnds f (standing s b).ends } := by
    rw [standing_setFeeder]
    simp
    rfl
  unfold pushShed
  dsimp only
  split
  · exact h true
  · exact h _

theorem standing_refusePush (f : FeederIx) (b : Bay) (s : State) (c : Bay) : standing (refusePush f b s) c = standing s c :=
  standing_setFeeder_kept (f := f) (r := { feederAt s f with overflow := true }) rfl c

/-! ## Orders -/

/-- Whether an order kind is a START. -/
def isStart : OrderKind → Bool
  | .start _ => true
  | .stop => false

/-- A bay's orders after its STOP was placed (R49, R50). -/
def stopPlaced (l : List OrderKind) : List OrderKind :=
  if l.any isStart then l.filter fun k => !isStart k else if l.contains .stop then l else l ++ [.stop]

theorem standing_setOrders (q : List Order) (s : State) (c : Bay) :
    standing (setOrders q s) c = { standing s c with orders := (q.filter fun o => decide (o.bay = c)).map (·.kind) } := rfl

theorem standing_placeStart (b : Bay) (resume : Bool) (s : State) :
    standing (placeStart b resume s) b = { standing s b with orders := (standing s b).orders ++ [.start resume] } := by
  rw [placeStart, standing_setOrders]
  simp [standing]

theorem isStartFor_eq (b : Bay) (o : Order) : isStartFor b o = (decide (o.bay = b) && isStart o.kind) := by
  unfold isStartFor isStart
  cases o.kind <;> rfl

theorem startUnsent_eq (s : State) (b : Bay) : startUnsent s b = (standing s b).orders.any isStart := by
  rw [Bool.eq_iff_iff]
  simp only [startUnsent, standing, List.any_eq_true, isStartFor_eq, List.mem_map, List.mem_filter, Bool.and_eq_true, decide_eq_true_eq]
  constructor
  · rintro ⟨o, ho, hb, hk⟩
    exact ⟨o.kind, ⟨o, ⟨ho, hb⟩, rfl⟩, hk⟩
  · rintro ⟨k, ⟨o, ⟨ho, hb⟩, rfl⟩, hk⟩
    exact ⟨o, ho, hb, hk⟩

theorem stopQueued_eq (s : State) (b : Bay) : s.loop.orders.any (isStopFor b) = (standing s b).orders.contains .stop := by
  rw [Bool.eq_iff_iff]
  simp only [standing, List.any_eq_true, isStopFor, List.contains_iff_mem, List.mem_map, List.mem_filter, decide_eq_true_eq]
  constructor
  · rintro ⟨o, ho, rfl⟩
    exact ⟨⟨b, .stop⟩, ⟨ho, rfl⟩, rfl⟩
  · rintro ⟨⟨x, k⟩, ⟨ho, rfl⟩, rfl⟩
    exact ⟨_, ho, rfl⟩

theorem standing_placeStop (b : Bay) (s : State) :
    standing (placeStop b s) b = { standing s b with orders := stopPlaced (standing s b).orders } := by
  unfold placeStop stopPlaced
  rw [startUnsent_eq, stopQueued_eq]
  split
  · have h (l : List Order) : (((l.filter fun o => !isStartFor b o).filter fun o => decide (o.bay = b)).map (·.kind))
        = (((l.filter fun o => decide (o.bay = b)).map (·.kind)).filter fun k => !isStart k) := by
      induction l with
      | nil => rfl
      | cons o l ih =>
        by_cases ho : o.bay = b <;> by_cases hk : isStart o.kind = true <;> simp_all [isStartFor_eq]
    rw [standing_setOrders, h]
    rfl
  · split
    · rfl
    · rw [standing_setOrders]
      simp [standing]

/-! ## Emptying, and the ends of episodes -/

theorem standing_emptyRecord (b : Bay) (s : State) : standing (emptyRecord b s) b = { standing s b with
    record := emptied (standing s b).record, flight := (standing s b).flight.map fun x => { x with voided := true } } := by
  have hx (x : Option Exchange) :
      flightOf b (x.map (voidExchange b)) = (flightOf b x).map fun x => { x with voided := true } := by
    cases x with
    | none => rfl
    | some e =>
      by_cases h : e.bay = b ∧ inFlight e = true
      · obtain ⟨rfl, hf⟩ := h
        have h' : inFlight { e with voided := true } = true := hf
        simp [flightOf, voidExchange, hf, h', Option.filter]
      · have h' : (decide (e.bay = b) && inFlight e) = false := by simpa using h
        simp [flightOf, voidExchange, h, Option.filter, h']
  have h : standing (emptyRecord b s) b
      = { standing (modBay b emptied s) b with flight := flightOf b (s.loop.exchange.map (voidExchange b)) } := rfl
  rw [h, standing_modBay, hx]
  rfl

theorem standing_becomeVacant (b : Bay) (s : State) : standing (becomeVacant b s) b = { standing s b with
    record := emptied (standing s b).record, flight := (standing s b).flight.map fun x => { x with voided := true } } := by
  rw [becomeVacant, standing_owePassIf, standing_emptyRecord]

theorem standing_departHung (b : Bay) (s : State) : standing (departHung b s) b = { standing s b with
    record := emptied (standing s b).record, flight := (standing s b).flight.map fun x => { x with voided := true } } := by
  rw [departHung, standing_becomeVacant, standing_owePassIf]

/-- The bay's standing once its episode has ended with an outcome, before a DEPARTING bay is emptied (R131). -/
def Standing.ended (holdoff : Nat) (o : DefrostOutcome) (v : Standing) : Standing :=
  { v with record := endedRecord holdoff o v.record, queued := 0, listed := 0, ends := fun _ => [] }

/-- The bay's standing once its record has been emptied (R3). -/
def Standing.emptied (v : Standing) : Standing :=
  { v with record := Machine.emptied v.record, flight := v.flight.map fun x => { x with voided := true } }

theorem standing_leaveCollections (b : Bay) (s : State) :
    standing (leaveCollections b s) b = { standing s b with queued := 0, listed := 0, ends := fun _ => [] } := by
  rw [leaveCollections, standing_leaveStacks, standing_leaveQueue, standing_leaveActive]

theorem standing_endEpisode (b : Bay) (o : DefrostOutcome) (s : State) : standing (endEpisode b o s) b
    = if (bayAt s b).occupancy = .departing then ((standing s b).ended s.run.settings.holdoff o).emptied
      else (standing s b).ended s.run.settings.holdoff o := by
  have h1 : standing (modBay b (endedRecord s.run.settings.holdoff o) (leaveCollections b s)) b
      = (standing s b).ended s.run.settings.holdoff o := by
    rw [standing_modBay, standing_leaveCollections]
    rfl
  have h2 (x : Bool) : standing (owePassIf x (if raisesFrost o then raiseAlert .frost (bayElement b)
      (modBay b (endedRecord s.run.settings.holdoff o) (leaveCollections b s))
      else modBay b (endedRecord s.run.settings.holdoff o) (leaveCollections b s))) b
      = (standing s b).ended s.run.settings.holdoff o := by
    rw [standing_owePassIf]
    split
    · exact h1
    · exact h1
  rw [endEpisode_cases]
  split
  · rw [standing_becomeVacant, h2]
    rfl
  · rw [h2]

/-- The bay's standing once it is STOPPING with a reason and its STOP is placed (R134, R135, R136). -/
def Standing.stopped (r : StopReason) (v : Standing) : Standing :=
  { v with
    record := { v.record with defrost := { v.record.defrost with state := .stopping, reason := some r, shedPending := false } }
    listed := 0, orders := stopPlaced v.orders }

theorem standing_stopEpisode (b : Bay) (r : StopReason) (s : State) : standing (stopEpisode b r s) b = (standing s b).stopped r := by
  rw [stopEpisode, standing_placeStop, standing_modDefrost, standing_leaveActive]
  rfl

end Sys2Proof.Machine
end

section
/-! The laws of the defrost business as laws of one bay's standing, and the operations of a change that keep them. -/

namespace Sys2Proof.Machine

open Sys2Proof.Claims Sys2Proof.Safety

variable {b c : Bay} {f g : FeederIx} {s t u : State} {v w : Standing}

/-! ## The laws of one bay -/

/-- A bay stands on a shed stack while SHED, and while it stops to become SHED (R141). -/
def onShedStack (d : Defrost) : Prop := d.state = .shed ∨ (d.state = .stopping ∧ d.reason = some .shed)

/-- A VACANT or OUT-OF-SERVICE bay holds the reset values of R2 in every group but bay data. -/
def EmptyWhenUnused (r : BayRecord) : Prop :=
  r.occupancy = .vacant ∨ r.occupancy = .outOfService → r = { emptied r with occupancy := r.occupancy }

/-- The collections, the orders, the exchange and the record of a bay are in step with its defrost state. -/
structure InStep (v : Standing) : Prop where
  queued : v.queued = if v.record.defrost.state = .queued then 1 else 0
  listed : v.listed = if v.record.defrost.state = .starting ∨ v.record.defrost.state = .active then 1 else 0
  entry : ∀ f, v.record.defrost.charge = .feeder f → onShedStack v.record.defrost → (v.ends f).length = 1
  noEntry : ∀ f, ¬ (v.record.defrost.charge = .feeder f ∧ onShedStack v.record.defrost) → v.ends f = []
  orders : v.orders = [] ∨ ∃ k, v.orders = [k] ∧ v.record.defrost.state = stateFor k
  flightOrder : ∀ x ∈ v.flight, ∀ k, x.kind = .order k → v.record.defrost.state = stateFor k ∧ v.orders = []
  flightPolled : ∀ x ∈ v.flight, x.voided = false → polled v.record.occupancy = true
  empty : EmptyWhenUnused v.record
  reason : v.record.defrost.reason = some .shed → v.record.defrost.state ≠ .starting
    ∧ (v.record.defrost.state = .stopping → ∃ f, v.record.defrost.charge = .feeder f)

/-- The bay's defrost business has been ended and may not start again (R145, R146). -/
def Standing.mustEnd (v : Standing) : Prop := v.record.door.confirmed = .opened ∨ v.run ≠ .running

/-- The bay neither waits nor defrosts; its START is sent and its end is written; its stack entries have their ends. -/
structure BusinessOver (v : Standing) : Prop where
  notQueued : v.record.defrost.state ≠ .queued
  notShed : v.record.defrost.state ≠ .shed
  notActive : v.record.defrost.state ≠ .active
  starting : v.record.defrost.state = .starting → v.record.defrost.reason.isSome = true ∧ v.orders = []
  ends : ∀ f, ∀ e ∈ v.ends f, e.isSome = true

/-- No defrost but a HUNG one is left, and no order waits. -/
structure AtRest (v : Standing) : Prop where
  state : v.record.defrost.state = .idle ∨ v.record.defrost.state = .hung
  orders : v.orders = []

/-- The laws of one bay. -/
structure BayLaws (v : Standing) : Prop where
  inStep : InStep v
  ended : v.mustEnd → BusinessOver v
  rest : v.run = .setup ∨ v.run = .halted → AtRest v

/-! ## What the laws give in a defrost state -/

theorem InStep.no_entries (h : InStep v) (hs : ¬ onShedStack v.record.defrost) (f : FeederIx) : v.ends f = [] :=
  h.noEntry f fun k => hs k.2

/-- Orders are for STARTING and STOPPING bays alone (R49). -/
theorem InStep.no_orders (h : InStep v) (h1 : v.record.defrost.state ≠ .starting) (h2 : v.record.defrost.state ≠ .stopping) :
    v.orders = [] ∧ ∀ x ∈ v.flight, x.kind = .poll := by
  have hne (k : OrderKind) : v.record.defrost.state ≠ stateFor k := by cases k <;> assumption
  refine ⟨h.orders.resolve_right fun ⟨k, _, hk⟩ => hne k hk, fun x hx => ?_⟩
  cases hk : x.kind with
  | poll => rfl
  | order k => exact absurd (h.flightOrder x hx k hk).1 (hne k)

/-- A bay with defrost business is neither VACANT nor OUT-OF-SERVICE. -/
theorem InStep.used (h : InStep v) (hs : v.record.defrost.state ≠ .idle) :
    ¬ (v.record.occupancy = .vacant ∨ v.record.occupancy = .outOfService) := fun k => by
  have := h.empty k
  rw [this] at hs
  exact hs rfl

theorem emptyWhenUnused_of_used {r : BayRecord} (h : ¬ (r.occupancy = .vacant ∨ r.occupancy = .outOfService)) :
    EmptyWhenUnused r := fun k => absurd k h

/-- The business of an IDLE or HUNG bay is over. -/
theorem InStep.over (h : InStep v) (hs : v.record.defrost.state = .idle ∨ v.record.defrost.state = .hung) : BusinessOver v := by
  have hne (x : DefrostState) (h1 : x ≠ .idle) (h2 : x ≠ .hung) : v.record.defrost.state ≠ x := by
    rcases hs with hs | hs <;> rw [hs]
    · exact h1.symm
    · exact h2.symm
  have hoff : ¬ onShedStack v.record.defrost := by
    rintro (k | ⟨k, -⟩)
    · exact hne .shed nofun nofun k
    · exact hne .stopping nofun nofun k
  refine ⟨hne _ nofun nofun, hne _ nofun nofun, hne _ nofun nofun, fun k => absurd k (hne _ nofun nofun), fun f e he => ?_⟩
  rw [h.no_entries hoff f] at he
  cases he

theorem BayLaws.of_rest (h : InStep v) (hs : v.record.defrost.state = .idle ∨ v.record.defrost.state = .hung)
    (ho : v.orders = []) : BayLaws v := ⟨h, fun _ => h.over hs, fun _ => ⟨hs, ho⟩⟩

/-- A bay without an order, in the queue or on the loop. -/
structure Free (v : Standing) : Prop where
  orders : v.orders = []
  flight : ∀ x ∈ v.flight, x.kind = .poll

theorem Free.not_order (h : Free v) {x : Exchange} (hx : x ∈ v.flight) {k : OrderKind} (hk : x.kind = .order k) : False := by
  have := (h.flight x hx).symm.trans hk
  cases this

theorem InStep.free (h : InStep v) (h1 : v.record.defrost.state ≠ .starting) (h2 : v.record.defrost.state ≠ .stopping) : Free v :=
  ⟨(h.no_orders h1 h2).1, (h.no_orders h1 h2).2⟩

/-- While an order waits in the queue no order of the bay is on the loop (R49). -/
theorem InStep.flight_of_order (h : InStep v) (ho : v.orders ≠ []) : ∀ x ∈ v.flight, x.kind = .poll := by
  intro x hx
  cases hk : x.kind with
  | poll => rfl
  | order k => exact absurd (h.flightOrder x hx k hk).2 ho

/-! ## An episode ends -/

theorem ended_laws (h : InStep v) (hu : v.record.defrost.state ≠ .idle) (hf : Free v) (n : Nat) (o : DefrostOutcome) :
    BayLaws (v.ended n o) := by
  have hstep : InStep (v.ended n o) :=
    { queued := rfl
      listed := rfl
      entry := fun _ _ k => by simp [onShedStack, Standing.ended, endedRecord, endedDefrost] at k
      noEntry := fun _ _ => rfl
      orders := .inl hf.orders
      flightOrder := fun x hm k hk => (hf.not_order hm hk).elim
      flightPolled := h.flightPolled
      empty := emptyWhenUnused_of_used (h.used hu)
      reason := fun k => nomatch k }
  exact .of_rest hstep (.inl rfl) hf.orders

theorem emptied_laws (h : InStep v) (hs : v.record.defrost.state = .idle ∨ v.record.defrost.state = .hung) (hf : Free v) :
    BayLaws v.emptied := by
  have hoff : ¬ onShedStack v.record.defrost := by rcases hs with hs | hs <;> simp [onShedStack, hs]
  have hstep : InStep v.emptied :=
    { queued := by rcases hs with hs | hs <;> simp [Standing.emptied, h.queued, hs, emptied, BayRecord.empty, Defrost.empty]
      listed := by rcases hs with hs | hs <;> simp [Standing.emptied, h.listed, hs, emptied, BayRecord.empty, Defrost.empty]
      entry := fun _ k => nomatch k
      noEntry := fun f _ => h.no_entries hoff f
      orders := .inl hf.orders
      flightOrder := fun x hm k hk => by
        obtain ⟨y, hy, rfl⟩ := Option.mem_map.mp hm
        exact (hf.not_order hy hk).elim
      flightPolled := fun x hm hv => by
        obtain ⟨y, hy, rfl⟩ := Option.mem_map.mp hm
        cases hv
      empty := fun _ => rfl
      reason := fun k => nomatch k }
  exact .of_rest hstep (.inl rfl) hf.orders

theorem endEpisode_laws (h : InStep (standing s b)) (hu : (bayAt s b).defrost.state ≠ .idle) (hf : Free (standing s b))
    (o : DefrostOutcome) : BayLaws (standing (endEpisode b o s) b) := by
  have hended := ended_laws h hu hf s.run.settings.holdoff o
  rw [standing_endEpisode]
  split
  · exact emptied_laws hended.inStep (.inl rfl) ⟨hf.orders, hf.flight⟩
  · exact hended

/-! ## An episode stops -/

theorem stopPlaced_nil : stopPlaced [] = [.stop] := rfl

/-- A STARTING or ACTIVE bay without an order becomes STOPPING; with reason SHED after its push (R134, R141). -/
theorem stopped_laws (h : InStep v) (hs : v.record.defrost.state = .starting ∨ v.record.defrost.state = .active) (hf : Free v)
    (hrest : v.run = .setup ∨ v.run = .halted → AtRest v) {r : StopReason} (hr : r ≠ .shed) :
    BayLaws (v.stopped r) ∧ BusinessOver (v.stopped r) := by
  have hoff : ¬ onShedStack v.record.defrost := by rcases hs with hs | hs <;> simp [onShedStack, hs]
  have hq : v.queued = 0 := by rcases hs with hs | hs <;> simp [h.queued, hs]
  have ho : (v.stopped r).orders = [.stop] := by simp [Standing.stopped, hf.orders, stopPlaced_nil]
  have hover : BusinessOver (v.stopped r) :=
    ⟨nofun, nofun, nofun, nofun, fun f e he => by rw [show (v.stopped r).ends f = [] from h.no_entries hoff f] at he; cases he⟩
  have hstep : InStep (v.stopped r) :=
    { queued := hq
      listed := rfl
      entry := fun _ _ k => by simp [onShedStack, Standing.stopped, hr] at k
      noEntry := fun f _ => h.no_entries hoff f
      orders := .inr ⟨_, ho, rfl⟩
      flightOrder := fun x hm k hk => (hf.not_order hm hk).elim
      flightPolled := h.flightPolled
      empty := emptyWhenUnused_of_used (h.used (by rcases hs with hs | hs <;> simp [hs]))
      reason := fun k => absurd (Option.some.inj k) hr }
  refine ⟨⟨hstep, fun _ => hover, fun k => ?_⟩, hover⟩
  rcases (hrest k).state with k | k <;> rcases hs with hs | hs <;> rw [hs] at k <;> cases k

/-- A bay whose business is under way keeps nothing of SETUP and HALTED. -/
theorem rest_elim {x y : RunState} {P : Prop} (hrest : v.run = x ∨ v.run = y → AtRest v) (h1 : v.record.defrost.state ≠ .idle)
    (h2 : v.record.defrost.state ≠ .hung) (k : v.run = x ∨ v.run = y) : P :=
  ((hrest k).state.elim h1 h2).elim

theorem pushedEnds_same (h : ∀ g, v.ends g = []) (f : FeederIx) : pushedEnds f v.ends f = [none] := by
  simp [pushedEnds, h f]

theorem pushedEnds_other (h : ∀ g, v.ends g = []) (hg : g ≠ f) : pushedEnds f v.ends g = [] := by
  simp [pushedEnds, hg, h g]

/-- A STARTING or ACTIVE bay charged to a feeder is shed: STOPPING with reason SHED, its entry pushed (R134, R141). -/
theorem shedStopped_laws (h : BayLaws v) (hs : v.record.defrost.state = .starting ∨ v.record.defrost.state = .active)
    (hf : Free v) (hc : v.record.defrost.charge = .feeder f) (hm : ¬ v.mustEnd) :
    BayLaws (Standing.stopped .shed { v with ends := pushedEnds f v.ends }) := by
  have hoff : ¬ onShedStack v.record.defrost := by rcases hs with hs | hs <;> simp [onShedStack, hs]
  have hq : v.queued = 0 := by rcases hs with hs | hs <;> simp [h.inStep.queued, hs]
  have hnone := h.inStep.no_entries hoff
  refine ⟨⟨hq, rfl, fun g hg _ => ?_, fun g hg => pushedEnds_other hnone fun k => hg ⟨k ▸ hc, .inr ⟨rfl, rfl⟩⟩,
    .inr ⟨.stop, by simp [Standing.stopped, hf.orders, stopPlaced_nil], rfl⟩, fun x hm k hk => (hf.not_order hm hk).elim,
    h.inStep.flightPolled, emptyWhenUnused_of_used (h.inStep.used (by rcases hs with hs | hs <;> simp [hs])),
    fun _ => ⟨nofun, fun _ => ⟨f, hc⟩⟩⟩, fun k => absurd k hm,
    fun k => rest_elim h.rest (by rcases hs with hs | hs <;> simp [hs]) (by rcases hs with hs | hs <;> simp [hs]) k⟩
  have hgf : g = f := Charge.feeder.inj (hg.symm.trans hc)
  subst hgf
  simp [Standing.stopped, pushedEnds_same hnone]

/-- The bay's standing once it is SHED from an unsent START (R135, R141). -/
def Standing.shedAtOnce (f : FeederIx) (v : Standing) : Standing :=
  { v with
    record := { v.record with defrost := { v.record.defrost with state := .shed, reason := none, shedPending := false } }
    listed := 0, ends := pushedEnds f v.ends, orders := [] }

theorem shedAtOnce_laws (h : BayLaws v) (hs : v.record.defrost.state = .starting) (hx : ∀ x ∈ v.flight, x.kind = .poll)
    (hc : v.record.defrost.charge = .feeder f) (hm : ¬ v.mustEnd) : BayLaws (v.shedAtOnce f) := by
  have hoff : ¬ onShedStack v.record.defrost := by simp [onShedStack, hs]
  have hnone := h.inStep.no_entries hoff
  refine ⟨⟨by simp [Standing.shedAtOnce, h.inStep.queued, hs], rfl, fun g hg _ => ?_,
    fun g hg => pushedEnds_other hnone fun k => hg ⟨k ▸ hc, .inl rfl⟩, .inl rfl,
    fun x hm k hk => (nomatch (hx x hm).symm.trans hk), h.inStep.flightPolled,
    emptyWhenUnused_of_used (h.inStep.used (by simp [hs])), nofun⟩, fun k => absurd k hm,
    fun k => rest_elim h.rest (by simp [hs]) (by simp [hs]) k⟩
  have hgf : g = f := Charge.feeder.inj (hg.symm.trans hc)
  subst hgf
  simp [Standing.shedAtOnce, pushedEnds_same hnone]

/-! ## A demand joins, and is granted or resumed -/

/-- The bay's standing once its demand has joined the queue (R117, R118). -/
def Standing.joined (o : Origin) (v : Standing) : Standing :=
  { v with record := { v.record with defrost := { v.record.defrost with state := .queued, origin := some o } }
           queued := v.queued + 1 }

theorem joined_laws (h : BayLaws v) (hs : v.record.defrost.state = .idle) (hm : ¬ v.mustEnd)
    (hu : polled v.record.occupancy = true) (o : Origin) : BayLaws (v.joined o) := by
  have hoff : ¬ onShedStack v.record.defrost := by simp [onShedStack, hs]
  have hf := h.inStep.free (by simp [hs]) (by simp [hs])
  have hrun : v.run = .running := Decidable.not_not.mp fun k => hm (.inr k)
  refine ⟨⟨by simp [Standing.joined, h.inStep.queued, hs], by simp [Standing.joined, h.inStep.listed, hs],
    fun _ _ k => by simp [onShedStack, Standing.joined] at k, fun g _ => h.inStep.no_entries hoff g, .inl hf.orders,
    fun x hm k hk => (hf.not_order hm hk).elim, h.inStep.flightPolled, emptyWhenUnused_of_used ?_,
    fun _ => ⟨nofun, nofun⟩⟩, fun k => absurd k hm, fun k => ?_⟩
  · rintro (k | k) <;> rw [show v.record.occupancy = _ from k] at hu <;> cases hu
  · rcases k with k | k <;> exact nomatch hrun.symm.trans k

/-- The bay's standing once its START is placed, `d` its defrost record (R121, R124). -/
def Standing.started (d : Defrost) (resume : Bool) (v : Standing) : Standing :=
  { v with record := { v.record with defrost := d }, queued := 0, listed := v.listed + 1, ends := fun _ => []
           orders := v.orders ++ [.start resume] }

/-- A QUEUED bay is granted, a SHED bay is resumed. -/
theorem started_laws (h : BayLaws v) (hs : v.record.defrost.state = .queued ∨ v.record.defrost.state = .shed) (hm : ¬ v.mustEnd)
    {d : Defrost} (hd : d.state = .starting) (hr : d.reason = none) (resume : Bool) : BayLaws (v.started d resume) := by
  have hf := h.inStep.free (by rcases hs with hs | hs <;> simp [hs]) (by rcases hs with hs | hs <;> simp [hs])
  have hl : v.listed = 0 := by rcases hs with hs | hs <;> simp [h.inStep.listed, hs]
  have hrun : v.run = .running := Decidable.not_not.mp fun k => hm (.inr k)
  refine ⟨⟨by simp [Standing.started, hd], by simp [Standing.started, hd, hl],
    fun _ _ k => by simp [onShedStack, Standing.started, hd] at k, fun _ _ => rfl,
    .inr ⟨.start resume, by simp [Standing.started, hf.orders], hd⟩, fun x hm k hk => (hf.not_order hm hk).elim,
    h.inStep.flightPolled, emptyWhenUnused_of_used (h.inStep.used (by rcases hs with hs | hs <;> simp [hs])),
    fun k => nomatch hr.symm.trans k⟩, fun k => absurd k hm, fun k => ?_⟩
  rcases k with k | k <;> exact nomatch hrun.symm.trans k

/-! ## Writes of the defrost record -/

/-- The defrost record written. -/
def Standing.written (d : Defrost) (v : Standing) : Standing := { v with record := { v.record with defrost := d } }

/-- The charge and shed-pending of a bay off the shed stacks may be written (R141, R148). -/
theorem recharged_laws (h : BayLaws v) (hoff : ¬ onShedStack v.record.defrost) (hs : v.record.defrost.state ≠ .idle) {d : Defrost}
    (hd : d.state = v.record.defrost.state) (hr : d.reason = v.record.defrost.reason) : BayLaws (v.written d) := by
  have hoff' : ¬ onShedStack d := by rw [onShedStack, hd, hr]; exact hoff
  refine ⟨⟨by simp only [Standing.written, hd]; exact h.inStep.queued, by simp only [Standing.written, hd]; exact h.inStep.listed,
    fun _ _ k => absurd k hoff', fun g _ => h.inStep.no_entries hoff g, ?_, ?_, h.inStep.flightPolled,
    emptyWhenUnused_of_used (h.inStep.used hs), fun k => ?_⟩, fun k => ?_, fun k => ?_⟩
  · simp only [Standing.written, hd]; exact h.inStep.orders
  · simp only [Standing.written, hd]; exact h.inStep.flightOrder
  · refine ⟨fun ks => (h.inStep.reason (hr ▸ k)).1 (hd ▸ ks), fun ks => absurd (.inr ⟨hd ▸ ks, hr ▸ k⟩) hoff⟩
  · obtain ⟨h1, h2, h3, h4, h5⟩ := h.ended k
    refine ⟨?_, ?_, ?_, ?_, h5⟩ <;> simp only [Standing.written, hd, hr] <;> assumption
  · obtain ⟨h1, h2⟩ := h.rest k
    exact ⟨by simp only [Standing.written, hd]; exact h1, h2⟩

/-- A reason written on a STARTING bay whose START is sent, or on a STOPPING bay off the stacks (R145). -/
theorem reasoned_laws (h : InStep v) (hrest : v.run = .setup ∨ v.run = .halted → AtRest v) {d : Defrost}
    (hs : v.record.defrost.state = .starting ∧ v.orders = [] ∨ v.record.defrost.state = .stopping ∧ ∀ f, v.ends f = [])
    {r : StopReason} (hr : r ≠ .shed) (hd : d = { v.record.defrost with reason := some r }) :
    BayLaws (v.written d) ∧ BusinessOver (v.written d) := by
  subst hd
  have hoff' : ¬ onShedStack { v.record.defrost with reason := some r } := by
    rcases hs with ⟨hs, -⟩ | ⟨hs, -⟩ <;> simp [onShedStack, hs, hr]
  have hnone (f : FeederIx) : v.ends f = [] := by
    rcases hs with ⟨hs, -⟩ | ⟨-, hs⟩
    · exact h.no_entries (by simp [onShedStack, hs]) f
    · exact hs f
  have hne (x : DefrostState) (h1 : x ≠ .starting) (h2 : x ≠ .stopping) : v.record.defrost.state ≠ x := by
    rcases hs with ⟨hs, -⟩ | ⟨hs, -⟩ <;> rw [hs]
    · exact h1.symm
    · exact h2.symm
  have hover : BusinessOver (v.written { v.record.defrost with reason := some r }) := by
    refine ⟨hne .queued nofun nofun, hne .shed nofun nofun, hne .active nofun nofun, fun k => ⟨rfl, ?_⟩, fun f e he => ?_⟩
    · rcases hs with ⟨-, ho⟩ | ⟨hs, -⟩
      · exact ho
      · exact nomatch hs.symm.trans k
    · have hmem : e ∈ v.ends f := he
      rw [hnone f] at hmem
      cases hmem
  refine ⟨⟨⟨h.queued, h.listed, fun _ _ k => absurd k hoff', fun f _ => hnone f, h.orders, h.flightOrder, h.flightPolled,
    emptyWhenUnused_of_used (h.used (hne .idle nofun nofun)), fun k => absurd (Option.some.inj k) hr⟩, fun _ => hover,
    fun k => rest_elim hrest (hne .idle nofun nofun) (hne .hung nofun nofun) k⟩, hover⟩

/-- The ends of a STOPPING bay's entries written (R143, R145). -/
theorem recorded_laws (h : InStep v) (hrest : v.run = .setup ∨ v.run = .halted → AtRest v)
    (hs : v.record.defrost.state = .stopping) (r : StopReason) :
    BayLaws { v with ends := fun f => (v.ends f).map fun _ => some r }
      ∧ BusinessOver { v with ends := fun f => (v.ends f).map fun _ => some r } := by
  have hover : BusinessOver { v with ends := fun f => (v.ends f).map fun _ => some r } := by
    refine ⟨by simp [hs], by simp [hs], by simp [hs], fun k => (nomatch hs.symm.trans k), fun f e he => ?_⟩
    obtain ⟨_, -, rfl⟩ := List.mem_map.mp he
    rfl
  exact ⟨⟨⟨h.queued, h.listed, fun f hc k => by simpa using h.entry f hc k, fun f k => by simpa using h.noEntry f k, h.orders,
    h.flightOrder, h.flightPolled, h.empty, h.reason⟩, fun _ => hover,
    fun k => rest_elim hrest (by simp [hs]) (by simp [hs]) k⟩, hover⟩

/-- A STARTING bay's START is taken and no end waits: it is ACTIVE (R134). -/
theorem activated_laws (h : BayLaws v) (hs : v.record.defrost.state = .starting) (hf : Free v) (hm : ¬ v.mustEnd) {d : Defrost}
    (hd : d.state = .active) : BayLaws (v.written d) := by
  have hoff : ¬ onShedStack v.record.defrost := by simp [onShedStack, hs]
  refine ⟨⟨by simp [Standing.written, hd, h.inStep.queued, hs], by simp [Standing.written, hd, h.inStep.listed, hs],
    fun _ _ k => by simp [onShedStack, Standing.written, hd] at k, fun g _ => h.inStep.no_entries hoff g, .inl hf.orders,
    fun x hm k hk => (hf.not_order hm hk).elim, h.inStep.flightPolled, emptyWhenUnused_of_used (h.inStep.used (by simp [hs])),
    fun _ => by simp [Standing.written, hd]⟩, fun k => absurd k hm, fun k => rest_elim h.rest (by simp [hs]) (by simp [hs]) k⟩

/-- A bay that stopped on a stack is SHED (R137). -/
theorem shedKept_laws (h : BayLaws v) (hs : v.record.defrost.state = .stopping) (hr : v.record.defrost.reason = some .shed)
    (hf : Free v) (hm : ¬ v.mustEnd) {d : Defrost} (hd : d.state = .shed) (hn : d.reason = none)
    (hc : d.charge = v.record.defrost.charge) : BayLaws (v.written d) := by
  have hon : onShedStack v.record.defrost := .inr ⟨hs, hr⟩
  have hon' : onShedStack d := .inl hd
  refine ⟨⟨by simp [Standing.written, hd, h.inStep.queued, hs], by simp [Standing.written, hd, h.inStep.listed, hs],
    fun g k _ => h.inStep.entry g (hc ▸ k) hon, fun g k => h.inStep.noEntry g fun ⟨k1, _⟩ => k ⟨hc.trans k1, hon'⟩, .inl hf.orders,
    fun x hm k hk => (hf.not_order hm hk).elim, h.inStep.flightPolled, emptyWhenUnused_of_used (h.inStep.used (by simp [hs])),
    fun k => nomatch hn.symm.trans k⟩, fun k => absurd k hm, fun k => rest_elim h.rest (by simp [hs]) (by simp [hs]) k⟩

/-- A bay is HUNG, off the stacks (R138). -/
theorem hung_laws (h : InStep v) (hs : v.record.defrost.state = .stopping) (hf : Free v) {d : Defrost} (hd : d.state = .hung) :
    BayLaws { v with record := { v.record with defrost := d }, ends := fun _ => [] } := by
  have hstep : InStep { v with record := { v.record with defrost := d }, ends := fun _ => [] } :=
    { queued := by simp [hd, h.queued, hs]
      listed := by simp [hd, h.listed, hs]
      entry := fun _ _ k => by simp [onShedStack, hd] at k
      noEntry := fun _ _ => rfl
      orders := .inl hf.orders
      flightOrder := fun x hm k hk => (hf.not_order hm hk).elim
      flightPolled := h.flightPolled
      empty := emptyWhenUnused_of_used (h.used (by simp [hs]))
      reason := fun _ => by simp [hd] }
  exact .of_rest hstep (.inr hd) hf.orders

end Sys2Proof.Machine
end

section
/-! The operations about one bay keep its laws, and let in no current but what fits: ends of business, sheds, the outcomes of
orders, the arbiter's steps of an answered poll. -/

namespace Sys2Proof.Machine

open Sys2Proof.Claims Sys2Proof.Safety

variable {b c : Bay} {f g : FeederIx} {s t u : State} {v w : Standing}

/-! ## What the standing says of the state -/

theorem standing_record (s : State) (b : Bay) : (standing s b).record = bayAt s b := rfl

theorem mem_ends {e : Option StopReason} : e ∈ (standing s b).ends f ↔ ∃ x ∈ (feederAt s f).stack, x.bay = b ∧ x.ended = e := by
  simp only [standing, List.mem_map, List.mem_filter, decide_eq_true_eq, and_assoc]

theorem onStack_iff_ends (s : State) (b : Bay) : onStack s b = true ↔ ∃ f, (standing s b).ends f ≠ [] := by
  rw [onStack_iff]
  refine exists_congr fun f => ⟨fun ⟨e, he, hb⟩ hnil => ?_, fun h => ?_⟩
  · have hmem : e.ended ∈ (standing s b).ends f := mem_ends.mpr ⟨e, he, hb, rfl⟩
    rw [hnil] at hmem
    cases hmem
  · obtain ⟨e, he⟩ := List.exists_mem_of_ne_nil _ h
    obtain ⟨x, hx, hb, -⟩ := mem_ends.mp he
    exact ⟨x, hx, hb⟩

theorem off_stacks (h : onStack s b = false) (f : FeederIx) : (standing s b).ends f = [] := by
  by_contra hne
  rw [(onStack_iff_ends s b).mpr ⟨f, hne⟩] at h
  cases h

/-- A STARTING bay whose START is not in the queue has no order there (R49). -/
theorem InStep.sent (h : InStep (standing s b)) (hs : (bayAt s b).defrost.state = .starting) (hu : startUnsent s b = false) :
    (standing s b).orders = [] := by
  rcases h.orders with k | ⟨k, ho, hk⟩
  · exact k
  · cases k with
    | start r =>
      rw [startUnsent_eq, ho] at hu
      exact nomatch hu
    | stop => exact nomatch hs.symm.trans hk

/-- A STARTING bay whose START is unsent has that order alone (R49). -/
theorem InStep.unsent (h : InStep (standing s b)) (hu : startUnsent s b = true) :
    (∃ r, (standing s b).orders = [.start r]) ∧ stopPlaced (standing s b).orders = []
      ∧ ∀ x ∈ (standing s b).flight, x.kind = .poll := by
  rw [startUnsent_eq] at hu
  rcases h.orders with k | ⟨k, ho, hk⟩
  · rw [k] at hu
    exact nomatch hu
  · cases k with
    | start r => exact ⟨⟨r, ho⟩, by rw [ho]; rfl, h.flight_of_order (by rw [ho]; simp)⟩
    | stop =>
      rw [ho] at hu
      exact nomatch hu

/-! ## Admitted current -/

/-- An operation that admits no more of its bay's draw on any feeder. -/
def AdmitsNoMore (b : Bay) (s t : State) : Prop :=
  ∀ f, admittedDraw f (bayAt t b).defrost ≤ admittedDraw f (bayAt s b).defrost

theorem AdmitsNoMore.refl (b : Bay) (s : State) : AdmitsNoMore b s s := fun _ => Nat.le_refl _

theorem AdmitsNoMore.trans (h : AdmitsNoMore b s t) (k : AdmitsNoMore b t u) : AdmitsNoMore b s u :=
  fun f => Nat.le_trans (k f) (h f)

theorem admittedDraw_of_not {d : Defrost} (h : admittedState d = false) (f : FeederIx) : admittedDraw f d = 0 :=
  if_neg fun k => by rw [h] at k; exact nomatch k.2

theorem AdmitsNoMore.of_not (h : admittedState (bayAt t b).defrost = false) : AdmitsNoMore b s t := fun f => by
  rw [admittedDraw_of_not h]
  exact Nat.zero_le _

theorem AdmitsNoMore.of_eq (h : (bayAt t b).defrost = (bayAt s b).defrost) : AdmitsNoMore b s t := fun f => by rw [h]

/-! ## Ends of business -/

theorem state_endEpisode (b : Bay) (o : DefrostOutcome) (s : State) :
    (bayAt (endEpisode b o s) b).defrost.state = .idle := by
  rw [← standing_record, standing_endEpisode]
  split <;> rfl

theorem endEpisode_admits (b : Bay) (o : DefrostOutcome) (s : State) : AdmitsNoMore b s (endEpisode b o s) :=
  .of_not (by simp [admittedState, state_endEpisode])

theorem state_stopEpisode (b : Bay) (r : StopReason) (s : State) :
    (bayAt (stopEpisode b r s) b).defrost.state = .stopping := by
  rw [← standing_record, standing_stopEpisode]
  rfl

theorem stopEpisode_admits (b : Bay) (r : StopReason) (s : State) : AdmitsNoMore b s (stopEpisode b r s) :=
  .of_not (by simp [admittedState, state_stopEpisode])

/-- The standing of a bay whose unsent START has been withdrawn (R50). -/
theorem withdrawn_inStep (h : InStep (standing s b)) (hu : startUnsent s b = true) :
    InStep (standing (placeStop b s) b) ∧ Free (standing (placeStop b s) b) := by
  obtain ⟨-, hplaced, hpoll⟩ := h.unsent hu
  rw [standing_placeStop, hplaced]
  exact ⟨⟨h.queued, h.listed, h.entry, h.noEntry, .inl rfl, fun x hx k hk => (nomatch (hpoll x hx).symm.trans hk), h.flightPolled,
    h.empty, h.reason⟩, ⟨rfl, hpoll⟩⟩

/-- A bay's defrost business ends: its laws hold afterwards, and it may not start again (R145). -/
theorem endBusiness_laws (h : InStep (standing s b))
    (hrest : (standing s b).run = .setup ∨ (standing s b).run = .halted → AtRest (standing s b)) {r : StopReason} (hr : r ≠ .shed) :
    BayLaws (standing (endBusiness b r s) b) ∧ BusinessOver (standing (endBusiness b r s) b) := by
  have hend {t : State} (hl : BayLaws (standing (endEpisode b (outcomeOf r) t) b)) :
      BayLaws (standing (endEpisode b (outcomeOf r) t) b) ∧ BusinessOver (standing (endEpisode b (outcomeOf r) t) b) :=
    ⟨hl, hl.inStep.over (.inl (state_endEpisode b _ t))⟩
  cases hs : (bayAt s b).defrost.state with
  | idle | hung =>
    rw [endBusiness_of_rest (by simp [hs])]
    have hrest : (standing s b).record.defrost.state = .idle ∨ (standing s b).record.defrost.state = .hung := by
      simp [standing_record, hs]
    exact ⟨.of_rest h hrest (h.free (by simp [standing_record, hs]) (by simp [standing_record, hs])).orders, h.over hrest⟩
  | queued | shed =>
    have hended : endBusiness b r s = endEpisode b (outcomeOf r) s := by
      unfold endBusiness
      rw [hs]
    rw [hended]
    exact hend (endEpisode_laws h (by simp [hs]) (h.free (by simp [standing_record, hs]) (by simp [standing_record, hs])) _)
  | active =>
    rw [endBusiness_of_active hs, standing_stopEpisode]
    exact stopped_laws h (.inr hs) (h.free (by simp [standing_record, hs]) (by simp [standing_record, hs])) hrest hr
  | starting =>
    cases hu : startUnsent s b with
    | true =>
      have hended : endBusiness b r s = endEpisode b (outcomeOf r) (placeStop b s) := by
        unfold endBusiness
        rw [hs]
        exact if_pos hu
      obtain ⟨hstep, hfree⟩ := withdrawn_inStep h hu
      rw [hended]
      refine hend (endEpisode_laws hstep ?_ hfree _)
      rw [bayAt_congr (placeStop_bays b s), hs]
      nofun
    | false =>
      have hnoted : endBusiness b r s = modDefrost b (fun d => { d with reason := some r }) s := by
        unfold endBusiness
        rw [hs]
        exact if_neg (by rw [hu]; nofun)
      rw [hnoted, standing_modDefrost]
      exact reasoned_laws h hrest (.inl ⟨hs, h.sent hs hu⟩) hr rfl
  | stopping =>
    rw [endBusiness_of_stopping hs]
    split
    · rw [standing_recordEnd]
      exact recorded_laws h hrest hs r
    · next hon =>
      rw [standing_modDefrost]
      exact reasoned_laws h hrest (.inr ⟨hs, off_stacks (by simpa using hon)⟩) hr rfl

theorem admitted_keepsReason (d : Defrost) (r : Option StopReason) (f : FeederIx) :
    admittedDraw f { d with reason := r } = admittedDraw f d := rfl

theorem endBusiness_admits (b : Bay) (r : StopReason) (s : State) : AdmitsNoMore b s (endBusiness b r s) := by
  rcases endBusiness_cases b r s with h | h | ⟨-, h⟩ | ⟨-, h⟩ | ⟨-, h⟩ | h <;> rw [h]
  · exact .refl b s
  · exact endEpisode_admits b _ s
  · exact (AdmitsNoMore.of_eq (by rw [bayAt_congr (placeStop_bays b s)])).trans (endEpisode_admits b _ _)
  · exact stopEpisode_admits b r s
  · exact .of_eq rfl
  · intro f
    rw [bayAt_modDefrost_same]
    exact Nat.le_of_eq (admitted_keepsReason _ _ f)

/-! ## Sheds -/

/-- A STARTING or ACTIVE bay charged to a feeder whose TAKEN has come is shed (R134, R141). -/
theorem shedRunning_laws (h : BayLaws (standing s b))
    (hs : (bayAt s b).defrost.state = .starting ∨ (bayAt s b).defrost.state = .active) (hf : Free (standing s b))
    (hc : (bayAt s b).defrost.charge = .feeder f) (hm : ¬ (standing s b).mustEnd) :
    BayLaws (standing (shedRunning f b s) b) := by
  unfold shedRunning
  split
  · rw [standing_stopEpisode, standing_pushShed]
    exact shedStopped_laws h hs hf hc hm
  · rw [standing_stopEpisode, standing_refusePush]
    exact (stopped_laws (r := .overflow) h.inStep hs hf h.rest (by decide)).1

theorem state_shedRunning (f : FeederIx) (b : Bay) (s : State) : (bayAt (shedRunning f b s) b).defrost.state = .stopping := by
  unfold shedRunning
  split <;> exact state_stopEpisode b _ _

theorem shedRunning_admits (f : FeederIx) (b : Bay) (s : State) : AdmitsNoMore b s (shedRunning f b s) :=
  .of_not (by simp [admittedState, state_shedRunning])

theorem shedUnsent_laws (h : BayLaws (standing s b)) (hs : (bayAt s b).defrost.state = .starting)
    (hu : startUnsent s b = true) (hc : (bayAt s b).defrost.charge = .feeder f) (hm : ¬ (standing s b).mustEnd) :
    BayLaws (standing (shedUnsent f b s) b) := by
  obtain ⟨-, hplaced, hpoll⟩ := h.inStep.unsent hu
  unfold shedUnsent
  split
  · rw [standing_owePass, standing_modDefrost, standing_pushShed, standing_leaveActive, standing_placeStop, hplaced]
    exact shedAtOnce_laws h hs hpoll hc hm
  · obtain ⟨hstep, hfree⟩ := withdrawn_inStep h.inStep hu
    refine endEpisode_laws (by rw [standing_refusePush]; exact hstep) ?_ (by rw [standing_refusePush]; exact hfree) _
    rw [bayAt_congr (refusePush_bays f b _), bayAt_congr (placeStop_bays b s), hs]
    nofun

/-- A bay charged to a feeder is shed, whatever its defrost state (R141). -/
theorem shed_laws (h : BayLaws (standing s b)) (hc : (bayAt s b).defrost.charge = .feeder f) :
    BayLaws (standing (shed f b s) b) := by
  unfold shed
  split
  · next hs =>
    have hs' : (standing s b).record.defrost.state = .starting := hs
    split
    · next hu =>
      refine shedUnsent_laws h hs hu hc fun hm => ?_
      obtain ⟨⟨r, ho⟩, -⟩ := h.inStep.unsent hu
      exact nomatch ho.symm.trans ((h.ended hm).starting hs).2
    · rw [standing_modDefrost]
      exact recharged_laws h (by simp [onShedStack, hs']) (by simp [hs']) rfl rfl
  · next hs =>
    have hs' : (standing s b).record.defrost.state = .active := hs
    exact shedRunning_laws h (.inr hs) (h.inStep.free (by simp [hs']) (by simp [hs'])) hc fun hm => (h.ended hm).notActive hs
  · exact h

/-- A shed leaves nothing of its bay's draw admitted, on whatever feeder it is charged. -/
theorem admittedState_shed (hs : (bayAt s b).defrost.state = .starting ∨ (bayAt s b).defrost.state = .active) (f : FeederIx) :
    admittedState (bayAt (shed f b s) b).defrost = false := by
  rcases hs with hs | ha
  · by_cases hw : startWaits s b
    · rw [shed_of_unsent hs hw]
      by_cases hroom : (feederAt s f).stack.length < 8
      · rw [bayAt_shedUnsent_room hroom]
        rfl
      · rw [shedUnsent_full (Nat.not_lt.mp hroom)]
        simp [admittedState, state_endEpisode]
    · rw [shed_of_sent hs hw, bayAt_modDefrost_same]
      simp [admittedState, hs]
  · rw [shed_of_active ha]
    simp [admittedState, state_shedRunning]

/-! ## The outcomes of orders -/

theorem startTaken_unshed (hr : (bayAt s b).defrost.reason = none)
    (h : ¬ ((bayAt s b).defrost.shedPending = true ∧ ∃ f, (bayAt s b).defrost.charge = .feeder f)) :
    startTaken b s = modDefrost b (fun d => { d with state := .active, shedPending := false }) s := by
  unfold startTaken
  dsimp only
  rw [hr]
  dsimp only
  split
  · next f hp hc => exact absurd ⟨hp, f, hc⟩ h
  · rfl

/-- TAKEN for a STARTING bay without an order, on the loop or in the queue (R134). -/
theorem startTaken_laws (h : BayLaws (standing s b)) (hf : Free (standing s b)) (hs : (bayAt s b).defrost.state = .starting) :
    BayLaws (standing (startTaken b s) b) ∧ AdmitsNoMore b s (startTaken b s) := by
  have hs' : (standing s b).record.defrost.state = .starting := hs
  have hgoes (hr : (bayAt s b).defrost.reason = none) : ¬ (standing s b).mustEnd := fun hm => by
    have hsome := ((h.ended hm).starting hs).1
    rw [standing_record, hr] at hsome
    cases hsome
  cases hr : (bayAt s b).defrost.reason with
  | some r =>
    rw [startTaken_stopped hr, standing_stopEpisode]
    have hne : r ≠ .shed := fun k => (h.inStep.reason (hr.trans (congrArg some k))).1 hs
    exact ⟨(stopped_laws h.inStep (.inl hs) hf h.rest hne).1, stopEpisode_admits b r s⟩
  | none =>
    by_cases hshed : (bayAt s b).defrost.shedPending = true ∧ ∃ f, (bayAt s b).defrost.charge = .feeder f
    · obtain ⟨hp, f, hc⟩ := hshed
      rw [startTaken_shed hr hp hc]
      exact ⟨shedRunning_laws h (.inl hs) hf hc (hgoes hr), shedRunning_admits f b s⟩
    · rw [startTaken_unshed hr hshed, standing_modDefrost]
      refine ⟨activated_laws h hs hf (hgoes hr) rfl, fun f => ?_⟩
      rw [bayAt_modDefrost_same]
      by_cases hc : (bayAt s b).defrost.charge = .feeder f
      · have hp : (bayAt s b).defrost.shedPending = false := by simpa using fun k => hshed ⟨k, f, hc⟩
        exact Nat.le_of_eq (by simp [admittedDraw, admittedState, hs, hp])
      · simp [admittedDraw, hc]

theorem startAnswered_laws (h : BayLaws (standing s b)) (hf : Free (standing s b)) (hs : (bayAt s b).defrost.state = .starting)
    (r : AckResult) : BayLaws (standing (startAnswered b r s) b) ∧ AdmitsNoMore b s (startAnswered b r s) := by
  rcases startAnswered_cases b r s with ⟨-, k⟩ | ⟨-, k⟩ <;> rw [k]
  · exact startTaken_laws h hf hs
  · exact ⟨endEpisode_laws h.inStep (by rw [hs]; nofun) hf _, endEpisode_admits b _ s⟩

/-- A bay that stops on a stack has its entry there (R129, R141). -/
theorem InStep.entry_of_stopping (h : InStep (standing s b)) (hs : (bayAt s b).defrost.state = .stopping)
    (hr : (bayAt s b).defrost.reason = some .shed) : onStack s b = true := by
  obtain ⟨f, hc⟩ := (h.reason hr).2 hs
  refine (onStack_iff_ends s b).mpr ⟨f, fun hnil => ?_⟩
  have hlen := h.entry f hc (.inr ⟨hs, hr⟩)
  rw [hnil] at hlen
  cases hlen

/-- The end recorded on the entry of a bay whose business is over. -/
theorem BusinessOver.recorded (h : BusinessOver (standing s b)) (hon : onStack s b = true) :
    ∃ r, (stackEntry s b).bind (·.ended) = some r := by
  obtain ⟨e, he⟩ := Option.isSome_iff_exists.mp hon
  have hbay : e.bay = b := by simpa using List.find?_some he
  obtain ⟨f, -, hf⟩ := List.mem_flatMap.mp (List.mem_of_find?_eq_some he)
  obtain ⟨r, hr⟩ := Option.isSome_iff_exists.mp (h.ends f _ (mem_ends.mpr ⟨e, hf, hbay, rfl⟩))
  exact ⟨r, by rw [he]; exact hr⟩

theorem stopAnswered_laws (h : BayLaws (standing s b)) (hf : Free (standing s b)) (hs : (bayAt s b).defrost.state = .stopping) :
    BayLaws (standing (stopAnswered b s) b) ∧ AdmitsNoMore b s (stopAnswered b s) := by
  have hend (o : DefrostOutcome) : BayLaws (standing (endEpisode b o s) b) ∧ AdmitsNoMore b s (endEpisode b o s) :=
    ⟨endEpisode_laws h.inStep (by rw [hs]; nofun) hf o, endEpisode_admits b o s⟩
  rcases stopAnswered_cases b s with ⟨r, k⟩ | ⟨hr, k⟩ | ⟨-, k⟩
  · rw [k]
    exact hend _
  · by_cases he : (stackEntry s b).bind (·.ended) = none
    · rw [k, standing_owePass, standing_modDefrost]
      refine ⟨shedKept_laws h hs hr hf (fun hm => ?_) rfl rfl rfl, .of_not ?_⟩
      · obtain ⟨r, hsome⟩ := (h.ended hm).recorded (h.inStep.entry_of_stopping hs hr)
        exact nomatch he.symm.trans hsome
      · show admittedState (bayAt (modDefrost b (fun d => { d with state := .shed, reason := none }) s) b).defrost = false
        rw [bayAt_modDefrost_same]
        rfl
    · obtain ⟨r, hsome⟩ := Option.ne_none_iff_exists'.mp he
      rw [stopAnswered_recorded hr hsome]
      exact hend _
  · rw [k]
    exact ⟨h, .refl b s⟩

theorem stopUnanswered_laws (h : BayLaws (standing s b)) (hf : Free (standing s b)) (hs : (bayAt s b).defrost.state = .stopping) :
    BayLaws (standing (stopUnanswered b s) b) ∧ AdmitsNoMore b s (stopUnanswered b s) := by
  have hhung : (bayAt (hungTold b s) b).defrost.state = .hung := by rw [bayAt_hungTold]
  have hlaws : BayLaws (standing (hungTold b s) b) := by
    rw [hungTold, standing_raiseAlert, standing_modDefrost, standing_owePassIf, standing_leaveStacks]
    exact hung_laws h.inStep hs hf rfl
  rw [stopUnanswered_eq]
  split
  · rw [standing_departHung]
    refine ⟨emptied_laws hlaws.inStep (.inr hhung) (hlaws.inStep.free (by simp [standing_record, hhung])
      (by simp [standing_record, hhung])), .of_not ?_⟩
    have hidle : (bayAt (departHung b (hungTold b s)) b).defrost.state = .idle := by
      rw [← standing_record, standing_departHung]
      rfl
    simp [admittedState, hidle]
  · exact ⟨hlaws, .of_not (by simp [admittedState, hhung])⟩

theorem orderOutcome_laws (h : BayLaws (standing s b)) (hf : Free (standing s b)) (o : OrderKind) (r : Option AckResult) :
    BayLaws (standing (orderOutcome b o r s) b) ∧ AdmitsNoMore b s (orderOutcome b o r s) := by
  rcases orderOutcome_cases b o r s with ⟨_, a, -, -, hs, k⟩ | ⟨_, -, -, hs, k⟩ | ⟨-, -, hs, k⟩ | ⟨-, -, hs, k⟩ | k <;> rw [k]
  · exact startAnswered_laws h hf hs a
  · rw [standing_stopEpisode]
    exact ⟨(stopped_laws (r := .unconfirmed) h.inStep (.inl hs) hf h.rest (by decide)).1, stopEpisode_admits b _ s⟩
  · exact stopAnswered_laws h hf hs
  · exact stopUnanswered_laws h hf hs
  · exact ⟨h, .refl b s⟩

/-! ## An answered poll -/

/-- Whether a record is the same as another to the laws, but for the door: its defrost state, reason, charge and draw are, and
it is polled if the other is. -/
structure SameToLaws (r r' : BayRecord) : Prop where
  state : r'.defrost.state = r.defrost.state
  charge : r'.defrost.charge = r.defrost.charge
  reason : r'.defrost.reason = r.defrost.reason
  draw : r'.defrost.draw = r.defrost.draw
  shedPending : r'.defrost.shedPending = r.defrost.shedPending
  polled : polled r.occupancy = true → polled r'.occupancy = true
  empty : EmptyWhenUnused r'

theorem SameToLaws.inStep {r : BayRecord} (h : InStep v) (k : SameToLaws v.record r) : InStep { v with record := r } := by
  obtain ⟨h1, h2, h3, -, -, h4, h5⟩ := k
  refine ⟨?_, ?_, ?_, ?_, ?_, ?_, fun x hx hv => h4 (h.flightPolled x hx hv), h5, ?_⟩ <;>
    simp only [h1, h2, h3, onShedStack]
  · exact h.queued
  · exact h.listed
  · exact h.entry
  · exact h.noEntry
  · exact h.orders
  · exact h.flightOrder
  · exact h.reason

theorem SameToLaws.laws {r : BayRecord} (h : BayLaws v) (k : SameToLaws v.record r)
    (hd : r.door.confirmed = .opened → v.record.door.confirmed = .opened) : BayLaws { v with record := r } := by
  have hstep := k.inStep h.inStep
  obtain ⟨h1, -, h3, -, -, -, -⟩ := k
  refine ⟨hstep, fun hm => ?_, fun hr => ⟨?_, (h.rest hr).orders⟩⟩
  · obtain ⟨a, b, c, d, e⟩ := h.ended (hm.imp hd id)
    refine ⟨?_, ?_, ?_, ?_, e⟩ <;> simp only [h1, h3] <;> assumption
  · simp only [h1]
    exact (h.rest hr).state

theorem SameToLaws.admittedDraw {r r' : BayRecord} (h : SameToLaws r r') (f : FeederIx) :
    admittedDraw f r'.defrost = admittedDraw f r.defrost := by
  have hs : admittedState r'.defrost = admittedState r.defrost := by
    unfold admittedState
    rw [h.state, h.shedPending]
  simp only [Machine.admittedDraw, hs, h.charge, h.draw]

theorem modeStep_laws (h : BayLaws (standing s b)) (m : Mode) :
    BayLaws (standing (modeStep b m s) b) ∧ AdmitsNoMore b s (modeStep b m s) := by
  have hend (hs : (bayAt s b).defrost.state = .active ∨ (bayAt s b).defrost.state = .hung) (o : DefrostOutcome) :
      BayLaws (standing (endEpisode b o s) b) ∧ AdmitsNoMore b s (endEpisode b o s) :=
    ⟨endEpisode_laws h.inStep (by rcases hs with hs | hs <;> simp [hs])
      (h.inStep.free (by rcases hs with hs | hs <;> simp [standing_record, hs])
        (by rcases hs with hs | hs <;> simp [standing_record, hs])) o, endEpisode_admits b o s⟩
  rcases modeStep_cases b m s with k | ⟨hs, -, k⟩ | ⟨hs, -, -, k⟩ | ⟨_, hs, -, -, k⟩ <;> rw [k]
  · exact ⟨h, .refl b s⟩
  · exact hend (.inl hs) _
  · exact hend (.inl hs) _
  · exact hend (.inr hs) _

end Sys2Proof.Machine
end

section
/-! The laws of every bay and of the feeders' budgets together (R110), and the operations of a change that keep them. -/

namespace Sys2Proof.Machine

open Sys2Proof.Claims Sys2Proof.Safety

variable {b c : Bay} {f g : FeederIx} {s t u : State} {v w : Standing}

/-! ## The laws of the yard -/

/-- Every bay's laws, and each feeder's admitted current within its budget. -/
structure DefrostLaws (s : State) : Prop where
  bays : ∀ b, BayLaws (standing s b)
  budget : ∀ f, admitted s f ≤ (feederAt s f).budget

theorem admitted_le_committed (s : State) (f : FeederIx) : admitted s f ≤ committed s f := by
  refine List.sum_le_sum fun b _ => ?_
  unfold admittedDraw committedDraw
  split
  · next h =>
    have hc : counted (bayAt s b).defrost.state = true := by
      have ha := h.2
      unfold admittedState at ha
      cases hs : (bayAt s b).defrost.state <;> simp_all [counted]
    rw [if_pos ⟨h.1, hc⟩]
  · exact Nat.zero_le _

/-- An operation about one bay admits no more of its draw than before, or no more than fits the feeder. -/
def AdmitsWithin (b : Bay) (s t : State) : Prop :=
  ∀ f, admittedDraw f (bayAt t b).defrost ≤ admittedDraw f (bayAt s b).defrost
    ∨ committed s f + admittedDraw f (bayAt t b).defrost ≤ (feederAt s f).budget

theorem AdmitsNoMore.within (h : AdmitsNoMore b s t) : AdmitsWithin b s t := fun f => .inl (h f)

/-- An operation about one bay keeps all laws if it keeps that bay's and admits no current but what fits. -/
theorem DefrostLaws.act {K : Category → Prop} (h : DefrostLaws s) (k : ActsOn b K s t) (hb : Keeps s t)
    (hl : BayLaws (standing t b)) (hd : AdmitsWithin b s t) : DefrostLaws t := by
  refine ⟨fun c => ?_, fun f => ?_⟩
  · by_cases hc : c = b
    · exact hc ▸ hl
    · rw [k.standing_eq hc]
      exact h.bays c
  · rw [hb.budget]
    have hsum := admitted_of_others k.records f
    have hs := h.budget f
    have hle := admitted_le_committed s f
    rcases hd f with hd | hd <;> omega

/-- Records that are the same to the laws, with nothing else of the defrost business changed. -/
theorem DefrostLaws.rerecord (h : DefrostLaws s) (ha : t.arb = s.arb) (ho : t.loop.orders = s.loop.orders)
    (hx : t.loop.exchange = s.loop.exchange) (hr : t.run.state = s.run.state)
    (hk : ∀ c, SameToLaws (bayAt s c) (bayAt t c))
    (hd : ∀ c, (bayAt t c).door.confirmed = .opened → (bayAt s c).door.confirmed = .opened) : DefrostLaws t := by
  refine ⟨fun c => ?_, fun f => ?_⟩
  · have hst : standing t c = { standing s c with record := bayAt t c } := by simp only [standing, feederAt, ha, ho, hx, hr]
    rw [hst]
    exact (hk c).laws (h.bays c) (hd c)
  · have hadm : admitted t f = admitted s f := by
      simp only [admitted, (hk _).admittedDraw]
    rw [hadm, feederAt, ha]
    exact h.budget f

theorem SameToLaws.refl {r : BayRecord} (h : EmptyWhenUnused r) : SameToLaws r r := ⟨rfl, rfl, rfl, rfl, rfl, id, h⟩

/-- Nothing of the defrost business changed. -/
theorem DefrostLaws.congr (h : DefrostLaws s) (hb : t.bays = s.bays) (ha : t.arb = s.arb) (ho : t.loop.orders = s.loop.orders)
    (hx : t.loop.exchange = s.loop.exchange) (hr : t.run.state = s.run.state) : DefrostLaws t :=
  h.rerecord ha ho hx hr (fun c => by rw [bayAt_congr hb c]; exact .refl (h.bays c).inStep.empty)
    fun c k => by rw [bayAt_congr hb c] at k; exact k

theorem DefrostLaws.empty (h : DefrostLaws s) (b : Bay) : EmptyWhenUnused (bayAt s b) := (h.bays b).inStep.empty

/-- One bay's record written to one that is the same to the laws. -/
theorem DefrostLaws.modBay (h : DefrostLaws s) {g : BayRecord → BayRecord} (hk : SameToLaws (bayAt s b) (g (bayAt s b)))
    (hd : (g (bayAt s b)).door.confirmed = .opened → (bayAt s b).door.confirmed = .opened) : DefrostLaws (modBay b g s) := by
  refine h.rerecord rfl rfl rfl rfl (fun c => ?_) fun c k => ?_
  · by_cases hc : c = b
    · rw [hc, bayAt_modBay_same]
      exact hk
    · rw [bayAt_modBay_ne hc]
      exact .refl (h.empty c)
  · by_cases hc : c = b
    · subst hc
      rw [bayAt_modBay_same] at k
      exact hd k
    · rwa [bayAt_modBay_ne hc] at k

/-- Every bay's record written to one that is the same to the laws. -/
theorem DefrostLaws.mapBays (h : DefrostLaws s) {g : BayRecord → BayRecord} (hk : ∀ c, SameToLaws (bayAt s c) (g (bayAt s c)))
    (hd : ∀ r, (g r).door.confirmed = .opened → r.door.confirmed = .opened) : DefrostLaws (mapBays g s) :=
  h.rerecord (mapBays_arb g s) (congrArg LoopControl.orders (mapBays_loop g s)) (congrArg LoopControl.exchange (mapBays_loop g s))
    (by rw [mapBays_run]) (fun c => by rw [bayAt_mapBays]; exact hk c) fun c k => by rw [bayAt_mapBays] at k; exact hd _ k

theorem DefrostLaws.raiseAlert (h : DefrostLaws s) (k : Category) (e : Element) : DefrostLaws (raiseAlert k e s) :=
  h.congr rfl rfl rfl rfl rfl

theorem DefrostLaws.owePassIf (h : DefrostLaws s) (x : Bool) : DefrostLaws (owePassIf x s) := by
  rcases owePassIf_cases x s with e | e <;> rw [e]
  · exact h.congr rfl rfl rfl rfl rfl
  · exact h

/-! ## Ends of business -/

theorem DefrostLaws.endBusiness (h : DefrostLaws s) {r : StopReason} (hr : r ≠ .shed) (b : Bay) :
    DefrostLaws (endBusiness b r s) :=
  h.act (endBusiness_actsOn b r s) (endBusiness_keeps b r s) (endBusiness_laws (h.bays b).inStep (h.bays b).rest hr).1
    (endBusiness_admits b r s).within

theorem DefrostLaws.stopEpisode (h : DefrostLaws s) (hs : (bayAt s b).defrost.state = .active) {r : StopReason} (hr : r ≠ .shed) :
    DefrostLaws (stopEpisode b r s) := by
  refine h.act (stopEpisode_actsOn b (fun _ => False) r s) (stopEpisode_keeps b r s) ?_ (stopEpisode_admits b r s).within
  rw [standing_stopEpisode]
  exact (stopped_laws (h.bays b).inStep (.inr hs)
    ((h.bays b).inStep.free (by simp [standing_record, hs]) (by simp [standing_record, hs])) (h.bays b).rest hr).1

theorem DefrostLaws.orderOutcome (h : DefrostLaws s) (hf : Free (standing s b)) (o : OrderKind) (r : Option AckResult) :
    DefrostLaws (orderOutcome b o r s) := by
  obtain ⟨hl, hd⟩ := orderOutcome_laws (h.bays b) hf o r
  exact h.act (orderOutcome_actsOn b o r s) (orderOutcome_keeps b o r s) hl hd.within

theorem DefrostLaws.modeStep (h : DefrostLaws s) (m : Mode) (b : Bay) : DefrostLaws (modeStep b m s) := by
  obtain ⟨hl, hd⟩ := modeStep_laws (h.bays b) m
  exact h.act (modeStep_actsOn b m s) (modeStep_keeps b m s) hl hd.within

/-! ## The charge follows the run source -/

/-- A bay whose charge follows its run source stands on no shed stack (R148). -/
theorem InStep.off_of_chargeFollows (h : InStep (standing s b)) (hf : chargeFollows s b = true) :
    ¬ onShedStack (bayAt s b).defrost ∧ (bayAt s b).defrost.state ≠ .idle := by
  unfold chargeFollows at hf
  cases hs : (bayAt s b).defrost.state <;> rw [hs] at hf <;> simp [onShedStack, hs] at hf ⊢
  intro hr
  rw [h.entry_of_stopping hs hr] at hf
  exact nomatch hf

theorem DefrostLaws.chargeToSelf (h : DefrostLaws s) (hf : chargeFollows s b = true) : DefrostLaws (chargeToSelf b s) := by
  obtain ⟨hoff, hs⟩ := (h.bays b).inStep.off_of_chargeFollows hf
  have hmod : DefrostLaws (modDefrost b (fun d => { d with charge := .self, shedPending := false }) s) := by
    refine h.act (modDefrost_actsOn b (fun _ => False) _ s) (modDefrost_keeps b _ s) ?_ fun f => .inl ?_
    · rw [standing_modDefrost]
      exact recharged_laws (h.bays b) hoff hs rfl rfl
    · rw [bayAt_modDefrost_same]
      exact Nat.le_trans (Nat.le_of_eq (if_neg fun k => nomatch k.1)) (Nat.zero_le _)
  exact hmod.owePassIf _

/-- A SELF charge moves to a feeder, where it fits or the bay is shed (R148). -/
theorem DefrostLaws.chargeToFeeder (h : DefrostLaws s) (hf : chargeFollows s b = true) (f : FeederIx) :
    DefrostLaws (chargeToFeeder b f s) := by
  obtain ⟨hoff, hs⟩ := (h.bays b).inStep.off_of_chargeFollows hf
  have hl : BayLaws (standing (chargedTo f b s) b) := by
    rw [chargedTo, standing_modDefrost]
    exact recharged_laws (h.bays b) hoff hs rfl rfl
  have hkeeps : Keeps s (chargedTo f b s) := modDefrost_keeps b _ s
  by_cases hrun : (bayAt s b).defrost.state = .starting ∨ (bayAt s b).defrost.state = .active
  · by_cases hfit : committed s f + (bayAt s b).defrost.draw ≤ (feederAt s f).budget
    · rw [chargeToFeeder_kept (.inl hfit)]
      refine h.act (modDefrost_actsOn b (fun _ => False) _ s) hkeeps hl fun g => ?_
      rw [bayAt_chargedTo]
      by_cases hg : g = f
      · subst hg
        refine .inr (Nat.le_trans (Nat.add_le_add_left ?_ _) hfit)
        unfold admittedDraw
        split
        · exact Nat.le_refl _
        · exact Nat.zero_le _
      · exact .inl (Nat.le_trans (Nat.le_of_eq (if_neg fun k => hg (Charge.feeder.inj k.1).symm)) (Nat.zero_le _))
    · rw [chargeToFeeder_shed hfit hrun]
      have hrun' : (bayAt (chargedTo f b s) b).defrost.state = .starting
          ∨ (bayAt (chargedTo f b s) b).defrost.state = .active := by rw [bayAt_chargedTo]; exact hrun
      have hacts := (modDefrost_actsOn b (fun c => c = .power) (fun d => { d with charge := .feeder f }) s).trans
        (shed_actsOn f b (chargedTo f b s))
      exact h.act hacts (hkeeps.trans (shed_keeps f b _)) (shed_laws hl (by rw [bayAt_chargedTo]))
        (AdmitsNoMore.of_not (admittedState_shed hrun' f)).within
  · have hrest : (bayAt s b).defrost.state = .stopping ∨ (bayAt s b).defrost.state = .hung := by
      unfold chargeFollows at hf
      cases hs : (bayAt s b).defrost.state <;> simp_all
    rw [chargeToFeeder_kept (.inr hrest)]
    refine h.act (modDefrost_actsOn b (fun _ => False) _ s) hkeeps hl (AdmitsNoMore.of_not ?_).within
    rw [bayAt_chargedTo]
    rcases hrest with hs | hs <;> simp [admittedState, hs]

theorem DefrostLaws.sourceStep (h : DefrostLaws s) (src : Source) (b : Bay) : DefrostLaws (sourceStep b src s) := by
  rcases sourceStep_cases b src s with k | ⟨hf, -, k⟩ | ⟨f, hf, -, -, k⟩ <;> rw [k]
  · exact h
  · exact h.chargeToSelf hf
  · exact h.chargeToFeeder hf f

/-! ## Checks and polls -/

theorem used_of_polled {r : BayRecord} (h : polled r.occupancy = true) :
    ¬ (r.occupancy = .vacant ∨ r.occupancy = .outOfService) := by
  rintro (k | k) <;> rw [k] at h <;> cases h

/-- A write that leaves defrost record and occupancy of a polled bay. -/
theorem sameToLaws_of_polled {r r' : BayRecord} (hp : polled r.occupancy = true) (hd : r'.defrost = r.defrost)
    (ho : r'.occupancy = r.occupancy) : SameToLaws r r' :=
  ⟨by rw [hd], by rw [hd], by rw [hd], by rw [hd], by rw [hd], fun k => ho ▸ k,
    emptyWhenUnused_of_used (used_of_polled (ho ▸ hp))⟩

/-- A stage of a check that writes its own fields of a polled bay's record and may raise its alert. -/
theorem DefrostLaws.stage (h : DefrostLaws s) (hp : polled (bayAt s b).occupancy = true) {g : BayRecord → BayRecord}
    (hg : ∀ r, (g r).defrost = r.defrost ∧ (g r).occupancy = r.occupancy ∧ (g r).door = r.door) (p : Bool) (x : Category) :
    DefrostLaws (raiseFor p x b (Machine.modBay b g s))
      ∧ polled (bayAt (raiseFor p x b (Machine.modBay b g s)) b).occupancy = true := by
  obtain ⟨hd, ho, hdoor⟩ := hg (bayAt s b)
  have hmod : DefrostLaws (Machine.modBay b g s) :=
    h.modBay (sameToLaws_of_polled hp hd ho) fun k => by rw [hdoor] at k; exact k
  refine ⟨?_, ?_⟩
  · cases p with
    | true => exact hmod.raiseAlert x _
    | false => exact hmod
  · rw [bayAt_congr (raiseFor_bays p x b _), bayAt_modBay_same, ho]
    exact hp

/-- The door stage: where the door is newly OPEN the bay's business is ended (R101, R145). -/
theorem DefrostLaws.checkDoor (h : DefrostLaws s) (hp : (bayAt s b).occupancy = .parked) (report : DoorReport) :
    DefrostLaws (checkDoor b report s) ∧ polled (bayAt (checkDoor b report s) b).occupancy = true := by
  have hpolled : polled (bayAt s b).occupancy = true := by rw [hp]; rfl
  have hsame : SameToLaws (bayAt s b) (watchedRecord report (bayAt s b)) := sameToLaws_of_polled hpolled rfl rfl
  refine ⟨?_, ?_⟩
  · rw [checkDoor_eq]
    split
    · have hst : standing (doorWatched b report s) b = { standing s b with record := watchedRecord report (bayAt s b) } :=
        standing_modBay b (watchedRecord report) s
      have hstep : InStep (standing (doorWatched b report s) b) := by
        rw [hst]
        exact hsame.inStep (h.bays b).inStep
      have hrest : (standing (doorWatched b report s) b).run = .setup ∨ (standing (doorWatched b report s) b).run = .halted →
          AtRest (standing (doorWatched b report s) b) := by
        rw [hst]
        exact fun k => ⟨((h.bays b).rest k).state, ((h.bays b).rest k).orders⟩
      have hwatched : (bayAt (doorWatched b report s) b).defrost = (bayAt s b).defrost := by
        rw [doorWatched, bayAt_modBay_same]
        rfl
      exact h.act ((modBay_actsOn b _ _ s).trans (endBusiness_actsOn b .door _))
        ((modBay_keeps b _ s).trans (endBusiness_keeps b .door _)) (endBusiness_laws hstep hrest (by decide)).1
        ((AdmitsNoMore.of_eq hwatched).trans (endBusiness_admits b .door _)).within
    · next hn =>
      refine h.modBay hsame fun k => ?_
      by_contra hopen
      refine hn ((doorStage_eq report _).2.2.mpr ⟨hopen, ?_⟩)
      rw [← (doorStage_eq report _).1]
      exact k
  · obtain ⟨d, hd⟩ := record_checkDoor (s := s) (b := b) (by rw [hp]; nofun) report
    rw [hd]
    exact hpolled

theorem standing_joinQueue (b : Bay) (o : Origin) (s : State) : standing (joinQueue b o s) b = (standing s b).joined o := by
  have hq : standing { s with arb := { s.arb with queue := s.arb.queue ++ [⟨b, o, s.run.yardMinute, 0⟩] } } b
      = { standing s b with queued := (standing s b).queued + 1 } := by
    have h : ((s.arb.queue ++ [(⟨b, o, s.run.yardMinute, 0⟩ : QueueEntry)]).filter fun q => decide (q.bay = b)).length
        = (s.arb.queue.filter fun q => decide (q.bay = b)).length + 1 := by simp
    simp only [standing, h]
    rfl
  rw [joinQueue, standing_owePass, standing_modDefrost, hq]
  rfl

/-- A demand joins the queue of a polled bay without business that may start (R82, R118). -/
theorem DefrostLaws.joinQueue (h : DefrostLaws s) (hp : polled (bayAt s b).occupancy = true)
    (hs : (bayAt s b).defrost.state = .idle) (hd : (bayAt s b).door.confirmed ≠ .opened) (hr : s.run.state = .running)
    (o : Origin) : DefrostLaws (joinQueue b o s) := by
  have hst := standing_joinQueue b o s
  refine h.act (joinQueue_actsOn b (fun _ => False) o s) (joinQueue_keeps b o s) ?_ (AdmitsNoMore.of_not ?_).within
  · rw [hst]
    exact joined_laws (h.bays b) hs (fun k => k.elim hd fun k => k hr) hp o
  · rw [← standing_record, hst]
    rfl

end Sys2Proof.Machine
end

section
/-! The end of an exchange and the other operations about one bay keep the laws of the defrost business. -/

namespace Sys2Proof.Machine

open Sys2Proof.Claims Sys2Proof.Safety

variable {b c : Bay} {f g : FeederIx} {s t u : State} {v w : Standing}

theorem checkInputs_eq (b : Bay) (w : Working) (s : State) :
    checkInputs b w s = raiseFor false .check b (modBay b (fun r => { r with causes := condRange w.range }) s) := rfl

theorem checkStages_laws (h : DefrostLaws s) (hp : (bayAt s b).occupancy = .parked) (snap : Snapshot) :
    DefrostLaws (checkStages b snap s) ∧ polled (bayAt (checkStages b snap s) b).occupancy = true := by
  have hpolled : polled (bayAt s b).occupancy = true := by rw [hp]; rfl
  have hinputs := h.stage hpolled (g := fun r => { r with causes := condRange (workingInputs snap).range })
    (fun _ => ⟨rfl, rfl, rfl⟩) false .check
  have hparked : (bayAt (checkInputs b (workingInputs snap) s) b).occupancy = .parked := by rw [record_checkInputs]; exact hp
  rw [← checkInputs_eq] at hinputs
  obtain ⟨hwatched, hp1⟩ := hinputs.1.checkDoor hparked snap.door
  have hfrost : DefrostLaws (checkFrosted b snap s) ∧ polled (bayAt (checkFrosted b snap s) b).occupancy = true := by
    rw [checkFrosted, checkFrost_eq]
    exact hwatched.stage hp1 (g := frostedRecord _ _ _) (fun _ => ⟨rfl, rfl, rfl⟩) _ _
  have hfuel : DefrostLaws (checkFuelled b snap s) ∧ polled (bayAt (checkFuelled b snap s) b).occupancy = true := by
    rw [checkFuelled, checkFuel_eq]
    exact hfrost.1.stage hfrost.2 (g := fuelledRecord _ _ _) (fun _ => ⟨rfl, rfl, rfl⟩) _ _
  rw [checkStages_split, checkClosed_eq]
  exact hfuel.1.stage hfuel.2 (g := stickyRecord) (fun _ => ⟨rfl, rfl, rfl⟩) _ _

theorem DefrostLaws.check (h : DefrostLaws s) (hp : (bayAt s b).occupancy = .parked) (hr : s.run.state = .running)
    (snap : Snapshot) : DefrostLaws (check b snap s) := by
  obtain ⟨hstages, hpolled⟩ := checkStages_laws h hp snap
  rw [check_eq]
  split
  · next hd =>
    have hrun : (checkStages b snap s).run = s.run := (checkStages_actsOn b snap s).run
    simp only [demandTest, Bool.and_eq_true, decide_eq_true_eq] at hd
    obtain ⟨⟨⟨⟨⟨-, hidle⟩, -⟩, -⟩, hdoor⟩, -⟩ := hd
    exact hstages.joinQueue hpolled hidle hdoor (by rw [hrun]; exact hr) _
  · exact hstages

/-! ## The ends of polls -/

theorem DefrostLaws.pollAnswered (h : DefrostLaws s) (hp : polled (bayAt s b).occupancy = true) (snap : Snapshot) :
    DefrostLaws (pollAnswered b snap s) := by
  have hsame : SameToLaws (bayAt s b) (answeredRecord snap (bayAt s b)) := by
    have hpolled : Machine.polled (answeredRecord snap (bayAt s b)).occupancy = true := by
      unfold answeredRecord
      dsimp only
      split
      · rfl
      · exact hp
    exact ⟨rfl, rfl, rfl, rfl, rfl, fun _ => hpolled, emptyWhenUnused_of_used (used_of_polled hpolled)⟩
  have hsteps := (((h.modBay hsame id).owePassIf (queuedSourceChanges (bayAt s b) snap)).modeStep snap.mode b).sourceStep
    snap.source b
  unfold Machine.pollAnswered
  dsimp only
  split
  · next hc =>
    simp only [startsCheck, isRunning, Bool.and_eq_true, decide_eq_true_eq] at hc
    exact hsteps.check hc.1 hc.2 snap
  · exact hsteps

theorem loseDoorOf_same (h : EmptyWhenUnused (bayAt s b)) : SameToLaws (bayAt s b) (loseDoorOf (bayAt s b)) :=
  ⟨rfl, rfl, rfl, rfl, rfl, id, fun k => by rw [h k]; rfl⟩

theorem DefrostLaws.becomeLost (h : DefrostLaws s) (b : Bay) : DefrostLaws (becomeLost b s) := by
  have hraised : DefrostLaws (Machine.raiseAlert .link (bayElement b) s) := h.raiseAlert .link (bayElement b)
  exact (hraised.modBay (loseDoorOf_same (h.empty b)) nofun).endBusiness (by decide) b

theorem missedRecord_frame (limit : Nat) (o : ExchangeOutcome) (r : BayRecord) : (missedRecord limit o r).defrost = r.defrost
    ∧ (missedRecord limit o r).occupancy = r.occupancy ∧ (missedRecord limit o r).door = r.door := by
  unfold missedRecord
  dsimp only
  split <;> exact ⟨rfl, rfl, rfl⟩

theorem DefrostLaws.pollMissed (h : DefrostLaws s) (hp : polled (bayAt s b).occupancy = true) (o : ExchangeOutcome) :
    DefrostLaws (pollMissed b o s) := by
  obtain ⟨hd, ho, hdoor⟩ := missedRecord_frame s.run.settings.lossLimit o (bayAt s b)
  have hmissed : DefrostLaws (Machine.modBay b (missedRecord s.run.settings.lossLimit o) s) :=
    h.modBay (sameToLaws_of_polled hp hd ho) fun k => by rw [hdoor] at k; exact k
  unfold Machine.pollMissed
  dsimp only
  split
  · exact hmissed.becomeLost b
  · exact hmissed

theorem DefrostLaws.noteOutcome (h : DefrostLaws s) (hp : polled (bayAt s b).occupancy = true) (o : ExchangeOutcome) :
    DefrostLaws (noteOutcome b o s) := h.modBay (sameToLaws_of_polled hp rfl rfl) id

theorem free_noteOutcome (h : Free (standing s b)) (o : ExchangeOutcome) : Free (standing (noteOutcome b o s) b) := by
  rw [noteOutcome, standing_modBay]
  exact ⟨h.orders, h.flight⟩

/-- What an exchange brings once its gap has begun; after an order's exchange its bay has no order left. -/
theorem DefrostLaws.exchangeResult (h : DefrostLaws s) (x : Exchange) (hp : polled (bayAt s x.bay).occupancy = true)
    (hf : x.kind ≠ .poll → Free (standing s x.bay)) (j : Judged) : DefrostLaws (exchangeResult x j s) := by
  unfold Machine.exchangeResult
  split
  · exact h.pollAnswered hp _
  · exact h.pollMissed hp _
  · next hk =>
    exact (h.noteOutcome hp _).orderOutcome (free_noteOutcome (hf (by rw [hk]; nofun)) _) _ _
  · next hk _ =>
    exact (h.noteOutcome hp _).orderOutcome (free_noteOutcome (hf (by rw [hk]; nofun)) _) _ _

/-! ## The loop -/

theorem BayLaws.noFlight (h : BayLaws v) : BayLaws { v with flight := none } :=
  ⟨⟨h.inStep.queued, h.inStep.listed, h.inStep.entry, h.inStep.noEntry, h.inStep.orders, nofun, nofun, h.inStep.empty,
    h.inStep.reason⟩, fun k => ⟨(h.ended k).notQueued, (h.ended k).notShed, (h.ended k).notActive, (h.ended k).starting,
      (h.ended k).ends⟩, fun k => ⟨(h.rest k).state, (h.rest k).orders⟩⟩

theorem admitted_of_bays (h : t.bays = s.bays) (f : FeederIx) : admitted t f = admitted s f :=
  admitted_congr (fun c => by rw [bayAt_congr h c]) f

/-- The loop has no exchange in flight any more. -/
theorem DefrostLaws.noFlight (h : DefrostLaws s) (hb : t.bays = s.bays) (ha : t.arb = s.arb) (ho : t.loop.orders = s.loop.orders)
    (hr : t.run.state = s.run.state) (hx : ∀ c, flightOf c t.loop.exchange = none) : DefrostLaws t := by
  refine ⟨fun c => ?_, fun f => ?_⟩
  · have hst : standing t c = { standing s c with flight := none } := by
      simp only [standing, feederAt, ha, ho, hx, hr, bayAt_congr hb c]
    rw [hst]
    exact (h.bays c).noFlight
  · rw [admitted_of_bays hb, feederAt, ha]
    exact h.budget f

/-- The exchange's gap begins (R37). -/
def gapBegun (x : Exchange) (ms : Nat) (s : State) : State :=
  { s with loop := { s.loop with exchange := some { x with phase := .gap ms } } }

theorem flightOf_gap (x : Exchange) (ms : Nat) (c : Bay) : flightOf c (some { x with phase := .gap ms }) = none := by
  simp [flightOf, Option.filter, inFlight]

theorem DefrostLaws.gapBegun (h : DefrostLaws s) (x : Exchange) (ms : Nat) : DefrostLaws (gapBegun x ms s) :=
  h.noFlight rfl rfl rfl rfl (flightOf_gap x ms)

/-- The exchange that awaits its reply ends, before the end of its change (R37, R40). -/
theorem DefrostLaws.exchangeEnds (h : DefrostLaws s) {x : Exchange} (hx : s.loop.exchange = some x) (hp : x.phase = .awaiting)
    (j : Judged) : DefrostLaws (if x.voided then Machine.gapBegun x (gapAfter (judgedOutcome j)) s
      else Machine.exchangeResult x j (Machine.gapBegun x (gapAfter (judgedOutcome j)) s)) := by
  have hgap := h.gapBegun x (gapAfter (judgedOutcome j))
  have hmem : x ∈ (standing s x.bay).flight := mem_flightOf.mpr ⟨hx, rfl, by rw [inFlight, hp]⟩
  split
  · exact hgap
  · next hv =>
    refine hgap.exchangeResult x ((h.bays x.bay).inStep.flightPolled x hmem (by simpa using hv)) (fun hk => ⟨?_, ?_⟩) j
    · cases hkind : x.kind with
      | poll => exact absurd hkind hk
      | order k => exact ((h.bays x.bay).inStep.flightOrder x hmem k hkind).2
    · intro y hy
      have hnone : (standing (Machine.gapBegun x (gapAfter (judgedOutcome j)) s) x.bay).flight = none := flightOf_gap x _ x.bay
      rw [hnone] at hy
      cases hy

/-! ## The other operations about one bay -/

theorem DefrostLaws.emptyRecord (h : DefrostLaws s)
    (hs : (bayAt s b).defrost.state = .idle ∨ (bayAt s b).defrost.state = .hung) : DefrostLaws (emptyRecord b s) := by
  refine h.act (emptyRecord_actsOn b (fun _ => False) s) (emptyRecord_keeps b s) ?_ (AdmitsNoMore.of_not ?_).within
  · rw [standing_emptyRecord]
    exact emptied_laws (h.bays b).inStep hs ((h.bays b).inStep.free (by rcases hs with hs | hs <;> simp [standing_record, hs])
      (by rcases hs with hs | hs <;> simp [standing_record, hs]))
  · rw [← standing_record, standing_emptyRecord]
    rfl

theorem DefrostLaws.departBay (h : DefrostLaws s) (b : Bay) : DefrostLaws (departBay b s) := by
  unfold Machine.departBay
  split
  · next hs => exact (h.emptyRecord (.inl hs)).owePassIf _
  · next hs =>
    have hbay : bayAt (Machine.owePassIf (countedOnFeeder (bayAt s b).defrost) s) b = bayAt s b := bayAt_congr (owePassIf_bays _ _) b
    exact ((h.owePassIf _).emptyRecord (.inr (by rw [hbay]; exact hs))).owePassIf _
  · refine DefrostLaws.endBusiness ?_ (by decide) b
    exact h.modBay ⟨rfl, rfl, rfl, rfl, rfl, fun _ => rfl, emptyWhenUnused_of_used nofun⟩ id

theorem DefrostLaws.timeoutTest (h : DefrostLaws s) (b : Bay) : DefrostLaws (timeoutTest b s) := by
  unfold Machine.timeoutTest
  split
  · next hd =>
    simp only [timeoutDue, Bool.and_eq_true, decide_eq_true_eq] at hd
    exact h.stopEpisode hd.1 (by decide)
  · exact h

theorem DefrostLaws.doorTest (h : DefrostLaws s) (b : Bay) : DefrostLaws (doorTest b s) := by
  unfold Machine.doorTest
  split
  · next hd =>
    simp only [doorDue, openingCounts, Bool.and_eq_true, decide_eq_true_eq] at hd
    obtain ⟨⟨⟨⟨-, hp⟩, -⟩, -⟩, -⟩ := hd
    exact (h.modBay (sameToLaws_of_polled (by rw [hp]; rfl) rfl rfl) id).raiseAlert .door _
  · exact h

theorem DefrostLaws.momentEffect (h : DefrostLaws s) (m : Moment) : DefrostLaws (momentEffect m s) := by
  cases m with
  | doorLimit b => exact h.doorTest b
  | permitEnd b => exact h.doorTest b
  | timeout b => exact h.timeoutTest b
  | holdoffEnd b =>
    exact h.modBay (g := fun r => { r with defrost := endHoldoff r.defrost })
      ⟨rfl, rfl, rfl, rfl, rfl, id, fun k => by rw [h.empty b k]; rfl⟩ id

theorem DefrostLaws.takeMoment (h : DefrostLaws s) (m : Moment) : DefrostLaws (takeMoment m s) := by
  unfold Machine.takeMoment
  split
  · exact (h.momentEffect m).congr rfl rfl rfl rfl rfl
  · exact h

theorem DefrostLaws.takeMoments (h : DefrostLaws s) (ms : List Moment) : DefrostLaws (takeMoments ms s) :=
  foldl_inv (P := DefrostLaws) (fun _ m ht => ht.takeMoment m) ms (x := { s with moments := ms ++ s.moments })
    (h.congr rfl rfl rfl rfl rfl)

/-- A bay under a loss limit of 2 or more (R35). -/
theorem DefrostLaws.limitBay (h : DefrostLaws s) {limit : Nat} (hl : 2 ≤ limit) (b : Bay) : DefrostLaws (limitBay limit b s) := by
  have hused (hmiss : (bayAt s b).link = .lost ∨ limit ≤ (bayAt s b).missCount) :
      ¬ ((bayAt s b).occupancy = .vacant ∨ (bayAt s b).occupancy = .outOfService) := fun k => by
    rw [h.empty b k] at hmiss
    rcases hmiss with hm | hm
    · cases hm
    · exact absurd (Nat.le_trans hl hm) (Nat.not_succ_le_zero 1)
  have hsame {r : BayRecord} (hd : r.defrost = (bayAt s b).defrost) (ho : r.occupancy = (bayAt s b).occupancy)
      (hmiss : (bayAt s b).link = .lost ∨ limit ≤ (bayAt s b).missCount) : SameToLaws (bayAt s b) r := by
    refine sameToLaws_of_polled ?_ hd ho
    have hu := hused hmiss
    cases hocc : (bayAt s b).occupancy <;> rw [hocc] at hu <;> simp_all [polled]
  unfold Machine.limitBay
  dsimp only
  split
  · next hlost => exact h.modBay (hsame rfl rfl (.inl hlost)) id
  · split
    · next hmiss => exact (h.modBay (g := fun r => { r with missCount := limit, link := .lost }) (hsame rfl rfl (.inr hmiss)) id).becomeLost b
    · exact h

end Sys2Proof.Machine
end

section
/-! The end of a change keeps the laws of the defrost business: the grant pass, the round's end, the loop arbiter's choice, the
test of R25; and so do the orders of a change in their free order. -/

namespace Sys2Proof.Machine

open Sys2Proof.Claims Sys2Proof.Safety

variable {b c : Bay} {f g : FeederIx} {s t u : State} {v w : Standing}

/-! ## Resumes (R121) -/

/-- The bay of an entry on feeder f's stack is charged to f and has no other entry. -/
theorem InStep.entry_unique (h : InStep (standing s b)) (hf : (standing s b).ends f ≠ []) :
    (bayAt s b).defrost.charge = .feeder f ∧ ((standing s b).ends f).length = 1
      ∧ ∀ g, g ≠ f → (standing s b).ends g = [] := by
  have hheld : (bayAt s b).defrost.charge = .feeder f ∧ onShedStack (bayAt s b).defrost := by
    by_contra hn
    exact hf (h.noEntry f hn)
  exact ⟨hheld.1, h.entry f hheld.1 hheld.2, fun g hg =>
    h.noEntry g fun k => hg (Charge.feeder.inj (k.1.symm.trans hheld.1))⟩

theorem standing_resumeTop {top : ShedEntry} {rest : List ShedEntry} (h : InStep (standing s top.bay))
    (hs : (bayAt s top.bay).defrost.state = .shed) (hstack : (feederAt s f).stack = top :: rest) :
    standing (resumeTop f top.bay rest s) top.bay = (standing s top.bay).started
      { (bayAt s top.bay).defrost with state := .starting, reason := none, shedPending := false } true := by
  have hmem : top.ended ∈ (standing s top.bay).ends f :=
    mem_ends.mpr ⟨top, by rw [hstack]; exact List.mem_cons_self, rfl, rfl⟩
  obtain ⟨-, hlen, hother⟩ := h.entry_unique (List.ne_nil_of_mem hmem)
  have hrest : rest.filter (fun e => decide (e.bay = top.bay)) = [] := by
    have hlen' : (((feederAt s f).stack.filter fun e => decide (e.bay = top.bay)).map (·.ended)).length = 1 := hlen
    rw [hstack, List.filter_cons_of_pos (by simp), List.map_cons, List.length_cons, List.length_map] at hlen'
    exact List.length_eq_zero_iff.mp (by omega)
  have hq : (standing s top.bay).queued = 0 := by
    rw [h.queued, if_neg]
    rw [standing_record, hs]
    nofun
  have hends : (fun g => if g = f then (rest.filter fun e => decide (e.bay = top.bay)).map (·.ended)
      else (standing s top.bay).ends g) = fun _ => [] := by
    funext g
    by_cases hg : g = f
    · rw [if_pos hg, hrest]
      rfl
    · rw [if_neg hg, hother g hg]
  rw [resumeTop, standing_placeStart, standing_joinActive, standing_modDefrost, standing_setFeeder, hends]
  simp only [Standing.started, ← hq]
  rfl

theorem DefrostLaws.resumeTop {top : ShedEntry} {rest : List ShedEntry} (h : DefrostLaws s)
    (hs : (bayAt s top.bay).defrost.state = .shed) (hstack : (feederAt s f).stack = top :: rest)
    (hfit : committed s f + (bayAt s top.bay).defrost.draw ≤ (feederAt s f).budget) :
    DefrostLaws (resumeTop f top.bay rest s) := by
  have hlaws := h.bays top.bay
  have hst := standing_resumeTop hlaws.inStep hs hstack
  have hmem : top.ended ∈ (standing s top.bay).ends f :=
    mem_ends.mpr ⟨top, by rw [hstack]; exact List.mem_cons_self, rfl, rfl⟩
  obtain ⟨hc, -, -⟩ := hlaws.inStep.entry_unique (List.ne_nil_of_mem hmem)
  refine h.act (resumeTop_actsOn hstack fun _ => False) (resumeTop_keeps f top.bay rest s) ?_ fun g => ?_
  · rw [hst]
    exact started_laws hlaws (.inr hs) (fun hm => (hlaws.ended hm).notShed hs) rfl rfl true
  · rw [← standing_record (Machine.resumeTop f top.bay rest s), hst]
    by_cases hg : g = f
    · subst hg
      refine .inr (Nat.le_trans (Nat.add_le_add_left ?_ _) hfit)
      unfold admittedDraw
      split
      · exact Nat.le_refl _
      · exact Nat.zero_le _
    · refine .inl (Nat.le_trans (Nat.le_of_eq (if_neg fun k => hg ?_)) (Nat.zero_le _))
      exact (Charge.feeder.inj (hc.symm.trans k.1)).symm

theorem DefrostLaws.resumeFeeder (f : FeederIx) (n : Nat) (h : DefrostLaws s) : DefrostLaws (resumeFeeder f n s) := by
  induction n generalizing s with
  | zero => exact h
  | succ n ih =>
    rw [Machine.resumeFeeder]
    split
    · exact h
    · next top rest hstack =>
      dsimp only
      split
      · next hk => exact ih (h.resumeTop hk.1 hstack hk.2)
      · exact h

theorem DefrostLaws.resumeAll (h : DefrostLaws s) : DefrostLaws (resumeAll s) :=
  foldl_inv (P := DefrostLaws) (fun _ f ht => ht.resumeFeeder f _) allFeeders h

/-! ## Grants (R122 to R124) -/

/-- The queue's entries are read by their bays alone. -/
theorem standing_withQueue (l : List QueueEntry) (s : State) (c : Bay) : standing (withQueue l s) c
    = { standing s c with queued := (l.filter fun q => decide (q.bay = c)).length } := rfl

/-- The entry of the walk's turn stays, with another pass-over count. -/
theorem DefrostLaws.kept {front back : List QueueEntry} {q : QueueEntry} {n : Nat}
    (h : DefrostLaws (withQueue (front ++ q :: back) s)) :
    DefrostLaws (withQueue (front ++ [{ q with passOver := n }] ++ back) s) := by
  refine ⟨fun c => ?_, fun f => h.budget f⟩
  have hlen : ((front ++ [{ q with passOver := n }] ++ back).filter fun (p : QueueEntry) => decide (p.bay = c)).length
      = ((front ++ q :: back).filter fun p => decide (p.bay = c)).length := by
    by_cases hc : q.bay = c <;> simp [hc]
  have hst : standing (withQueue (front ++ [{ q with passOver := n }] ++ back) s) c
      = standing (withQueue (front ++ q :: back) s) c := by rw [standing_withQueue, standing_withQueue, hlen]
  rw [hst]
  exact h.bays c

theorem standing_grant (x : Charge) (b : Bay) (s : State) : standing (grant b x s) b = { standing s b with
    record := { bayAt s b with defrost := { (bayAt s b).defrost with
      state := .starting, reason := none, charge := x, draw := (bayAt s b).draw, shedPending := false, elapsed := 0 } }
    listed := (standing s b).listed + 1, orders := (standing s b).orders ++ [.start false] } := by
  rw [grant, standing_placeStart, standing_joinActive, standing_modDefrost]
  rfl

/-- The bay of the walk's turn is granted, its entry leaving the queue. -/
theorem DefrostLaws.granted {front back : List QueueEntry} {q : QueueEntry} {x : Charge}
    (h : DefrostLaws (withQueue (front ++ q :: back) s))
    (hfit : ∀ f, x = .feeder f → committed s f + (bayAt s q.bay).draw ≤ (feederAt s f).budget) :
    DefrostLaws (withQueue (front ++ back) (grant q.bay x s)) := by
  have hlaws := h.bays q.bay
  have hlen : ((front ++ q :: back).filter fun p => decide (p.bay = q.bay)).length
      = ((front ++ back).filter fun p => decide (p.bay = q.bay)).length + 1 := by simp; omega
  have hcount : ((front ++ back).filter fun p => decide (p.bay = q.bay)).length + 1
      = if (bayAt s q.bay).defrost.state = .queued then 1 else 0 := hlen.symm.trans hlaws.inStep.queued
  have hqueued : (bayAt s q.bay).defrost.state = .queued := by
    by_contra hn
    rw [if_neg hn] at hcount
    cases hcount
  have hgone : ((front ++ back).filter fun p => decide (p.bay = q.bay)).length = 0 := by
    rw [if_pos hqueued] at hcount
    omega
  have hends (f : FeederIx) : (standing s q.bay).ends f = [] :=
    hlaws.inStep.no_entries (fun k => by rcases k with k | ⟨k, -⟩ <;> exact nomatch hqueued.symm.trans k) f
  have hst : standing (withQueue (front ++ back) (grant q.bay x s)) q.bay
      = (standing (withQueue (front ++ q :: back) s) q.bay).started { (bayAt s q.bay).defrost with
          state := .starting, reason := none, charge := x, draw := (bayAt s q.bay).draw, shedPending := false, elapsed := 0 }
        false := by
    rw [standing_withQueue, standing_grant, hgone]
    simp only [Standing.started, standing_withQueue, ← funext hends]
    rfl
  have hacts : ActsOn q.bay (fun _ => False) (withQueue (front ++ q :: back) s) (withQueue (front ++ back) (grant q.bay x s)) := by
    have hleave : ActsOn q.bay (fun _ => False) (withQueue (front ++ q :: back) s) (withQueue (front ++ back) s) :=
      ⟨rfl, .refl, rfl, .refl _ _, rfl, fun _ _ => rfl, by simp [withQueue], rfl, fun _ => rfl, id⟩
    exact hleave.trans (grant_actsOn q.bay x _ (withQueue (front ++ back) s))
  refine h.act hacts ?_ ?_ fun g => ?_
  · exact .of_arb rfl rfl rfl (fun _ => rfl) rfl
  · rw [hst]
    exact started_laws hlaws (.inl hqueued) (fun hm => (hlaws.ended hm).notQueued hqueued) rfl rfl false
  · rw [← standing_record (withQueue (front ++ back) (grant q.bay x s)), hst]
    by_cases hg : x = .feeder g
    · refine .inr (Nat.le_trans (Nat.add_le_add_left ?_ _) (hfit g hg))
      unfold admittedDraw
      split
      · exact Nat.le_refl _
      · exact Nat.zero_le _
    · exact .inl (Nat.le_trans (Nat.le_of_eq (if_neg fun k => hg k.1)) (Nat.zero_le _))

/-- The walk of the queue, with the entries kept and those to come as its queue. -/
theorem DefrostLaws.walk (l : List QueueEntry) {w : QueueWalk} (h : DefrostLaws (withQueue (w.kept ++ l) w.state)) :
    DefrostLaws (withQueue (l.foldl walkEntry w).kept (l.foldl walkEntry w).state) := by
  induction l generalizing w with
  | nil => simpa using h
  | cons q l ih =>
    rw [List.foldl_cons]
    refine ih ?_
    rcases walkEntry_turn w q with ⟨hstate, n, hkept, -⟩ | ⟨hkept, x, -, -, hstate, hfit⟩
    · rw [hstate, hkept]
      exact h.kept
    · rw [hstate, hkept]
      exact h.granted fun f hx => (hfit f hx).2

theorem withQueue_self (s : State) : withQueue s.arb.queue s = s := rfl

theorem queue_withQueue (l : List QueueEntry) (s : State) : (withQueue l s).arb.queue = l := rfl

theorem queue_resumeAll (s : State) : (resumeAll s).arb.queue = s.arb.queue := by
  calc (resumeAll s).arb.queue = (resumeAll (withQueue s.arb.queue s)).arb.queue := by rw [withQueue_self]
    _ = (withQueue s.arb.queue (resumeAll s)).arb.queue := by rw [resumeAll_withQueue]
    _ = s.arb.queue := queue_withQueue _ _

theorem DefrostLaws.grantPass (h : DefrostLaws s) : DefrostLaws (grantPass s) := by
  have hresumed := h.resumeAll
  have hself : withQueue ([] ++ s.arb.queue) (Machine.resumeAll s) = Machine.resumeAll s := by
    rw [List.nil_append, ← queue_resumeAll, withQueue_self]
  rw [grantPass_eq, turnOf]
  refine DefrostLaws.walk s.arb.queue (w := ⟨Machine.resumeAll s, [], []⟩) ?_
  dsimp only
  rw [hself]
  exact hresumed

theorem DefrostLaws.runPass (h : DefrostLaws s) : DefrostLaws (runPass s) := by
  have hclear : DefrostLaws { s with passDue := false } := h.congr rfl rfl rfl rfl rfl
  rcases runPass_cases s with ⟨-, e⟩ | ⟨-, -, e⟩ | ⟨-, -, e⟩ <;> rw [e]
  · exact h
  · exact hclear.grantPass
  · exact hclear

/-! ## The round's end, the loop arbiter, the test of R25 -/

theorem DefrostLaws.endRound (h : DefrostLaws s) : DefrostLaws (endRound s) :=
  h.congr (endRound_bays s) (endRound_arb s) (endRound_orders s) (endRound_exchange s) (by
    rcases endRound_cases s with k | ⟨_, -, -, -, k⟩ <;> rw [k])

/-- A poll begins with a polled bay. -/
theorem BayLaws.pollBegun (h : BayLaws v) {x : Exchange} (hk : x.kind = .poll) (hp : polled v.record.occupancy = true) :
    BayLaws { v with flight := some x } := by
  refine ⟨⟨h.inStep.queued, h.inStep.listed, h.inStep.entry, h.inStep.noEntry, h.inStep.orders, fun y hy k hyk => ?_,
    fun _ _ _ => hp, h.inStep.empty, h.inStep.reason⟩, fun k => ⟨(h.ended k).notQueued, (h.ended k).notShed, (h.ended k).notActive,
    (h.ended k).starting, (h.ended k).ends⟩, fun k => ⟨(h.rest k).state, (h.rest k).orders⟩⟩
  cases hy
  exact nomatch hk.symm.trans hyk

/-- An order's exchange begins; the order has left the queue (R52). -/
theorem BayLaws.orderBegun (h : BayLaws v) {x : Exchange} {k : OrderKind} (hk : x.kind = .order k) (ho : v.orders = [k]) :
    BayLaws { v with flight := some x, orders := [] } := by
  have hstate : v.record.defrost.state = stateFor k := by
    rcases h.inStep.orders with hnil | ⟨k', hone, hs⟩
    · exact nomatch ho.symm.trans hnil
    · cases ho.symm.trans hone
      exact hs
  have hused := h.inStep.used (by rw [hstate]; cases k <;> nofun)
  have hp : polled v.record.occupancy = true := by cases hocc : v.record.occupancy <;> simp_all [polled]
  refine ⟨⟨h.inStep.queued, h.inStep.listed, h.inStep.entry, h.inStep.noEntry, .inl rfl, fun y hy k' hyk => ?_,
    fun _ _ _ => hp, h.inStep.empty, h.inStep.reason⟩, fun hm => ⟨(h.ended hm).notQueued, (h.ended hm).notShed,
    (h.ended hm).notActive, fun ks => ⟨((h.ended hm).starting ks).1, rfl⟩, (h.ended hm).ends⟩, fun hr => ⟨(h.rest hr).state, rfl⟩⟩
  cases hy
  cases hk.symm.trans hyk
  exact ⟨hstate, rfl⟩

theorem flightOf_none (c : Bay) : flightOf c none = none := rfl

theorem flightOf_other {x : Exchange} (h : c ≠ x.bay) : flightOf c (some x) = none := by
  simp [flightOf, Option.filter, h.symm]

theorem flightOf_sending (b : Bay) (k : ExchangeKind) :
    flightOf b (some ⟨b, k, .sending, false⟩) = some ⟨b, k, .sending, false⟩ := by
  simp [flightOf, Option.filter, inFlight]

/-- The loop arbiter begins an exchange on a free loop: one bay's flight and orders change. -/
theorem DefrostLaws.begun (h : DefrostLaws s) (hb : t.bays = s.bays) (ha : t.arb = s.arb) (hr : t.run = s.run)
    (hfree : s.loop.exchange = none) {x : Exchange} (hx : t.loop.exchange = some x)
    (ho : ∀ c, c ≠ x.bay → (standing t c).orders = (standing s c).orders) (hl : BayLaws (standing t x.bay)) : DefrostLaws t := by
  refine ⟨fun c => ?_, fun f => ?_⟩
  · by_cases hc : c = x.bay
    · exact hc ▸ hl
    · have hst : standing t c = { standing s c with orders := (standing t c).orders } := by
        simp only [standing, feederAt, ha, hr, hx, hfree, flightOf_other hc, flightOf_none, bayAt_congr hb c]
      rw [hst, ho c hc]
      exact h.bays c
  · rw [admitted_of_bays hb, feederAt, ha]
    exact h.budget f

theorem DefrostLaws.takeOrder (h : DefrostLaws s) (hfree : s.loop.exchange = none) {o : Order} {rest : List Order}
    (ho : s.loop.orders = o :: rest) (n : Nat) : DefrostLaws (beginExchange o.bay (.order o.kind)
      { s with loop := { s.loop with orders := rest, orderRun := n } }) := by
  refine h.begun rfl rfl rfl hfree (x := ⟨o.bay, .order o.kind, .sending, false⟩) rfl (fun c hc => ?_) ?_
  · have hc' : ¬ o.bay = c := fun k => hc k.symm
    show (rest.filter fun o => decide (o.bay = c)).map (·.kind) = (s.loop.orders.filter fun o => decide (o.bay = c)).map (·.kind)
    rw [ho]
    simp [hc']
  · have hs : (standing s o.bay).orders = o.kind :: (rest.filter fun p => decide (p.bay = o.bay)).map (·.kind) := by
      show (s.loop.orders.filter fun p => decide (p.bay = o.bay)).map (·.kind) = _
      rw [ho]
      simp
    have hrest : (rest.filter fun p => decide (p.bay = o.bay)).map (·.kind) = [] := by
      rcases (h.bays o.bay).inStep.orders with k | ⟨k, hk, -⟩
      · exact nomatch hs.symm.trans k
      · exact (List.cons.inj (hs.symm.trans hk)).2
    rw [hrest] at hs
    have hst : standing (beginExchange o.bay (.order o.kind) { s with loop := { s.loop with orders := rest, orderRun := n } }) o.bay
        = { standing s o.bay with flight := some ⟨o.bay, .order o.kind, .sending, false⟩, orders := [] } := by
      rw [← hrest, ← flightOf_sending]
      rfl
    rw [hst]
    exact (h.bays o.bay).orderBegun rfl hs

theorem DefrostLaws.takePoll (h : DefrostLaws s) (hfree : s.loop.exchange = none) (hp : polled (bayAt s b).occupancy = true) :
    DefrostLaws (takePoll b s) := by
  refine h.begun rfl rfl rfl hfree (x := ⟨b, .poll, .sending, false⟩) rfl (fun _ _ => rfl) ?_
  have hst : standing (Machine.takePoll b s) b = { standing s b with flight := some ⟨b, .poll, .sending, false⟩ } := by
    rw [← flightOf_sending]
    rfl
  rw [hst]
  exact (h.bays b).pollBegun rfl hp

theorem polled_of_pollLeft (h : pollLeft s = some b) : polled (bayAt s b).occupancy = true := by
  unfold pollLeft at h
  split at h
  · cases h
  · have hb := List.find?_some h
    simp only [Bool.and_eq_true] at hb
    exact hb.2

theorem DefrostLaws.serveLoop (h : DefrostLaws s) : DefrostLaws (serveLoop s) := by
  rcases serveLoop_cases s with e | ⟨o, rest, hfree, -, ho, e⟩ | ⟨b, hfree, -, hp, -, e⟩ <;> rw [e]
  · exact h
  · exact h.takeOrder hfree ho _
  · exact h.takePoll hfree (polled_of_pollLeft hp)

/-- HALTED is entered with no defrost but a HUNG one left, and no order (R25, R146). -/
theorem BayLaws.halted (h : BayLaws v) (hr : v.run = .halting) (ho : v.orders = []) (h1 : v.record.defrost.state ≠ .starting)
    (h2 : v.record.defrost.state ≠ .stopping) : BayLaws { v with record := loseDoorOf v.record, run := .halted } := by
  have hover := h.ended (.inr (by rw [hr]; nofun))
  have hrest : v.record.defrost.state = .idle ∨ v.record.defrost.state = .hung := by
    obtain ⟨hq, hs, ha, -, -⟩ := hover
    cases hd : v.record.defrost.state <;> simp_all
  exact .of_rest ⟨h.inStep.queued, h.inStep.listed, h.inStep.entry, h.inStep.noEntry, h.inStep.orders, h.inStep.flightOrder,
    h.inStep.flightPolled, fun k => by rw [h.inStep.empty k]; rfl, h.inStep.reason⟩ hrest ho

theorem DefrostLaws.haltTest (h : DefrostLaws s) : DefrostLaws (haltTest s) := by
  rcases haltTest_cases s with e | ⟨hr, hd, e⟩
  · rw [e]
    exact h
  · obtain ⟨ho, hs⟩ := (haltDone_iff s).mp hd
    refine ⟨fun c => ?_, fun f => ?_⟩
    · have hst : standing (Machine.haltTest s) c = { standing s c with record := loseDoorOf (bayAt s c), run := .halted } := by
        have hbay : bayAt (Machine.haltTest s) c = loseDoorOf (bayAt s c) := by
          rw [e, bayAt_mapBays]
          rfl
        have hrun : (Machine.haltTest s).run.state = .halted := by rw [e, mapBays_run]
        simp only [standing, feederAt, haltTest_arb, haltTest_loop, hbay, hrun]
      have hnone : (standing s c).orders = [] := by
        show (s.loop.orders.filter fun o => decide (o.bay = c)).map (·.kind) = []
        rw [ho]
        rfl
      rw [hst]
      exact (h.bays c).halted hr hnone (hs c).1 (hs c).2
    · have hadm : admitted (Machine.haltTest s) f = admitted s f := admitted_congr (fun c => by rw [e, bayAt_mapBays]; rfl) f
      rw [hadm, feederAt, haltTest_arb]
      exact h.budget f

theorem DefrostLaws.settle (h : DefrostLaws s) : DefrostLaws (settle s) := h.runPass.endRound.serveLoop.haltTest

/-! ## Orders in their free order -/

theorem DefrostLaws.reordered (h : DefrostLaws s) {q : List Order} (hq : q.Perm s.loop.orders) : DefrostLaws (setOrders q s) := by
  refine ⟨fun c => ?_, fun f => h.budget f⟩
  have hperm : ((q.filter fun o => decide (o.bay = c)).map (·.kind)).Perm (standing s c).orders := (hq.filter _).map _
  have heq : (q.filter fun o => decide (o.bay = c)).map (·.kind) = (standing s c).orders := by
    rcases (h.bays c).inStep.orders with k | ⟨k, hk, -⟩
    · rw [k] at hperm ⊢
      exact hperm.eq_nil
    · rw [hk] at hperm ⊢
      exact List.perm_singleton.mp hperm
  rw [standing_setOrders, heq]
  exact h.bays c

theorem DefrostLaws.withFreeOrder {g : State → State} (h : DefrostLaws (g s)) : DefrostLaws (withFreeOrder g s) := by
  rcases withFreeOrder_cases g s with e | ⟨q, hq, e⟩ <;> rw [e]
  · exact h
  · exact (h.reordered hq).congr rfl rfl rfl rfl rfl

end Sys2Proof.Machine
end

section
/-! The changes that take several bays in turn keep the laws of the defrost business: HALT, a changed loss limit, the shedding
walks of lowered budgets (R24, R35, R112, R113). -/

namespace Sys2Proof.Machine

open Sys2Proof.Claims Sys2Proof.Safety

variable {b c : Bay} {f g : FeederIx} {s t u x : State} {v w : Standing}

/-! ## HALT (R24, R146) -/

/-- HALT under way: the bays of a list still have their business to be ended, the others keep their laws. -/
structure HaltUnderWay (l : List Bay) (s : State) : Prop where
  halting : s.run.state = .halting
  waiting : ∀ b ∈ l, InStep (standing s b)
  done : ∀ b, b ∉ l → BayLaws (standing s b)
  budget : ∀ f, admitted s f ≤ (feederAt s f).budget

theorem admitted_le_of_admitsNoMore (h : KeepsOthers b s t) (hd : AdmitsNoMore b s t) (f : FeederIx) :
    admitted t f ≤ admitted s f := by
  have hsum := admitted_of_others h f
  have hle := hd f
  omega

theorem HaltUnderWay.next {l : List Bay} (h : HaltUnderWay (b :: l) s) (hb : b ∉ l) :
    HaltUnderWay l (endBusiness b .halt s) := by
  have hacts := endBusiness_actsOn b .halt s
  have hrest : (standing s b).run = .setup ∨ (standing s b).run = .halted → AtRest (standing s b) := fun k => by
    rcases k with k | k <;> exact nomatch h.halting.symm.trans k
  refine ⟨by rw [hacts.run]; exact h.halting, fun c hc => ?_, fun c hc => ?_, fun f => ?_⟩
  · rw [hacts.standing_eq fun k => hb (k ▸ hc)]
    exact h.waiting c (List.mem_cons_of_mem b hc)
  · by_cases hcb : c = b
    · subst hcb
      exact (endBusiness_laws (h.waiting c List.mem_cons_self) hrest (by decide)).1
    · rw [hacts.standing_eq hcb]
      exact h.done c fun k => (List.mem_cons.mp k).elim hcb hc
  · rw [(endBusiness_keeps b .halt s).budget]
    exact (admitted_le_of_admitsNoMore hacts.records (endBusiness_admits b .halt s) f).trans (h.budget f)

theorem HaltUnderWay.all {l : List Bay} (hl : l.Nodup) (h : HaltUnderWay l s) :
    DefrostLaws (l.foldl (fun t b => endBusiness b .halt t) s) := by
  induction l generalizing s with
  | nil => exact ⟨fun b => h.done b nofun, h.budget⟩
  | cons b l ih =>
    obtain ⟨hb, hl⟩ := List.nodup_cons.mp hl
    exact ih hl (h.next hb)

theorem DefrostLaws.haltRunning (h : DefrostLaws s) : DefrostLaws (haltRunning s) := by
  have hstart : HaltUnderWay allBays (stopSchedule (setRunState .halting s)) :=
    ⟨rfl, fun b _ => ⟨(h.bays b).inStep.queued, (h.bays b).inStep.listed, (h.bays b).inStep.entry, (h.bays b).inStep.noEntry,
      (h.bays b).inStep.orders, (h.bays b).inStep.flightOrder, (h.bays b).inStep.flightPolled, (h.bays b).inStep.empty,
      (h.bays b).inStep.reason⟩, fun b hb => absurd (mem_allBays b) hb, h.budget⟩
  have hended : DefrostLaws (Machine.forBays (fun b => Machine.endBusiness b .halt) (stopSchedule (setRunState .halting s))) := by
    unfold Machine.forBays
    exact hstart.all (List.nodup_finRange 40)
  unfold Machine.haltRunning
  exact hended.withFreeOrder.settle

/-! ## A changed loss limit (R35) -/

theorem DefrostLaws.forBays {g : Bay → State → State} (hg : ∀ b s, DefrostLaws s → DefrostLaws (g b s)) (h : DefrostLaws s) :
    DefrostLaws (forBays g s) := foldl_inv (P := DefrostLaws) (fun t b ht => hg b t ht) allBays h

theorem DefrostLaws.applyLossLimit (h : DefrostLaws s) (hl : 2 ≤ s.run.settings.lossLimit) : DefrostLaws (applyLossLimit s) :=
  (DefrostLaws.withFreeOrder (g := Machine.forBays (Machine.limitBay s.run.settings.lossLimit))
    (h.forBays fun b _ ht => ht.limitBay hl b)).settle

/-! ## Shedding walks (R112) -/

/-- A list in which each key stands at most once repeats none. -/
theorem nodup_of_filter_le_one {α : Type} {key : α → Bay} {l : List α}
    (h : ∀ b, (l.filter fun x => decide (key x = b)).length ≤ 1) : (l.map key).Nodup := by
  induction l with
  | nil => exact List.nodup_nil
  | cons a l ih =>
    rw [List.map_cons, List.nodup_cons]
    refine ⟨fun hmem => ?_, ih fun b => ?_⟩
    · obtain ⟨x, hx, hk⟩ := List.mem_map.mp hmem
      have hlen := h (key a)
      rw [List.filter_cons_of_pos (by simp), List.length_cons] at hlen
      have hpos : 0 < (l.filter fun x => decide (key x = key a)).length :=
        List.length_pos_of_mem (List.mem_filter.mpr ⟨hx, decide_eq_true hk⟩)
      omega
    · exact Nat.le_trans (((List.sublist_cons_self a l).filter _).length_le) (h b)

/-- Every bay's laws hold, whatever the budgets: what a shedding walk keeps while a feeder is over its budget. -/
def BaysLawful (s : State) : Prop := ∀ b, BayLaws (standing s b)

theorem BaysLawful.active_nodup (h : BaysLawful s) : s.arb.active.Nodup := by
  have hmap := nodup_of_filter_le_one (key := id) (l := s.arb.active) fun b => by
    have hl : (s.arb.active.filter fun x => decide (x = b)).length = _ := (h b).inStep.listed
    show (s.arb.active.filter fun x => decide (x = b)).length ≤ 1
    rw [hl]
    split
    · exact Nat.le_refl 1
    · exact Nat.zero_le 1
  rwa [List.map_id] at hmap

theorem BaysLawful.mem_active (h : BaysLawful s)
    (hs : (bayAt s b).defrost.state = .starting ∨ (bayAt s b).defrost.state = .active) : b ∈ s.arb.active := by
  have hl : (s.arb.active.filter fun x => decide (x = b)).length
      = if (bayAt s b).defrost.state = .starting ∨ (bayAt s b).defrost.state = .active then 1 else 0 := (h b).inStep.listed
  rw [if_pos hs] at hl
  obtain ⟨x, hx⟩ := List.exists_mem_of_ne_nil (s.arb.active.filter fun x => decide (x = b)) fun k => by
    rw [k] at hl
    cases hl
  obtain ⟨hmem, hb⟩ := List.mem_filter.mp hx
  exact of_decide_eq_true hb ▸ hmem

theorem state_of_admittedOn (h : admittedOn s f b) :
    (bayAt s b).defrost.state = .starting ∨ (bayAt s b).defrost.state = .active := h.2.symm.imp And.left id

theorem BaysLawful.walkStep (h : BaysLawful s) (f : FeederIx) (b : Bay) :
    BaysLawful (walkStep f s b) ∧ ∀ g, admitted (Machine.walkStep f s b) g ≤ admitted s g := by
  rcases walkStep_cases f s b with ⟨-, k⟩ | ⟨-, ha, k⟩ | ⟨-, k⟩ <;> rw [k]
  · exact ⟨h, fun _ => Nat.le_refl _⟩
  · have hacts := shed_actsOn f b s
    refine ⟨fun c => ?_, admitted_le_of_admitsNoMore hacts.records (.of_not (admittedState_shed (state_of_admittedOn ha) f))⟩
    by_cases hc : c = b
    · subst hc
      exact shed_laws (h c) ha.1
    · rw [hacts.standing_eq hc]
      exact h c
  · exact ⟨h, fun _ => Nat.le_refl _⟩

theorem BaysLawful.walk (h : BaysLawful s) (f : FeederIx) (l : List Bay) :
    BaysLawful (l.foldl (Machine.walkStep f) s) ∧ ∀ g, admitted (l.foldl (Machine.walkStep f) s) g ≤ admitted s g := by
  induction l generalizing s with
  | nil => exact ⟨h, fun _ => Nat.le_refl _⟩
  | cons b l ih =>
    obtain ⟨h1, hle⟩ := h.walkStep f b
    obtain ⟨h2, hle2⟩ := ih h1
    rw [List.foldl_cons]
    exact ⟨h2, fun g => (hle2 g).trans (hle g)⟩

/-- A feeder's walk keeps every bay's laws, ends within that feeder's budget, and admits no more on any other (R112). -/
theorem BaysLawful.shedWalk (h : BaysLawful s) (f : FeederIx) : BaysLawful (shedWalk f s)
    ∧ admitted (Machine.shedWalk f s) f ≤ (feederAt s f).budget ∧ ∀ g, admitted (Machine.shedWalk f s) g ≤ admitted s g := by
  obtain ⟨hl, hle⟩ : BaysLawful (Machine.shedWalk f s) ∧ ∀ g, admitted (Machine.shedWalk f s) g ≤ admitted s g := by
    unfold Machine.shedWalk
    exact h.walk f s.arb.active.reverse
  obtain ⟨hfit, hbudget, -⟩ := Proofs.shedWalkTakesNewestFirst s f (fun b hb => h.mem_active (state_of_admittedOn hb)) h.active_nodup
  exact ⟨hl, hfit.trans (Nat.le_of_eq hbudget), hle⟩

/-! ## Changed budgets (R111, R113) -/

/-- Budgets written, the feeders of a list still to be taken: only a lowered one among them may be over its budget. -/
structure BudgetsUnderWay (v : FeederIx → Nat) (s : State) (l : List FeederIx) (x : State) : Prop where
  bays : BaysLawful x
  written : ∀ f, (feederAt x f).budget = v f
  within : ∀ f, f ∉ l ∨ ¬ v f < (feederAt s f).budget → admitted x f ≤ v f

theorem BudgetsUnderWay.next {v : FeederIx → Nat} {l : List FeederIx} (h : BudgetsUnderWay v s (f :: l) x) :
    BudgetsUnderWay v s l (budgetStep v s x f) := by
  have hkeeps := budgetStep_keeps v s x f
  have hother {t : State} (hb : BaysLawful t) (hw : ∀ f, (feederAt t f).budget = v f)
      (hle : ∀ g, admitted t g ≤ admitted x g) (hf : v f < (feederAt s f).budget → admitted t f ≤ v f) :
      BudgetsUnderWay v s l t := by
    refine ⟨hb, hw, fun g hg => ?_⟩
    by_cases hgf : g = f ∧ v f < (feederAt s f).budget
    · rw [hgf.1]
      exact hf hgf.2
    · refine (hle g).trans (h.within g ?_)
      rcases hg with hg | hg
      · by_cases hgf' : g = f
        · exact .inr fun k => hgf ⟨hgf', hgf' ▸ k⟩
        · exact .inl fun k => (List.mem_cons.mp k).elim hgf' hg
      · exact .inr hg
  have hwritten (g : FeederIx) : (feederAt (budgetStep v s x f) g).budget = v g := (hkeeps.budget g).trans (h.written g)
  unfold budgetStep at hwritten ⊢
  split at hwritten
  · next hlow =>
    rw [if_pos hlow]
    obtain ⟨hb, hfit, hle⟩ := h.bays.shedWalk f
    exact hother hb hwritten hle fun _ => hfit.trans (Nat.le_of_eq (h.written f))
  · next hlow =>
    rw [if_neg hlow]
    have hsame {t : State} (hbays : t.bays = x.bays) (hst : ∀ c, standing t c = standing x c)
        (hw : ∀ f, (feederAt t f).budget = v f) : BudgetsUnderWay v s l t :=
      hother (fun c => by rw [hst]; exact h.bays c) hw (fun g => Nat.le_of_eq (admitted_of_bays hbays g)) fun k => absurd k hlow
    split
    · exact hsame rfl (fun _ => rfl) h.written
    · exact hsame rfl (fun _ => rfl) h.written

theorem BudgetsUnderWay.all {v : FeederIx → Nat} {l : List FeederIx} (h : BudgetsUnderWay v s l x) :
    DefrostLaws (l.foldl (budgetStep v s) x) := by
  induction l generalizing x with
  | nil => exact ⟨h.bays, fun f => by rw [List.foldl_nil, h.written]; exact h.within f (.inl nofun)⟩
  | cons f l ih => exact ih h.next

theorem DefrostLaws.budgetsTaken (h : DefrostLaws s) (v : FeederIx → Nat) : DefrostLaws (budgetsTaken v s) := by
  have hst (c : Bay) : standing (budgetsWritten v s) c = standing s c := by
    have hstack (f : FeederIx) : (feederAt (budgetsWritten v s) f).stack = (feederAt s f).stack := by
      rw [feederAt_budgetsWritten]
    simp only [standing, hstack]
    rfl
  refine BudgetsUnderWay.all ⟨fun c => by rw [hst]; exact h.bays c, budget_budgetsWritten v s, fun f hf => ?_⟩
  have hraised : ¬ v f < (feederAt s f).budget := hf.resolve_left fun k => k (List.mem_finRange f)
  exact (admitted_of_bays rfl f).le.trans ((h.budget f).trans (Nat.not_lt.mp hraised))

end Sys2Proof.Machine
end

section
/-! Every command keeps the laws of the defrost business, and the law of HALTING: while in HALTING, R25's test has not passed. -/

namespace Sys2Proof.Machine

open Sys2Proof.Claims Sys2Proof.Safety

variable {b c : Bay} {f g : FeederIx} {s t u x : State}

/-! ## HALTING lasts only while something is left (R25) -/

/-- In HALTING an order waits or a bay is STARTING or STOPPING. -/
def HaltLaw (s : State) : Prop := s.run.state = .halting → ¬ haltReady s

theorem haltLaw_haltTest (s : State) : HaltLaw (haltTest s) := by
  intro hr hready
  rcases haltTest_cases s with e | ⟨-, -, e⟩
  · rw [e] at hr hready
    have hpassed : haltTest s = mapBays loseDoorOf { s with run := { s.run with state := .halted } } :=
      if_pos ⟨hr, (haltDone_iff s).mpr hready⟩
    have hrun : s.run.state = .halted := by
      conv_lhs => rw [← e, hpassed, mapBays_run]
    exact nomatch hr.symm.trans hrun
  · have hrun : (haltTest s).run.state = .halted := by rw [e, mapBays_run]
    exact nomatch hr.symm.trans hrun

theorem haltLaw_settle (s : State) : HaltLaw (settle s) := haltLaw_haltTest _

/-- What leaves run state, orders and defrost states keeps what R25 tests. -/
theorem haltReady_congr (ho : t.loop.orders = s.loop.orders)
    (hd : ∀ c, (bayAt t c).defrost.state = (bayAt s c).defrost.state) (h : haltReady t) : haltReady s := by
  obtain ⟨h1, h2⟩ := h
  refine ⟨ho ▸ h1, fun c => ?_⟩
  have hc := h2 c
  rw [hd c] at hc
  exact hc

/-- A change that does not empty what R25 tests keeps the law of HALTING. -/
theorem HaltLaw.mono (h : HaltLaw s) (hr : t.run.state = s.run.state) (hk : haltReady t → haltReady s) : HaltLaw t :=
  fun k hready => h (hr ▸ k) (hk hready)

theorem HaltLaw.congr (h : HaltLaw s) (hr : t.run.state = s.run.state) (ho : t.loop.orders = s.loop.orders)
    (hd : ∀ c, (bayAt t c).defrost.state = (bayAt s c).defrost.state) : HaltLaw t := h.mono hr (haltReady_congr ho hd)

theorem haltReady_modBay {g : BayRecord → BayRecord} (hg : (g (bayAt s b)).defrost.state = (bayAt s b).defrost.state)
    (k : haltReady (modBay b g s)) : haltReady s := by
  refine haltReady_congr (t := modBay b g s) rfl (fun c => ?_) k
  by_cases hc : c = b
  · rw [hc, bayAt_modBay_same, hg]
  · rw [bayAt_modBay_ne hc]

theorem HaltLaw.modBay (h : HaltLaw s) {g : BayRecord → BayRecord}
    (hg : (g (bayAt s b)).defrost.state = (bayAt s b).defrost.state) : HaltLaw (modBay b g s) := h.mono rfl (haltReady_modBay hg)

/-- An order taken for the loop leaves its bay STARTING or STOPPING. -/
theorem haltReady_serveLoop (h : DefrostLaws s) (k : haltReady (serveLoop s)) : haltReady s := by
  have hbays (c : Bay) : bayAt (serveLoop s) c = bayAt s c := bayAt_congr (serveLoop_bays s) c
  rcases serveLoop_cases s with e | ⟨o, rest, -, -, ho, e⟩ | ⟨b, -, -, -, -, e⟩
  · rw [e] at k
    exact k
  · obtain ⟨-, hs⟩ := k
    have ho' : (standing s o.bay).orders = o.kind :: (rest.filter fun p => decide (p.bay = o.bay)).map (·.kind) := by
      show (s.loop.orders.filter fun p => decide (p.bay = o.bay)).map (·.kind) = _
      rw [ho]
      simp
    obtain ⟨h1, h2⟩ := hs o.bay
    rw [hbays] at h1 h2
    obtain ⟨hnil, -⟩ := (h.bays o.bay).inStep.no_orders h1 h2
    exact nomatch ho'.symm.trans hnil
  · refine haltReady_congr ?_ (fun c => by rw [hbays]) k
    rw [e]
    rfl

theorem HaltLaw.serveLoop (h : HaltLaw s) (hs : DefrostLaws s) : HaltLaw (serveLoop s) :=
  h.mono (by rw [serveLoop_run]) (haltReady_serveLoop hs)

theorem haltReady_momentEffect (m : Moment) (s : State) (k : haltReady (momentEffect m s)) : haltReady s := by
  have hdoor (b : Bay) (k : haltReady (doorTest b s)) : haltReady s := by
    unfold doorTest at k
    split at k
    · exact haltReady_modBay (g := fun r => { r with door := { r.door with alertGiven := true } }) rfl k
    · exact k
  cases m with
  | doorLimit b => exact hdoor b k
  | permitEnd b => exact hdoor b k
  | holdoffEnd b => exact haltReady_modBay (g := fun r => { r with defrost := endHoldoff r.defrost }) rfl k
  | timeout b =>
    change haltReady (timeoutTest b s) at k
    unfold timeoutTest at k
    split at k
    · exact absurd (state_stopEpisode b .timeout s) (k.2 b).2
    · exact k

theorem haltReady_takeMoment (m : Moment) (s : State) (k : haltReady (takeMoment m s)) : haltReady s := by
  unfold takeMoment at k
  split at k
  · exact haltReady_momentEffect m s k
  · exact k

theorem haltReady_takeMoments (ms : List Moment) (s : State) (k : haltReady (takeMoments ms s)) : haltReady s :=
  foldl_inv (P := fun t => haltReady t → haltReady s) (fun t m ht k => ht (haltReady_takeMoment m t k)) ms
    (x := { s with moments := ms ++ s.moments }) id k

/-! ## Answers of the owning blocks -/

/-- The laws of the defrost business and the law of HALTING. -/
structure Kept (s : State) : Prop where
  laws : DefrostLaws s
  halt : HaltLaw s

theorem Kept.settled (h : DefrostLaws s) : Kept (settle s) := ⟨h.settle, haltLaw_settle s⟩

theorem Kept.serveLoop (h : Kept s) : Kept (serveLoop s) := ⟨h.laws.serveLoop, h.halt.serveLoop h.laws⟩

theorem Kept.congr (h : Kept s) (hb : t.bays = s.bays) (ha : t.arb = s.arb) (ho : t.loop.orders = s.loop.orders)
    (hx : t.loop.exchange = s.loop.exchange) (hr : t.run.state = s.run.state) : Kept t :=
  ⟨h.laws.congr hb ha ho hx hr, h.halt.congr hr ho fun c => by rw [bayAt_congr hb c]⟩

theorem Kept.modBay (h : Kept s) {g : BayRecord → BayRecord} (hk : SameToLaws (bayAt s b) (g (bayAt s b)))
    (hd : (g (bayAt s b)).door.confirmed = .opened → (bayAt s b).door.confirmed = .opened) : Kept (modBay b g s) :=
  ⟨h.laws.modBay hk hd, h.halt.modBay hk.state⟩

theorem Kept.mapBays (h : Kept s) {g : BayRecord → BayRecord} (hk : ∀ c, SameToLaws (bayAt s c) (g (bayAt s c)))
    (hd : ∀ r, (g r).door.confirmed = .opened → r.door.confirmed = .opened) : Kept (mapBays g s) :=
  ⟨h.laws.mapBays hk hd, h.halt.congr (by rw [mapBays_run]) (congrArg LoopControl.orders (mapBays_loop g s)) fun c => by
    rw [bayAt_mapBays]
    exact (hk c).state⟩

theorem Kept.takeMoments (h : Kept s) (ms : List Moment) : Kept (takeMoments ms s) := by
  refine ⟨h.laws.takeMoments ms, h.halt.mono ?_ (haltReady_takeMoments ms s)⟩
  exact foldl_inv (P := fun t => t.run.state = s.run.state) (fun t m ht => by rw [(takeMoment_actsOn m t).run]; exact ht) ms
    (x := { s with moments := ms ++ s.moments }) rfl

theorem Kept.bayData (h : Kept s) (b : Bay) (capacity : Nat) (f : Option FeederIx) (draw : Nat) :
    Kept (storeBayData b capacity f draw s).2 := by
  have hmod : Kept (Machine.modBay b
      (fun r => { r with capacity := (storedCapacity capacity).1, feeder := f, draw := (storedDraw draw).1 }) s) :=
    h.modBay ⟨rfl, rfl, rfl, rfl, rfl, id, fun k => by rw [h.laws.empty b k]; rfl⟩ id
  unfold storeBayData
  dsimp only
  split
  · exact .settled (hmod.laws.congr rfl rfl rfl rfl rfl)
  · exact hmod

theorem Kept.setMark (h : Kept s) (hp : polled (bayAt s b).occupancy = true) (st : Station) (m : Mark) :
    Kept (setMark st b m s) := by
  obtain ⟨hd, ho, hdoor⟩ : (markOn st m (bayAt s b)).defrost = (bayAt s b).defrost
      ∧ (markOn st m (bayAt s b)).occupancy = (bayAt s b).occupancy ∧ (markOn st m (bayAt s b)).door = (bayAt s b).door := by
    cases m <;> exact ⟨rfl, rfl, rfl⟩
  have hmod : Kept (Machine.modBay b (markOn st m) s) :=
    h.modBay (sameToLaws_of_polled hp hd ho) fun k => by rw [hdoor] at k; exact k
  unfold Machine.setMark
  dsimp only
  split
  · exact hmod
  · cases m with
    | hold => exact .settled (hmod.laws.endBusiness (by decide) b)
    | fuelOrdered => exact hmod
    | noDiesel => exact hmod

theorem Kept.clearMark (h : Kept s) (hp : polled (bayAt s b).occupancy = true) (m : Mark) : Kept (clearMark b m s) := by
  obtain ⟨hd, ho, hdoor⟩ : (markOff m (bayAt s b)).defrost = (bayAt s b).defrost
      ∧ (markOff m (bayAt s b)).occupancy = (bayAt s b).occupancy ∧ (markOff m (bayAt s b)).door = (bayAt s b).door := by
    cases m <;> exact ⟨rfl, rfl, rfl⟩
  have hmod : Kept (Machine.modBay b (markOff m) s) :=
    h.modBay (sameToLaws_of_polled hp hd ho) fun k => by rw [hdoor] at k; exact k
  unfold Machine.clearMark
  dsimp only
  split
  · cases m with
    | noDiesel => exact .settled (hmod.laws.congr rfl rfl rfl rfl rfl)
    | hold => exact hmod
    | fuelOrdered => exact hmod
  · exact hmod

/-- Rounds begin: nothing that was ended may start for that. -/
theorem DefrostLaws.running (h : DefrostLaws s) : DefrostLaws (setRunState .running s) := by
  refine ⟨fun b => ?_, h.budget⟩
  have hb := h.bays b
  exact ⟨⟨hb.inStep.queued, hb.inStep.listed, hb.inStep.entry, hb.inStep.noEntry, hb.inStep.orders, hb.inStep.flightOrder,
    hb.inStep.flightPolled, hb.inStep.empty, hb.inStep.reason⟩, fun hm => by
      have hover := hb.ended (.inl (hm.resolve_right fun k => k rfl))
      exact ⟨hover.notQueued, hover.notShed, hover.notActive, hover.starting, hover.ends⟩, fun k => by rcases k with k | k <;> cases k⟩

theorem DefrostLaws.startRound (h : DefrostLaws s) : DefrostLaws (startRound s) := by
  unfold Machine.startRound
  dsimp only
  split
  · exact DefrostLaws.endRound (h.congr rfl rfl rfl rfl rfl)
  · exact h.congr rfl rfl rfl rfl rfl

theorem polled_of_used {r : BayRecord} (h : ¬ (r.occupancy = .vacant ∨ r.occupancy = .outOfService)) :
    polled r.occupancy = true := by
  cases ho : r.occupancy <;> simp_all [polled]

theorem DefrostLaws.endHung (h : DefrostLaws s) (hs : (bayAt s b).defrost.state = .hung) (o : DefrostOutcome) :
    DefrostLaws (endEpisode b o s) :=
  h.act (endEpisode_actsOn b o s) (endEpisode_keeps b o s) (endEpisode_laws (h.bays b).inStep (by rw [hs]; nofun)
    ((h.bays b).inStep.free (by simp [standing_record, hs]) (by simp [standing_record, hs])) o) (endEpisode_admits b o s).within

/-- A changed loss limit has been stored within its range (R31, R32). -/
theorem lossLimit_stored {id v : Nat} {g g' : Settings} {clamped : Bool} (h : storeSetting id v g = some (g', clamped))
    (hne : g.lossLimit ≠ g'.lossLimit) : 2 ≤ g'.lossLimit := by
  unfold storeSetting at h
  split at h
  · next lo hi hr =>
    cases h
    by_cases hid : id = 2
    · subst hid
      cases hr
      exact (clampWithin_range (by decide) v).1
    · exact absurd (writeNumber_lossLimit hid _ g).symm hne
  · split at h
    · cases h
      exact absurd rfl hne
    · split at h
      · cases h
        exact absurd rfl hne
      · cases h

theorem Kept.setting {id v : Nat} {g : Settings} {clamped : Bool} (h : Kept s)
    (hs : storeSetting id v s.run.settings = some (g, clamped)) :
    Kept (settingChanged s.run.settings { s with run := { s.run with settings := g } }) := by
  have hstored : Kept { s with run := { s.run with settings := g } } := h.congr rfl rfl rfl rfl rfl
  unfold settingChanged
  split
  · next hne =>
    exact ⟨hstored.laws.applyLossLimit (lossLimit_stored hs hne), haltLaw_settle _⟩
  · split
    · exact h.congr rfl rfl rfl rfl rfl
    · exact hstored

/-- A feeder's record written with its budget and stack kept. -/
theorem Kept.setFeeder (h : Kept s) {r : Feeder} (hb : r.budget = (feederAt s f).budget) (hs : r.stack = (feederAt s f).stack) :
    Kept (setFeeder f r s) := by
  refine ⟨⟨fun c => ?_, fun g => ?_⟩, h.halt.congr rfl rfl fun _ => rfl⟩
  · rw [standing_setFeeder_kept hs]
    exact h.laws.bays c
  · rw [(setFeeder_keeps f r s hb).budget]
    exact (admitted_of_bays rfl g).le.trans (h.laws.budget g)

/-- Each owning block's answer keeps the laws. -/
theorem AnswerEffect.kept {st : Station} (he : AnswerEffect st s t) (h : Kept s) : Kept t := by
  have hpolled {b : Bay} (ho : (bayAt s b).occupancy = .arriving ∨ (bayAt s b).occupancy = .parked) :
      polled (bayAt s b).occupancy = true := by rcases ho with ho | ho <;> rw [ho] <;> rfl
  have hclear (b : Bay) : SameToLaws (bayAt s b) (clearSticky (bayAt s b)) :=
    ⟨rfl, rfl, rfl, rfl, rfl, id, fun k => by rw [h.laws.empty b k]; rfl⟩
  cases he with
  | same => exact h
  | arrive b i c d =>
    exact (h.modBay (g := arrivedRecord i s.run.yardMinute c d)
      ⟨rfl, rfl, rfl, rfl, rfl, fun _ => rfl, emptyWhenUnused_of_used nofun⟩ id).serveLoop
  | depart b => exact .settled (h.laws.departBay b)
  | departure b d _ ho => exact h.modBay (sameToLaws_of_polled (hpolled ho) rfl rfl) id
  | bayData b c f a => exact h.bayData b c f a
  | close b ho =>
    exact h.modBay (g := fun r => { r with occupancy := .outOfService })
      ⟨rfl, rfl, rfl, rfl, rfl, fun hp => absurd (.inl ho) (used_of_polled hp),
        fun _ => by rw [h.laws.empty b (.inl ho)]; rfl⟩ id
  | opened b ho =>
    have hidle : (bayAt s b).defrost.state = .idle := by rw [h.laws.empty b (.inr ho)]; rfl
    have hafter : (bayAt (emptyRecord b s) b).defrost.state = .idle := by rw [← standing_record, standing_emptyRecord]; rfl
    refine ⟨h.laws.emptyRecord (.inl hidle), h.halt.congr rfl rfl fun c => ?_⟩
    by_cases hc : c = b
    · rw [hc, hafter, hidle]
    · rw [emptyRecord_others b s c hc]
  | mark b m ho => exact h.setMark (polled_of_used ho) st m
  | unmark b m ho => exact h.clearMark (polled_of_used ho) m
  | defrostNow b hok =>
    simp only [defrostNowOk, isRunning, Bool.and_eq_true, decide_eq_true_eq] at hok
    obtain ⟨⟨⟨⟨⟨hr, hp⟩, hs⟩, -⟩, hd⟩, -⟩ := hok
    exact .settled (h.laws.joinQueue (hpolled (.inr hp)) hs hd hr _)
  | withdraw b => exact .settled (h.laws.endBusiness (by decide) b)
  | budget f v =>
    rw [changeBudget_eq]
    exact .settled (h.laws.budgetsTaken _)
  | budgets v =>
    rw [changeBudgets_eq]
    exact .settled (h.laws.budgetsTaken _)
  | release b hs => exact .settled (h.laws.endHung hs _)
  | permit b minutes ho =>
    have hmod : Kept (Machine.modBay b (fun r => { r with permit := (clampAbove 480 minutes).1 }) s) :=
      h.modBay (sameToLaws_of_polled (polled_of_used ho) rfl rfl) id
    unfold storePermit
    dsimp only
    split
    · exact hmod.takeMoments _
    · exact hmod
  | clearFlags b => exact h.modBay (hclear b) id
  | clearAllFlags => exact h.mapBays hclear fun _ => id
  | feederFlags f => exact h.setFeeder rfl rfl
  | takeAlert => exact h.congr rfl rfl rfl rfl rfl
  | releaseAlert => exact h.congr rfl rfl rfl rfl rfl
  | alertMask => exact h.congr rfl rfl rfl rfl rfl
  | begin =>
    have hlaws := h.laws.running.startRound
    refine Kept.serveLoop ⟨hlaws, fun hr => ?_⟩
    rw [startRound_run] at hr
    cases hr
  | halt => exact ⟨h.laws.haltRunning, haltLaw_settle _⟩
  | setting id v g c hs => exact h.setting hs

/-! ## Ticks and events -/

theorem Kept.startRound (h : Kept s) : Kept (startRound s) := by
  refine ⟨h.laws.startRound, h.halt.mono (by rw [startRound_run]) fun k => ?_⟩
  refine haltReady_congr (t := Machine.startRound s) ?_ (fun c => by rw [bayAt_congr (startRound_bays s) c]) k
  unfold Machine.startRound
  dsimp only
  split
  · rw [endRound_orders]
  · rfl

theorem Kept.countRound (h : Kept s) : Kept (countRound s) := by
  unfold Machine.countRound
  split
  · exact h
  · split
    · exact h.startRound.serveLoop
    · exact h.congr rfl rfl rfl rfl rfl

theorem Kept.countOpenings (h : Kept s) : Kept (countOpenings s) := by
  unfold Machine.countOpenings
  refine h.mapBays (fun c => ?_) fun r hd => ?_
  · split
    · next hc =>
      simp only [openingCounts, Bool.and_eq_true, decide_eq_true_eq] at hc
      exact sameToLaws_of_polled (by rw [hc.2]; rfl) rfl rfl
    · exact .refl (h.laws.empty c)
  · split at hd
    · exact hd
    · exact hd

theorem Kept.takeSecond (h : Kept s) : Kept (takeSecond s) := by
  have hadvanced : Kept (advanceSecond s) := by
    unfold advanceSecond
    split
    · exact h.congr rfl rfl rfl rfl rfl
    · exact h.congr rfl rfl rfl rfl rfl
  exact (hadvanced.countOpenings.takeMoments _).countRound

/-- A minute's counts leave the defrost business, and change nothing of a record at its reset values. -/
theorem minuteOfBay_same (running : Bool) {r : BayRecord} (h : EmptyWhenUnused r) : SameToLaws r (minuteOfBay running r) := by
  refine ⟨rfl, rfl, rfl, rfl, rfl, id, fun k => ?_⟩
  have hw : windowCounts running r = false := by
    rcases k with k | k <;> rw [windowCounts, show r.occupancy = _ from k] <;> simp
  have hr := h k
  unfold minuteOfBay
  rw [hw, hr]
  rfl

theorem Kept.countSilences (h : Kept s) : Kept (countSilences s) := by
  unfold Machine.countSilences
  exact h.congr rfl rfl rfl rfl rfl

theorem Kept.takeMinute (h : Kept s) : Kept (takeMinute s) := by
  have hcounted : Kept (countMinutes (advanceMinute s)) := by
    have hadvanced : Kept (advanceMinute s) := h.congr rfl rfl rfl rfl rfl
    unfold countMinutes
    exact hadvanced.mapBays (fun c => minuteOfBay_same _ (hadvanced.laws.empty c)) fun _ => id
  have hended := hcounted.takeMoments (minuteEndings s)
  have htimed : Kept (minuteTimeouts (Machine.takeMoments (minuteEndings s) (countMinutes (advanceMinute s)))) := by
    unfold minuteTimeouts
    split
    · refine Kept.serveLoop ?_
      obtain ⟨t, ht⟩ : ∃ t, t = Machine.takeMoments (minuteEndings s) (countMinutes (advanceMinute s)) := ⟨_, rfl⟩
      rw [← ht] at hended ⊢
      have htaken := hended.takeMoments (momentsOf .timeout (timeoutDue t))
      refine ⟨htaken.laws.withFreeOrder, ?_⟩
      rcases withFreeOrder_cases (Machine.takeMoments (momentsOf .timeout (timeoutDue t))) t with e | ⟨q, hq, e⟩ <;> rw [e]
      · exact htaken.halt
      · refine htaken.halt.mono rfl fun ⟨k1, k2⟩ => ⟨?_, k2⟩
        have hnil : q = [] := k1
        rw [hnil] at hq
        exact hq.symm.eq_nil
    · exact hended
  unfold Machine.takeMinute
  exact htimed.countSilences

theorem Kept.endExchange (h : Kept s) {x : Exchange} (hx : s.loop.exchange = some x) (hp : x.phase = .awaiting) (j : Judged) :
    Kept (endExchange x j s) := .settled (h.laws.exchangeEnds hx hp j)

/-- The reply window opens: the exchange stays in flight with its bay (R37). -/
theorem Kept.windowOpen (h : Kept s) {k : ExchangeKind} {v : Bool} (hx : s.loop.exchange = some ⟨b, k, .sending, v⟩)
    {t : State} (hb : t.bays = s.bays) (ha : t.arb = s.arb) (ho : t.loop.orders = s.loop.orders)
    (ht : t.loop.exchange = some ⟨b, k, .awaiting, v⟩) (hr : t.run.state = s.run.state) : Kept t := by
  refine ⟨⟨fun c => ?_, fun f => ?_⟩, h.halt.congr hr ho fun c => by rw [bayAt_congr hb c]⟩
  · by_cases hc : c = b
    · subst hc
      have hs : (standing s c).flight = some ⟨c, k, .sending, v⟩ := by
        show flightOf c s.loop.exchange = _
        rw [hx]
        simp [flightOf, Option.filter, inFlight]
      have hst : standing t c = { standing s c with flight := some ⟨c, k, .awaiting, v⟩ } := by
        have hfl : flightOf c (some ⟨c, k, .awaiting, v⟩) = some ⟨c, k, .awaiting, v⟩ := by
          simp [flightOf, Option.filter, inFlight]
        simp only [standing, feederAt, ha, ho, hr, ht, hfl, bayAt_congr hb c]
      have hl := h.laws.bays c
      rw [hst]
      refine ⟨⟨hl.inStep.queued, hl.inStep.listed, hl.inStep.entry, hl.inStep.noEntry, hl.inStep.orders, fun y hy => ?_,
        fun y hy => ?_, hl.inStep.empty, hl.inStep.reason⟩, fun k => ⟨(hl.ended k).notQueued, (hl.ended k).notShed,
        (hl.ended k).notActive, (hl.ended k).starting, (hl.ended k).ends⟩, fun k => ⟨(hl.rest k).state, (hl.rest k).orders⟩⟩
      · cases hy
        exact hl.inStep.flightOrder ⟨c, k, .sending, v⟩ hs
      · cases hy
        exact hl.inStep.flightPolled ⟨c, k, .sending, v⟩ hs
    · have hst : standing t c = standing s c := by
        simp only [standing, feederAt, ha, ho, hr, ht, hx, flightOf_other (x := ⟨b, k, .awaiting, v⟩) hc,
          flightOf_other (x := ⟨b, k, .sending, v⟩) hc, bayAt_congr hb c]
      rw [hst]
      exact h.laws.bays c
  · rw [admitted_of_bays hb, feederAt, ha]
    exact h.laws.budget f

/-- Every command keeps the laws, RESET by those of the reset state. -/
theorem CommandEffect.kept (hreset : Kept State.reset) (he : CommandEffect s t) (h : Kept s) : Kept t := by
  cases he with
  | same => exact h
  | reset high => exact hreset.congr rfl rfl rfl rfl rfl
  | request st r t ha _ =>
    exact (ha.kept (h.congr (receiveRequest_bays st s) (receiveRequest_arb st s) rfl rfl rfl)).congr (writeReply_bays st r t)
      (writeReply_arb st r t) (by rw [writeReply_loop]) (by rw [writeReply_loop]) (by rw [writeReply_run])
  | second => exact h.takeSecond
  | minuteThenSecond => exact h.takeMinute.takeSecond
  | minute => exact h.takeMinute
  | moment m => exact ⟨h.laws.takeMoment m, h.halt.mono (by rw [(takeMoment_actsOn m s).run]) (haltReady_takeMoment m s)⟩
  | timeout b =>
    exact Kept.serveLoop
      ⟨h.laws.takeMoment _, h.halt.mono (by rw [(takeMoment_actsOn _ s).run]) (haltReady_takeMoment _ s)⟩
  | silence st => exact h.congr rfl rfl rfl rfl rfl
  | round => exact h.startRound.serveLoop
  | gapEnd b k ms v hx =>
    have hfree : DefrostLaws { s with loop := { s.loop with exchange := none } } :=
      h.laws.noFlight rfl rfl rfl rfl fun _ => rfl
    exact ⟨hfree.serveLoop.haltTest, haltLaw_haltTest _⟩
  | windowOpen b k v hx => exact h.windowOpen hx rfl rfl rfl rfl rfl
  | ended x j hx hp => exact h.endExchange hx hp j
  | halted => exact ⟨h.laws.haltTest, haltLaw_haltTest s⟩
  | general t ha => exact ha.kept h

end Sys2Proof.Machine
end

section
/-! `BudgetInv` is the laws of every bay's standing, the budgets and the law of HALTING; so every step keeps it (O60). -/

namespace Sys2Proof.Machine

open Sys2Proof.Claims Sys2Proof.Safety

variable {b c : Bay} {f g : FeederIx} {s t u x : State}

/-! ## Lists without repeats -/

theorem filter_length_of_nodup {α : Type} {key : α → Bay} {l : List α} (h : (l.map key).Nodup) (b : Bay) :
    (l.filter fun x => decide (key x = b)).length = if b ∈ l.map key then 1 else 0 := by
  induction l with
  | nil => rfl
  | cons a l ih =>
    rw [List.map_cons, List.nodup_cons] at h
    have hrest := ih h.2
    by_cases ha : key a = b
    · subst ha
      rw [if_neg h.1] at hrest
      rw [List.filter_cons_of_pos (by simp), List.length_cons, hrest, List.map_cons, if_pos List.mem_cons_self]
    · rw [List.filter_cons_of_neg (by simpa using ha), hrest, List.map_cons]
      have hmem : b ∈ key a :: l.map key ↔ b ∈ l.map key :=
        ⟨fun k => (List.mem_cons.mp k).resolve_left fun e => ha e.symm, List.mem_cons_of_mem _⟩
      simp only [hmem]

theorem mem_map_iff_filter {α : Type} {key : α → Bay} {l : List α} {b : Bay} :
    b ∈ l.map key ↔ (l.filter fun x => decide (key x = b)).length ≠ 0 := by
  rw [List.mem_map, ne_eq, List.length_eq_zero_iff, List.filter_eq_nil_iff]
  simp

/-! ## From the invariant to the standings -/

theorem standing_queued (h : CollectionLaw s) (b : Bay) :
    (standing s b).queued = if (bayAt s b).defrost.state = .queued then 1 else 0 := by
  obtain ⟨⟨hq, -, -, -⟩, hb⟩ := h
  show (s.arb.queue.filter fun q => decide (q.bay = b)).length = _
  rw [filter_length_of_nodup hq]
  simp only [(hb b).1]

theorem standing_listed (h : CollectionLaw s) (b : Bay) : (standing s b).listed
    = if (bayAt s b).defrost.state = .starting ∨ (bayAt s b).defrost.state = .active then 1 else 0 := by
  obtain ⟨⟨-, ha, -, -⟩, hb⟩ := h
  show (s.arb.active.filter fun x => decide (x = b)).length = _
  have hlen := filter_length_of_nodup (key := id) (l := s.arb.active) (by rw [List.map_id]; exact ha) b
  rw [List.map_id] at hlen
  simp only [(hb b).2.1]
  exact hlen

theorem onStackOf_iff : onStackOf s f b ↔ b ∈ (feederAt s f).stack.map (·.bay) := by
  rw [List.mem_map]

theorem standing_ends (h : CollectionLaw s) (b : Bay) (f : FeederIx) : ((standing s b).ends f).length
    = if b ∈ (feederAt s f).stack.map (·.bay) then 1 else 0 := by
  obtain ⟨⟨-, -, -, hf⟩, -⟩ := h
  show (((feederAt s f).stack.filter fun e => decide (e.bay = b)).map (·.ended)).length = _
  rw [List.length_map, filter_length_of_nodup (hf f)]

theorem standing_orders (h : CollectionLaw s) (ho : OrderLaw s) (b : Bay) : (standing s b).orders = []
    ∨ ∃ k, (standing s b).orders = [k] ∧ (bayAt s b).defrost.state = stateFor k := by
  obtain ⟨⟨-, -, hn, -⟩, -⟩ := h
  have hlen := filter_length_of_nodup hn b
  have horders : (standing s b).orders = (s.loop.orders.filter fun o => decide (o.bay = b)).map (·.kind) := rfl
  cases hl : s.loop.orders.filter fun o => decide (o.bay = b) with
  | nil => exact .inl (by rw [horders, hl]; rfl)
  | cons o l =>
    have hmem : o ∈ s.loop.orders ∧ o.bay = b := by
      have k : o ∈ s.loop.orders.filter fun o => decide (o.bay = b) := by rw [hl]; exact List.mem_cons_self
      simpa using k
    have hnil : l = [] := by
      rw [hl] at hlen
      refine List.length_eq_zero_iff.mp ?_
      rw [List.length_cons] at hlen
      split at hlen <;> omega
    exact .inr ⟨o.kind, by rw [horders, hl, hnil]; rfl, hmem.2 ▸ ho.1 o hmem.1⟩

theorem inStep_of_inv (h : BudgetInv s) (b : Bay) : InStep (standing s b) := by
  obtain ⟨hcoll, horder, -, -, -, hempty, hreason, -, hexchange⟩ := h
  have hstack (f : FeederIx) := (hcoll.2 b).2.2 f
  refine ⟨standing_queued hcoll b, standing_listed hcoll b, fun f hc hon => ?_, fun f hoff => ?_, standing_orders hcoll horder b,
    fun x hx k hk => ?_, fun x hx hv => ?_, hempty b, hreason b⟩
  · rw [standing_ends hcoll, if_pos (onStackOf_iff.mp ((hstack f).mpr ⟨hc, hon⟩))]
  · refine List.length_eq_zero_iff.mp ?_
    rw [standing_ends hcoll, if_neg fun k => hoff ((hstack f).mp (onStackOf_iff.mpr k))]
  · obtain ⟨hmem, rfl, hf⟩ := mem_flightOf.mp hx
    refine ⟨horder.2 x hmem hf k (by rw [hk]; rfl), List.map_eq_nil_iff.mpr (List.filter_eq_nil_iff.mpr fun o ho => ?_)⟩
    simpa using (hexchange x hmem hf).2 (by rw [hk]; nofun) o ho
  · obtain ⟨hmem, rfl, hf⟩ := mem_flightOf.mp hx
    exact (hexchange x hmem hf).1 hv

theorem kept_of_inv (h : BudgetInv s) : Kept s := by
  have hstep := inStep_of_inv h
  obtain ⟨hcoll, -, hbudget, hdoor, ⟨hwaits, hrest, hhalt⟩, -, -, hended, -⟩ := h
  refine ⟨⟨fun b => ⟨hstep b, fun hm => ?_, fun hr => ?_⟩, hbudget⟩, fun hr hready => ?_⟩
  · obtain ⟨hactive, hstarting, hends⟩ := hended b hm
    have hneither : (bayAt s b).defrost.state ≠ .queued ∧ (bayAt s b).defrost.state ≠ .shed := by
      rcases hm with hm | hm
      · exact hdoor b hm
      · refine ⟨fun k => ?_, (hwaits hm).2 b⟩
        have hmem := ((hcoll.2 b).1).mp k
        rw [(hwaits hm).1] at hmem
        cases hmem
    refine ⟨hneither.1, hneither.2, hactive, fun k => ⟨(hstarting k).1, (hstep b).sent k (hstarting k).2⟩, fun f e he => ?_⟩
    obtain ⟨x, hx, hb, rfl⟩ := mem_ends.mp he
    exact hends f x hx hb
  · obtain ⟨hnone, hstates⟩ := hrest hr
    refine ⟨hstates b, ?_⟩
    show (s.loop.orders.filter fun o => decide (o.bay = b)).map (·.kind) = []
    rw [hnone]
    rfl
  · rcases hhalt hr with k | ⟨b, k⟩
    · exact k hready.1
    · exact k.elim (hready.2 b).1 (hready.2 b).2

/-! ## From the standings to the invariant -/

theorem collectionLaw_of_laws (h : BaysLawful s) : CollectionLaw s := by
  have hle {n : Nat} {p : Prop} [Decidable p] (hn : n = if p then 1 else 0) : n ≤ 1 := by
    rw [hn]
    split <;> omega
  have hactive : s.arb.active.Nodup := h.active_nodup
  refine ⟨⟨nodup_of_filter_le_one fun b => hle (h b).inStep.queued, hactive, nodup_of_filter_le_one fun b => ?_, fun f =>
    nodup_of_filter_le_one fun b => ?_⟩, fun b => ⟨?_, ?_, fun f => ?_⟩⟩
  · have hlen : (s.loop.orders.filter fun o => decide (o.bay = b)).length = (standing s b).orders.length :=
      (List.length_map _).symm
    rw [hlen]
    rcases (h b).inStep.orders with k | ⟨k, hk, -⟩
    · rw [k]; exact Nat.zero_le 1
    · rw [hk]; exact Nat.le_refl 1
  · have hlen : ((feederAt s f).stack.filter fun e => decide (e.bay = b)).length = ((standing s b).ends f).length :=
      (List.length_map _).symm
    rw [hlen]
    by_cases hon : (bayAt s b).defrost.charge = .feeder f ∧ onShedStack (bayAt s b).defrost
    · exact Nat.le_of_eq ((h b).inStep.entry f hon.1 hon.2)
    · rw [(h b).inStep.noEntry f hon]; exact Nat.zero_le 1
  · have hlen : (s.arb.queue.filter fun q => decide (q.bay = b)).length
        = if (bayAt s b).defrost.state = .queued then 1 else 0 := (h b).inStep.queued
    rw [mem_map_iff_filter, hlen]
    split <;> simp_all
  · have hlen : (s.arb.active.filter fun x => decide (x = b)).length
        = if (bayAt s b).defrost.state = .starting ∨ (bayAt s b).defrost.state = .active then 1 else 0 := (h b).inStep.listed
    have hmem := mem_map_iff_filter (key := id) (l := s.arb.active) (b := b)
    rw [List.map_id] at hmem
    rw [hmem]
    show _ ↔ (s.arb.active.filter fun x => decide (x = b)).length ≠ 0
    rw [hlen]
    split <;> simp_all
  · rw [onStackOf_iff, mem_map_iff_filter]
    have hlen : ((feederAt s f).stack.filter fun e => decide (e.bay = b)).length = ((standing s b).ends f).length :=
      (List.length_map _).symm
    rw [hlen]
    by_cases hon : (bayAt s b).defrost.charge = .feeder f ∧ onShedStack (bayAt s b).defrost
    · rw [(h b).inStep.entry f hon.1 hon.2]
      exact ⟨fun _ => hon, fun _ => nofun⟩
    · rw [(h b).inStep.noEntry f hon]
      exact ⟨fun k => absurd rfl k, fun k => absurd k hon⟩

theorem orders_of_mem {o : Order} (ho : o ∈ s.loop.orders) : o.kind ∈ (standing s o.bay).orders :=
  List.mem_map.mpr ⟨o, List.mem_filter.mpr ⟨ho, by simp⟩, rfl⟩

theorem orderLaw_of_laws (h : BaysLawful s) : OrderLaw s := by
  refine ⟨fun o ho => ?_, fun x hx hf k hk => ?_⟩
  · have hmem := orders_of_mem ho
    rcases (h o.bay).inStep.orders with hnil | ⟨k, hone, hs⟩
    · rw [hnil] at hmem
      cases hmem
    · rw [hone, List.mem_singleton] at hmem
      rw [hmem]
      exact hs
  · cases hkind : x.kind with
    | poll =>
      rw [hkind] at hk
      cases hk
    | order k' =>
      rw [hkind] at hk
      cases hk
      exact ((h x.bay).inStep.flightOrder x (mem_flightOf.mpr ⟨hx, rfl, hf⟩) _ hkind).1

theorem exchangeLaw_of_laws (h : BaysLawful s) : ExchangeLaw s := by
  intro x hx hf
  have hmem := mem_flightOf.mpr ⟨hx, rfl, hf⟩
  refine ⟨(h x.bay).inStep.flightPolled x hmem, fun hk o ho hb => ?_⟩
  cases hkind : x.kind with
  | poll => exact hk hkind
  | order k =>
    have horder := orders_of_mem ho
    rw [hb, ((h x.bay).inStep.flightOrder x hmem k hkind).2] at horder
    cases horder

theorem runLaw_of_kept (h : Kept s) : RunLaw s := by
  refine ⟨fun hr => ⟨?_, fun b => ((h.laws.bays b).ended (.inr hr)).notShed⟩, fun hr => ⟨?_, fun b => ((h.laws.bays b).rest hr).state⟩,
    fun hr => ?_⟩
  · refine List.eq_nil_iff_forall_not_mem.mpr fun q hq => ?_
    have hqueued := ((collectionLaw_of_laws h.laws.bays).2 q.bay).1.mpr (List.mem_map_of_mem hq)
    exact ((h.laws.bays q.bay).ended (.inr hr)).notQueued hqueued
  · refine List.eq_nil_iff_forall_not_mem.mpr fun o ho => ?_
    have hmem := orders_of_mem ho
    rw [((h.laws.bays o.bay).rest hr).orders] at hmem
    cases hmem
  · by_contra hn
    obtain ⟨h1, h2⟩ := not_or.mp hn
    refine h.halt hr ⟨not_not.mp h1, fun b => ⟨fun k => h2 ⟨b, .inl k⟩, fun k => h2 ⟨b, .inr k⟩⟩⟩

theorem inv_of_kept (h : Kept s) : BudgetInv s := by
  refine ⟨collectionLaw_of_laws h.laws.bays, orderLaw_of_laws h.laws.bays, h.laws.budget, fun b hb => ?_, runLaw_of_kept h,
    fun b => h.laws.empty b, fun b => (h.laws.bays b).inStep.reason, fun b hm => ?_, exchangeLaw_of_laws h.laws.bays⟩
  · have hover := (h.laws.bays b).ended (.inl hb)
    exact ⟨hover.notQueued, hover.notShed⟩
  · have hover := (h.laws.bays b).ended hm
    refine ⟨hover.notActive, fun k => ⟨(hover.starting k).1, ?_⟩, fun f e he hb => hover.ends f _ (mem_ends.mpr ⟨e, he, hb, rfl⟩)⟩
    rw [startUnsent_eq, (hover.starting k).2]
    rfl

end Sys2Proof.Machine

namespace Sys2Proof.Proofs

open Sys2Proof.Machine Sys2Proof.Claims

/-- Settles O60: `BudgetInv` says the laws of every bay's standing, of the budgets and of HALTING (`kept_of_inv`,
`inv_of_kept`), and each change a command can make keeps these (`CommandEffect.kept`). -/
theorem stepKeepsBudgets : Obligations.StepKeepsBudgets := by
  refine ⟨fun s t hs h => ?_, fun s t hs h => step_keeps_rest hs h⟩
  have hkept : Kept t := step_of_effect (P := Kept) (fun s rest hk => hk.congr rfl rfl rfl rfl rfl)
    (fun s t hk he => he.kept (kept_of_inv budgetInv_reset) hk) (kept_of_inv hs) h
  exact inv_of_kept hkept

end Sys2Proof.Proofs
end
